-- ==== Sys2Proof/Word.lean ====
section
/-! DEFINITION. The word types of the Marolmano and their plainest arithmetic: the 64-bit word of a general
register, the byte of memory, and the reading of a word as a signed or an unsigned number (R24). -/

namespace Sys2Proof

/-- A general register, an address, a handle or an eight-byte word of memory. -/
abbrev Word := BitVec 64

/-- One byte of memory. -/
abbrev Byte := BitVec 8

/-- A vector register: 2,048 bits (R333). -/
abbrev VWord := BitVec 2048

/-- The word of an exact integer, wrapped modulo 2^64. -/
def Word.ofInt (x : Int) : Word := BitVec.ofInt 64 x

end Sys2Proof
end

