-- ==== Sys2Proof/Config.lean ====
section
/-! DEFINITION. What the spec leaves to the implementation or leaves open, as constants without a body: nothing in
Lean can evaluate them or prove a value of them. -/

namespace Sys2Proof.Config

/-- The n-th choice among equals that the spec leaves to the device: which free slot a new fibre takes (R324), which
free run of the landing zone a payload takes (R121), which line a cache drops (log 4). -/
opaque choose (n : Nat) : Nat

/-- The silicon stepping, which is fused (R43). -/
opaque stepping : BitVec 4

/-- A hardware step of bring-up succeeds (R31, R33), by PHASE. -/
opaque stepPasses (phase : Nat) : Bool

/-- The drives that step 7 finds usable and the smallest capacity among them (R35, R36). -/
opaque drivesFound : BitVec 16
opaque driveBytes : Nat

/-- An image slot with these bytes holds an image of a kind whose key and signature R37 accepts: kind 0 is the
attic kernel, 1 the link firmware, 2 the tile boot image, and kind 3 is the staged image that
FWCOMMIT verifies. The layout of an image is not given (log 5). -/
opaque imageAccepted (kind : Nat) (slot : List (Nat × Byte)) : Bool

/-- The security version of the image in a slot (R37, R38). -/
opaque imageVersion (slot : List (Nat × Byte)) : Nat

/-- The response of IDENT (R50): serial number, stepping, image versions, identity key and certificate chain. -/
opaque identReport (slotA slotB : List (Nat × Byte)) (activeB : Bool) : List Byte

/-- SHA3-512 of an item that an attestation report names (R39): 0 the identity key, 1 the boot ROM, 2 the attic
kernel, 3 the link firmware, 4 the tile boot image, 5 the fuse block. -/
opaque digest (item : Nat) (slot : List (Nat × Byte)) (counter : Nat) : BitVec 512

/-- The ML-DSA-87 signature of a body under the identity key (R39), of 4,627 bytes. -/
opaque signature (body : List Byte) : BitVec 37016

/-- The response of LINKS (R50): the domain, the device numbers, and the state of each port and route. -/
opaque linksReport (devnum : BitVec 8) (linkup : BitVec 16) (routes : List (BitVec 8 × BitVec 4)) : List Byte

/-- The state word that READBACK class 12 returns for a line of a cluster memory (R225), from the line's address, if
it is held, whether it is dirty and whether it is use-once: the word's layout is not given (log 6). -/
opaque lineState (base : Option Nat) (dirty once : Bool) : BitVec 64

/-- A byte of a line that a cluster memory does not hold, or of a slot that holds no object (log 6, log 47). -/
opaque freeByte (n : Nat) : BitVec 8

/-- KEPT of a fibre record (R62) for a kept payload: its unit, its units and its length. The form is not given
(log 47). -/
opaque keptWord (unit units len : Nat) : BitVec 64

/-- Where system software places a tile's slots in HBM, and how many reference blocks it adds (R60, R327). -/
opaque slotBase (tile : Nat) : Nat
opaque slotBlocks (tile : Nat) : Nat

/-- The status with which the attic kernel answers a load that it refuses for another reason than its RCB (R16, R413,
R426): none is given (log 43). -/
opaque loadRefusal (rcb : BitVec 64) : BitVec 8

end Sys2Proof.Config
end

