-- ==== Sys2Proof/Syntax.lean ====
section
/-! DEFINITION. The instructions and events of the Marolmano, WHOLE: one constructor of `Instr` for each row of
spec/opcode_table.json, those with operands first and those without after them, each in the table's order (the
runtime numbers constructors that carry data up to 244 only). The encoded instructions carry their fields as raw bits, under the
table's field names. The events (bring-up steps, host acts, mailbox commands, scheduler and home acts) have no
encoding; they carry the operands that say which of the machine's many parts the event befalls. -/

namespace Sys2Proof

/-- The named cause codes of R217. -/
inductive Cause where
  | zeroHalfword | reservedMajor | reservedMinor | reservedField | privileged | carveBusy | misalignedTarget
  | sysregInvalid | trap | breakpoint | watchHit | stepDone | doubleFault
  | tagMismatch | tagUnsupported | shapeMismatch | formatOperand | roundMode | laneIndex
  | rangeNone | permRead | permWrite | permExec | cow | partialResidency | misaligned | poison | privateOwner
  | rangeOverlap | treeMalformed
  | scopeFree | scopeRetired | barOverrun | barTimeout
  | watchdog | specHold | deadLetter | futureStale | handleInvalid | notHolder | sendInvalid | payloadLength
  | fputForeign | contBusy
  | frameOverflow | frameUnderflow | frameNotTop | frameSharedWrite | argSpanInvalid | resultSpanInvalid
  | kvRetry | ctxStale | slabFull | drawEmptySet | maskMissing
  deriving DecidableEq, Repr

/-- A ready queue above or at a tile (R84): the tile's own, a cluster's, or a die's. -/
inductive QueueRef where
  | tile (i : BitVec 10)
  | cluster (c : BitVec 6)
  deriving DecidableEq, Repr

/-- One line of the hub's routing table (R29): the device and the port that leads to it. -/
structure Route where
  device : BitVec 8
  port : BitVec 4
  deriving DecidableEq, Repr

/-- One kept region's initial content, or one image that system software places before a load: bytes at a
physical address (R15, R57). -/
structure Image where
  base : Nat
  data : List (BitVec 8)
  deriving DecidableEq, Repr

/-- One handler of a load: its number, the tile it is installed on and the virtual address of its first
instruction there (R9, R17). -/
structure HandlerDecl where
  tile : BitVec 10
  number : BitVec 12
  entry : BitVec 64
  deriving DecidableEq, Repr

/-- The kept space of one tile of a load (R15, R16): the bytes its `.keep` lines reserve, already aligned, and
the content that their `.data` lines give, by scratchpad offset. -/
structure KeepDecl where
  tile : BitVec 10
  bytes : Nat
  data : List Image
  deriving DecidableEq, Repr

/-- The code image of one tile of a load: the virtual address at which the loader places it, and its bytes (R15). -/
structure CodeDecl where
  tile : BitVec 10
  base : BitVec 64
  data : List (BitVec 8)
  deriving DecidableEq, Repr

/-- One `.ctx` of a load (R413): the `.tile` set in force at it, empty where no `.tile` precedes it; the log2 of its
capacity; its layers minus 1; and the values of KVH, DIM, KTAG and VTAG that the request names. -/
structure CtxDecl where
  tiles : List (BitVec 10)
  caplog : BitVec 5
  layers : BitVec 7
  kvh : Option (BitVec 6)
  dim : Option (BitVec 4)
  ktag : Option (BitVec 4)
  vtag : Option (BitVec 4)
  deriving DecidableEq, Repr

/-- One `.scope` of a load (R15): the sets of a programmable entry. Bit i of `tiles` and `spads` is tile i;
`tilesAt` and `spadsAt` are the virtual addresses at which system software has placed the bitmaps (R168). -/
structure ScopeDecl where
  index : BitVec 4
  host : Bool
  cmem : BitVec 64
  tilesAt : BitVec 64
  spadsAt : BitVec 64
  tiles : BitVec 1024
  spads : BitVec 1024
  deriving DecidableEq, Repr

/-- Where a check code finds an error that it cannot correct: in the unit of HBM, of a cluster memory or of an array that
holds a byte (R26), or in the line of a tile's L1 that does (R112). -/
inductive ErrorPlace where
  | home (pa : BitVec 52)
  | l1 (tile : BitVec 10) (pa : BitVec 52)
  deriving DecidableEq, Repr

/-- A run of blocks of 64 KiB of a die's HBM that the attic kernel hands to that die's store room (R157). -/
structure BlockRun where
  die : BitVec 2
  first : Nat
  count : Nat
  deriving DecidableEq, Repr

/-- An entry of the host range table that system software asks for with a load: its number and its 64 bytes (R128,
R151). -/
structure HostRangeDecl where
  index : BitVec 6
  data : List (BitVec 8)
  deriving DecidableEq, Repr

/-- System software's request to load a region (R15, R16, R57, R58, R104, R127, R413, R424, R426). The images are
the bytes that software has placed first: the RCB, the nodes of the tree it provides and the bitmaps of its scopes. `lzb`,
`forks` and `slab`, the pair SLABWIN and SLABLOG, are none where the request does not name them. -/
structure LoadRequest where
  rcb : BitVec 64
  images : List Image
  handlers : List HandlerDecl
  root : BitVec 12
  keeps : List KeepDecl
  ctxs : List CtxDecl
  scopes : List ScopeDecl
  tregs : BitVec 5
  accs : BitVec 3
  lzb : Option (BitVec 6)
  forks : Option Nat
  slab : Option (BitVec 64 × Nat)
  code : List CodeDecl
  blocks : List BlockRun
  hostRanges : List HostRangeDecl
  deriving DecidableEq, Repr

/-- The instructions and events of the Marolmano: one constructor for each row of the opcode table. -/
inductive Instr where
  /-- FUSE_LOAD (R31): Bring-up step 1 loads the fuses, starts the attic boot ROM and derives the identity key. -/
  | fuseLoad (ok : Bool)
  /-- CLOCK_CALIBRATION (R31): Bring-up step 3 calibrates the tile, mesh and link clocks. -/
  | clockCalibration (ok : Bool)
  /-- SRAM_REPAIR (R31): Bring-up step 4 self-tests the SRAM arrays and remaps them to spare rows. -/
  | sramRepair (ok : Bool)
  /-- LINK_CALIBRATION (R31): Bring-up step 5 calibrates the die-to-die and bridge links. -/
  | linkCalibration (ok : Bool)
  /-- HBM_TRAINING (R31): Bring-up step 6 trains all twelve HBM4E stacks. -/
  | hbmTraining (ok : Bool)
  /-- PORT_EQUALISATION (R31): Bring-up step 7 equalises the Prexis Link and PCIe root ports and enumerates the cellar drives. -/
  | portEqualisation (ok : Bool) (drives : BitVec 16) (driveBytes : Nat)
  /-- HBM_ZEROING (R31): Bring-up step 8 zeroes HBM and seeds its check codes. -/
  | hbmZeroing (ok : Bool)
  /-- SRAM_ZEROING (R31): Bring-up step 9 zeroes the cluster memories, tile SRAM and caches. -/
  | sramZeroing (ok : Bool)
  /-- PORT_FAILURE (R29): A Prexis Link port fails and the hub resends unacknowledged flits of each pair on another route. -/
  | portFailure (port : BitVec 4)
  /-- LINK_DOMAIN_FORMATION (R29): The attic kernel forms the link domain, assigns device numbers and fills the routing tables. -/
  | linkDomainFormation (devnum : BitVec 8) (linkup : BitVec 16) (routes : List Route)
  /-- TIME_SYNC (R53): TIME is adjusted toward the domain master and TSYNC is updated, refusing armed gang slots if it falls. -/
  | timeSync (advance : BitVec 64) (ppm : Int) (synced : Bool)
  /-- DRIVE_FAILURE (R36): A cellar drive fails after READY, its DRIVEUP bit is cleared and its blocks read as poisoned. -/
  | driveFailure (drive : BitVec 4)
  /-- HOST_MESSAGE (R44): A complete host message written to a window slot is checked, assembled and placed in the destination tile's inbound queue. -/
  | hostMessage (off : BitVec 16) (data : List (BitVec 8))
  /-- HOST_MESSAGE_TIMEOUT (R45): A message whose continuation flits do not all arrive within 2^20 ticks is discarded and HMERR set. -/
  | hostMessageTimeout (slot : BitVec 10)
  /-- HOST_HDM_ACCESS (R151): A host CXL.mem access to an HDM window is translated by the host range table and performed or refused. -/
  | hostHdmAccess (off : BitVec 64) (len : Nat) (store : Option (List (BitVec 8)))
  /-- REGISTER_WRITE (R41): A host write to a BAR0 register or buffer that has no row of its own. -/
  | registerWrite (off : BitVec 17) (data : List (BitVec 8))
  /-- GANG_ARM (R55): An ARM write to GANGCTLn is judged and arms the slot or refuses it with a cause. -/
  | gangArm (n : BitVec 3)
  /-- GANG_CANCEL (R55): A CANCEL write before the tick returns an armed gang slot to idle. -/
  | gangCancel (n : BitVec 3)
  /-- GANG_FIRE (R55): When TIME reaches GANGTICKn the staged message is injected and the slot becomes fired. -/
  | gangFire (n : BitVec 3)
  /-- REGION_LOAD (R57): The attic kernel loads a region's RCB, kept regions, contexts, scope entries and ranges, or refuses it. -/
  | regionLoad (req : LoadRequest)
  /-- REGION_UNLOAD (R57): The attic kernel unloads a region, marking it unloading and freeing its resources. -/
  | regionUnload (region : BitVec 16)
  /-- REGION_SWITCH_OUT (R223): The attic kernel saves a frozen region's tile state and frees its resources. -/
  | regionSwitchOut (region : BitVec 16)
  /-- REGION_SWITCH_IN (R223): The attic kernel restores a switched-out region to its tiles once they can take its CARVE. -/
  | regionSwitchIn (region : BitVec 16)
  /-- THREAD_DISPATCH (R94): A free thread takes the highest-ranked startable candidate and starts its activation. -/
  | threadDispatch (tile : BitVec 10)
  /-- QUEUE_SPILL (R87): An over-full ready queue moves a block of eight entries to the level above. -/
  | queueSpill (queue : QueueRef)
  /-- QUEUE_REFILL (R88): A nearly empty ready queue takes up to eight fibres from its backlog or from the level above. -/
  | queueRefill (queue : QueueRef)
  /-- STEAL (R92): An idle tile asks victims in its cluster and neighbouring dies for ready entries. -/
  | steal (tile : BitVec 10)
  /-- WATCHDOG (R98): An activation's watchdog budget runs out and it stops with WATCHDOG or BAR_TIMEOUT. -/
  | watchdog (tile : BitVec 10) (thread : BitVec 3)
  /-- MESSAGE_ARRIVAL (R121): A message reaches its destination tile, is transformed into the landing zone and queued, or dead-lettered. -/
  | messageArrival (n : Nat)
  /-- DECREMENT_ARRIVAL (R67): A decrement is applied at the counter's home and may make the fibre ready or be discarded. -/
  | decrementArrival (n : Nat)
  /-- FIBRE_RECLAIM (R75): A fibre whose count reached zero is reclaimed, cascading to futures it held. -/
  | fibreReclaim (tile : BitVec 10) (slot : BitVec 12)
  /-- ENGINE_COMMAND_START (R117): An engine command whose conflicts have finished starts running. -/
  | engineCommandStart (tile : BitVec 10) (n : Nat)
  /-- ENGINE_COMMAND_FINISH (R114): An engine command completes or is cancelled and COMPLETE advances. -/
  | engineCommandFinish (tile : BitVec 10) (n : Nat)
  /-- TABLE_WALK (R134): A range-table miss is resolved by a walk of the range tree that installs the entry or reports none. -/
  | tableWalk (tile : BitVec 10) (region : BitVec 16) (va : BitVec 64)
  /-- BLOCK_FETCH_COMPLETE (R153): A block fetch from the backing copy finishes and the block becomes RESIDENT. -/
  | blockFetchComplete (block : BitVec 52) (ok : Bool) (bad : List Nat)
  /-- WRITE_BACK_COMPLETE (R153): An evicting block's write-back finishes and the block becomes NONRES. -/
  | writeBackComplete (block : BitVec 52) (ok : Bool)
  /-- MOVE_STEP (R140): One 64 KiB step of a range move copies its lines, places forward records and advances FBASE. -/
  | moveStep (n : Nat)
  /-- FORWARD_RECORD_REMOVAL (R140): A step's forward records are removed once every table has its new FBASE and old accesses are done. -/
  | forwardRecordRemoval (n : Nat)
  /-- COMPACTION (R143): A store room moves allocated runs downward until a run of the wanted size is free. -/
  | compaction (die : BitVec 2) (k : BitVec 5)
  /-- BORROW (R158): A store room below its reserve borrows a batch of 64 blocks from a neighbouring die. -/
  | borrow (die : BitVec 2)
  /-- BATCH_RETURN (R158): A wholly free borrowed batch is returned to its lender. -/
  | batchReturn (die : BitVec 2) (n : Nat)
  /-- RANGE_RELEASE (R415): A PRIVATE range of an ended or reclaimed owner is passed on or removed and invalidated. -/
  | rangeRelease (n : Nat)
  /-- SCOPE_DRAIN (R169): A retiring scope entry with nothing in flight becomes free on every tile and at its home. -/
  | scopeDrain (region : BitVec 16) (sc : BitVec 4)
  /-- BARRIER_WAKE (R184): A waiter in bar.wait is woken or polls again and reads the barrier word afresh. -/
  | barrierWake (tile : BitVec 10) (thread : BitVec 3)
  /-- PAUSE_EXPIRY (R311): The cycle count of a pause runs out and the thread issues again. -/
  | pauseExpiry (tile : BitVec 10) (thread : BitVec 3)
  /-- TILE_STOP (R220): A freeze reaches a tile, which stops the group's threads, waits for their commands and flips its colour. -/
  | tileStop (tile : BitVec 10) (region : BitVec 16)
  /-- CUT_CLOSE (R221): When every tile has stopped and the sent and received sums agree the cut closes and RSTATE becomes frozen. -/
  | cutClose (region : BitVec 16)
  /-- RGNCTL_FREEZE (R408): A write of RGNCTL with OP 0 freezes a region below the issuer. -/
  | rgnctlFreeze (issuer region : BitVec 16)
  /-- RGNCTL_THAW (R408): A write of RGNCTL with OP 1 thaws a region below the issuer. -/
  | rgnctlThaw (issuer region : BitVec 16)
  /-- HOST_SIGNAL (R408): A write of HOSTSIG raises the named MSI-X vector. -/
  | hostSignal (vec : BitVec 4)
  /-- ADD (R279): Adds two registers modulo 2^64. -/
  | add (d : BitVec 5) (a : BitVec 5) (b : BitVec 5)
  /-- SUB (R279): Subtracts two registers modulo 2^64. -/
  | sub (d : BitVec 5) (a : BitVec 5) (b : BitVec 5)
  /-- AND (R279): Bitwise and of two registers. -/
  | and (d : BitVec 5) (a : BitVec 5) (b : BitVec 5)
  /-- OR (R279): Bitwise or of two registers. -/
  | or (d : BitVec 5) (a : BitVec 5) (b : BitVec 5)
  /-- XOR (R279): Bitwise exclusive or of two registers. -/
  | xor (d : BitVec 5) (a : BitVec 5) (b : BitVec 5)
  /-- SHL (R280): Shifts left by a register amount, clearing at 64 or more. -/
  | shl (d : BitVec 5) (a : BitVec 5) (b : BitVec 5)
  /-- SHR (R280): Logical right shift by a register amount. -/
  | shr (d : BitVec 5) (a : BitVec 5) (b : BitVec 5)
  /-- SRA (R280): Arithmetic right shift by a register amount. -/
  | sra (d : BitVec 5) (a : BitVec 5) (b : BitVec 5)
  /-- MUL (R279): Low 64 bits of the product. -/
  | mul (d : BitVec 5) (a : BitVec 5) (b : BitVec 5)
  /-- MULH (R279): High 64 bits of the signed product. -/
  | mulh (d : BitVec 5) (a : BitVec 5) (b : BitVec 5)
  /-- MULHU (R279): High 64 bits of the unsigned product. -/
  | mulhu (d : BitVec 5) (a : BitVec 5) (b : BitVec 5)
  /-- DIV (R281): Signed division truncating toward zero, never faulting. -/
  | div (d : BitVec 5) (a : BitVec 5) (b : BitVec 5)
  /-- DIVU (R281): Unsigned division, never faulting. -/
  | divu (d : BitVec 5) (a : BitVec 5) (b : BitVec 5)
  /-- REM (R281): Signed remainder with the sign of the dividend. -/
  | rem (d : BitVec 5) (a : BitVec 5) (b : BitVec 5)
  /-- REMU (R281): Unsigned remainder. -/
  | remu (d : BitVec 5) (a : BitVec 5) (b : BitVec 5)
  /-- MIN (R279): Signed minimum. -/
  | min (d : BitVec 5) (a : BitVec 5) (b : BitVec 5)
  /-- MAX (R279): Signed maximum. -/
  | max (d : BitVec 5) (a : BitVec 5) (b : BitVec 5)
  /-- MINU (R279): Unsigned minimum. -/
  | minu (d : BitVec 5) (a : BitVec 5) (b : BitVec 5)
  /-- MAXU (R279): Unsigned maximum. -/
  | maxu (d : BitVec 5) (a : BitVec 5) (b : BitVec 5)
  /-- CLZ (R282): Counts leading zero bits. -/
  | clz (d : BitVec 5) (a : BitVec 5)
  /-- CTZ (R282): Counts trailing zero bits. -/
  | ctz (d : BitVec 5) (a : BitVec 5)
  /-- POP (R282): Counts set bits. -/
  | pop (d : BitVec 5) (a : BitVec 5)
  /-- EXT (R283): Extracts a bit field described by gb. -/
  | ext (d : BitVec 5) (a : BitVec 5) (b : BitVec 5)
  /-- INS (R283): Inserts a bit field of ga into gd as described by gb. -/
  | ins (d : BitVec 5) (a : BitVec 5) (b : BitVec 5)
  /-- SEL (R284): Selects ga or gb by a predicate. -/
  | sel (d : BitVec 5) (a : BitVec 5) (b : BitVec 5) (p : BitVec 3)
  /-- ADDI (R285): Adds a sign-extended 15-bit immediate. -/
  | addi (d : BitVec 5) (a : BitVec 5) (i : BitVec 15)
  /-- ANDI (R285): Ands with a sign-extended 15-bit immediate. -/
  | andi (d : BitVec 5) (a : BitVec 5) (i : BitVec 15)
  /-- ORI (R285): Ors with a zero-extended 15-bit immediate. -/
  | ori (d : BitVec 5) (a : BitVec 5) (i : BitVec 15)
  /-- XORI (R285): Exclusive-ors with a sign-extended 15-bit immediate. -/
  | xori (d : BitVec 5) (a : BitVec 5) (i : BitVec 15)
  /-- SHLI (R285): Shifts left by an immediate amount. -/
  | shli (d : BitVec 5) (a : BitVec 5) (n : BitVec 6)
  /-- SHRI (R285): Logical right shift by an immediate amount. -/
  | shri (d : BitVec 5) (a : BitVec 5) (n : BitVec 6)
  /-- SRAI (R285): Arithmetic right shift by an immediate amount. -/
  | srai (d : BitVec 5) (a : BitVec 5) (n : BitVec 6)
  /-- LI (R286): Loads a sign-extended 20-bit immediate. -/
  | li (d : BitVec 5) (i : BitVec 20)
  /-- LIH (R286): Shifts gd left 20 bits and ors in a 20-bit immediate. -/
  | lih (d : BitVec 5) (i : BitVec 20)
  /-- ADDPC (R286): Computes a PC-relative address. -/
  | addpc (d : BitVec 5) (i : BitVec 20)
  /-- CMP (R287): Compares two registers and writes a predicate. -/
  | cmp (p : BitVec 3) (a : BitVec 5) (b : BitVec 5) (c : BitVec 6)
  /-- CMPI (R287): Compares a register with an 11-bit immediate and writes a predicate. -/
  | cmpi (p : BitVec 3) (a : BitVec 5) (c : BitVec 4) (i : BitVec 11)
  /-- PAND (R288): And of two predicates. -/
  | pand (d : BitVec 3) (a : BitVec 3) (b : BitVec 3)
  /-- POR (R288): Or of two predicates. -/
  | por (d : BitVec 3) (a : BitVec 3) (b : BitVec 3)
  /-- PXOR (R288): Exclusive or of two predicates. -/
  | pxor (d : BitVec 3) (a : BitVec 3) (b : BitVec 3)
  /-- PNOT (R288): Negates a predicate. -/
  | pnot (d : BitVec 3) (a : BitVec 3)
  /-- B (R290): Branches PC-relative when the predicate equals the sense. -/
  | b (p : BitVec 3) (s : BitVec 1) (o : BitVec 21)
  /-- J (R291): Jumps PC-relative. -/
  | j (o : BitVec 25)
  /-- CALL (R291): Writes the link and jumps PC-relative. -/
  | call (o : BitVec 25)
  /-- JR (R292): Jumps to a register address. -/
  | jr (a : BitVec 5)
  /-- CALLR (R292): Writes the link and jumps to a register address read first. -/
  | callr (a : BitVec 5)
  /-- LOOP (R293): Decrements a counter and branches while it is nonzero. -/
  | loop (r : BitVec 5) (o : BitVec 18)
  /-- BZ (R293): Branches if a register is zero. -/
  | bz (r : BitVec 5) (o : BitVec 18)
  /-- BNZ (R293): Branches if a register is nonzero. -/
  | bnz (r : BitVec 5) (o : BitVec 18)
  /-- LD (R296): Plain zero-extending load of 1 to 8 bytes. -/
  | ld (d : BitVec 5) (b : BitVec 5) (s : BitVec 2) (o : BitVec 8)
  /-- ST (R296): Plain store of 1 to 8 bytes. -/
  | st (d : BitVec 5) (b : BitVec 5) (s : BitVec 2) (o : BitVec 8)
  /-- LD_ACQ (R298): Load read at the home followed by an acquire at its scope. -/
  | ldAcq (d : BitVec 5) (b : BitVec 5) (s : BitVec 2) (c : BitVec 4) (o : BitVec 8)
  /-- ST_REL (R298): Release at its scope followed by a store. -/
  | stRel (d : BitVec 5) (b : BitVec 5) (s : BitVec 2) (c : BitVec 4) (o : BitVec 8)
  /-- LD_VOL (R296): Volatile load performed once at its home. -/
  | ldVol (d : BitVec 5) (b : BitVec 5) (s : BitVec 2) (o : BitVec 8)
  /-- ST_VOL (R296): Volatile store performed once at its home. -/
  | stVol (d : BitVec 5) (b : BitVec 5) (s : BitVec 2) (o : BitVec 8)
  /-- PREF (R299): Prefetches a line into the L1 when allowed, never faulting. -/
  | pref (b : BitVec 5) (o : BitVec 8)
  /-- AMO_W (R301): Four-byte integer atomic at the home with release and acquire. -/
  | amoW (d : BitVec 5) (a : BitVec 5) (b : BitVec 5) (c : BitVec 4) (o : BitVec 4)
  /-- AMO_D (R301): Eight-byte integer atomic at the home with release and acquire. -/
  | amoD (d : BitVec 5) (a : BitVec 5) (b : BitVec 5) (c : BitVec 4) (o : BitVec 4)
  /-- AMO_F_FP32 (R302): FP32 atomic add at the home. -/
  | amoFFp32 (d : BitVec 5) (a : BitVec 5) (b : BitVec 5) (c : BitVec 4)
  /-- AMO_F_BF16 (R302): Atomic add of two BF16 lanes at the home. -/
  | amoFBf16 (d : BitVec 5) (a : BitVec 5) (b : BitVec 5) (c : BitVec 4)
  /-- CAS (R303): Compare-and-swap at the home, setting p7. -/
  | cas (d : BitVec 5) (a : BitVec 5) (b : BitVec 5) (c : BitVec 4) (s : BitVec 1)
  /-- FENCE (R306): Orders earlier before later accesses to the scope's homes. -/
  | fence (c : BitVec 4)
  /-- BAR_INIT (R307): Initialises a barrier word with a count. -/
  | barInit (a : BitVec 5) (b : BitVec 5) (c : BitVec 4)
  /-- BAR_ARRIVE (R307): Arrives at a barrier phase as an atomic at its home. -/
  | barArrive (a : BitVec 5) (b : BitVec 5) (c : BitVec 4)
  /-- BAR_WAIT (R307): Waits until the barrier phase changes, then acquires. -/
  | barWait (a : BitVec 5) (b : BitVec 5) (c : BitVec 4)
  /-- SEV (R308): Releases and sets the event latch of the scope's threads. -/
  | sev (c : BitVec 4)
  /-- TLWAIT (R309): Flushes sends and waits for a timeline number, setting p7. -/
  | tlwait (b : BitVec 5) (t : BitVec 2)
  /-- TLREAD (R309): Returns a context's ISSUED count. -/
  | tlread (d : BitVec 5) (t : BitVec 2)
  /-- SCOPE_SET (R310): Makes a free scope entry live from a descriptor. -/
  | scopeSet (a : BitVec 5) (c : BitVec 4)
  /-- SCOPE_GET (R310): Reads word 0 of a scope entry at its home. -/
  | scopeGet (d : BitVec 5) (c : BitVec 4)
  /-- SCOPE_RETIRE (R310): Marks a live scope entry retiring. -/
  | scopeRetire (c : BitVec 4)
  /-- PAUSE (R311): Stops issue from the thread for a number of cycles. -/
  | pause (b : BitVec 5)
  /-- SEND (R318): Buffers a message to a handler or fibre. -/
  | send (d : BitVec 5) (a : BitVec 5) (b : BitVec 5) (c : BitVec 4)
  /-- SEND_T (R318): Buffers a message with a payload transform word. -/
  | sendT (d : BitVec 5) (a : BitVec 5) (b : BitVec 5) (c : BitVec 4)
  /-- FIB_NEW (R324): Creates a waiting fibre with a dependence counter. -/
  | fibNew (d : BitVec 5) (a : BitVec 5) (b : BitVec 5)
  /-- SPAWN (R324): Creates a ready fibre. -/
  | spawn (d : BitVec 5) (a : BitVec 5)
  /-- SPAWN_G (R325): Creates a group of member fibres and a completion future. -/
  | spawnG (d : BitVec 5) (a : BitVec 5) (b : BitVec 5) (c : BitVec 4)
  /-- FIB_DEC (R326): Buffers a decrement of a fibre's or group's counter. -/
  | fibDec (a : BitVec 5) (b : BitVec 5) (c : BitVec 4)
  /-- FREF (R327): Gives a holder one more reference to a future. -/
  | fref (a : BitVec 5) (b : BitVec 5)
  /-- FDROP (R328): Ends one reference the issuer holds to a future. -/
  | fdrop (a : BitVec 5)
  /-- FCONFIRM (R329): Confirms a future and its fibre, making a parked fibre ready. -/
  | fconfirm (a : BitVec 5)
  /-- FPUT (R330): Resolves the activation's own future with a value. -/
  | fput (a : BitVec 5) (b : BitVec 5) (c : BitVec 4)
  /-- FGET (R331): Waits for a future and returns its result. -/
  | fget (d : BitVec 5) (a : BitVec 5)
  /-- FON (R332): Registers a continuation on a future. -/
  | fon (a : BitVec 5) (b : BitVec 5)
  /-- VADD (R336): Lane-wise addition. -/
  | vadd (d : BitVec 5) (a : BitVec 5) (b : BitVec 5) (m : BitVec 3)
  /-- VSUB (R336): Lane-wise subtraction. -/
  | vsub (d : BitVec 5) (a : BitVec 5) (b : BitVec 5) (m : BitVec 3)
  /-- VMUL (R336): Lane-wise multiplication. -/
  | vmul (d : BitVec 5) (a : BitVec 5) (b : BitVec 5) (m : BitVec 3)
  /-- VMAX (R336): Lane-wise maximum. -/
  | vmax (d : BitVec 5) (a : BitVec 5) (b : BitVec 5) (m : BitVec 3)
  /-- VMIN (R336): Lane-wise minimum. -/
  | vmin (d : BitVec 5) (a : BitVec 5) (b : BitVec 5) (m : BitVec 3)
  /-- VAND (R336): Lane-wise bitwise and. -/
  | vand (d : BitVec 5) (a : BitVec 5) (b : BitVec 5) (m : BitVec 3)
  /-- VOR (R336): Lane-wise bitwise or. -/
  | vor (d : BitVec 5) (a : BitVec 5) (b : BitVec 5) (m : BitVec 3)
  /-- VXOR (R336): Lane-wise exclusive or. -/
  | vxor (d : BitVec 5) (a : BitVec 5) (b : BitVec 5) (m : BitVec 3)
  /-- VSHL (R336): Lane-wise left shift. -/
  | vshl (d : BitVec 5) (a : BitVec 5) (b : BitVec 5) (m : BitVec 3)
  /-- VSHR (R336): Lane-wise right shift. -/
  | vshr (d : BitVec 5) (a : BitVec 5) (b : BitVec 5) (m : BitVec 3)
  /-- VFMA (R337): Lane-wise fused multiply-add into vd. -/
  | vfma (d : BitVec 5) (a : BitVec 5) (b : BitVec 5) (m : BitVec 3)
  /-- VSEL (R338): Selects each element from va or vb by the mask. -/
  | vsel (d : BitVec 5) (a : BitVec 5) (b : BitVec 5) (m : BitVec 3)
  /-- VPERM (R339): Permutes containers by indices. -/
  | vperm (d : BitVec 5) (a : BitVec 5) (b : BitVec 5) (m : BitVec 3)
  /-- VABS (R340): Lane-wise magnitude. -/
  | vabs (d : BitVec 5) (a : BitVec 5) (m : BitVec 3)
  /-- VNEG (R340): Lane-wise negation. -/
  | vneg (d : BitVec 5) (a : BitVec 5) (m : BitVec 3)
  /-- VEXP2 (R340): Correctly rounded 2^x. -/
  | vexp2 (d : BitVec 5) (a : BitVec 5) (r : BitVec 3) (m : BitVec 3)
  /-- VLOG2 (R340): Correctly rounded log2 x. -/
  | vlog2 (d : BitVec 5) (a : BitVec 5) (r : BitVec 3) (m : BitVec 3)
  /-- VRCP (R340): Correctly rounded reciprocal. -/
  | vrcp (d : BitVec 5) (a : BitVec 5) (r : BitVec 3) (m : BitVec 3)
  /-- VRSQRT (R340): Correctly rounded reciprocal square root. -/
  | vrsqrt (d : BitVec 5) (a : BitVec 5) (r : BitVec 3) (m : BitVec 3)
  /-- VMOV (R340): Copies bits and tag. -/
  | vmov (d : BitVec 5) (a : BitVec 5) (m : BitVec 3)
  /-- VADD_16 (R255): 16-bit lane form of vadd. -/
  | vadd16 (d : BitVec 5) (b : BitVec 5) (s : BitVec 1)
  /-- VSUB_16 (R255): 16-bit lane form of vsub. -/
  | vsub16 (d : BitVec 5) (b : BitVec 5) (s : BitVec 1)
  /-- VMUL_16 (R255): 16-bit lane form of vmul. -/
  | vmul16 (d : BitVec 5) (b : BitVec 5) (s : BitVec 1)
  /-- VMAX_16 (R255): 16-bit lane form of vmax. -/
  | vmax16 (d : BitVec 5) (b : BitVec 5) (s : BitVec 1)
  /-- VMIN_16 (R255): 16-bit lane form of vmin. -/
  | vmin16 (d : BitVec 5) (b : BitVec 5) (s : BitVec 1)
  /-- VABS_16 (R255): 16-bit lane form of vabs. -/
  | vabs16 (d : BitVec 5) (b : BitVec 5) (s : BitVec 1)
  /-- VNEG_16 (R255): 16-bit lane form of vneg. -/
  | vneg16 (d : BitVec 5) (b : BitVec 5) (s : BitVec 1)
  /-- VEXP2_16 (R255): 16-bit lane form of vexp2 with RNE. -/
  | vexp216 (d : BitVec 5) (b : BitVec 5) (s : BitVec 1)
  /-- VRCP_16 (R255): 16-bit lane form of vrcp with RNE. -/
  | vrcp16 (d : BitVec 5) (b : BitVec 5) (s : BitVec 1)
  /-- VRSQRT_16 (R255): 16-bit lane form of vrsqrt with RNE. -/
  | vrsqrt16 (d : BitVec 5) (b : BitVec 5) (s : BitVec 1)
  /-- VAND_16 (R255): 16-bit lane form of vand. -/
  | vand16 (d : BitVec 5) (b : BitVec 5) (s : BitVec 1)
  /-- VOR_16 (R255): 16-bit lane form of vor. -/
  | vor16 (d : BitVec 5) (b : BitVec 5) (s : BitVec 1)
  /-- VXOR_16 (R255): 16-bit lane form of vxor. -/
  | vxor16 (d : BitVec 5) (b : BitVec 5) (s : BitVec 1)
  /-- VSHL_16 (R255): 16-bit lane form of vshl. -/
  | vshl16 (d : BitVec 5) (b : BitVec 5) (s : BitVec 1)
  /-- VSHR_16 (R255): 16-bit lane form of vshr. -/
  | vshr16 (d : BitVec 5) (b : BitVec 5) (s : BitVec 1)
  /-- VMOV_16 (R255): 16-bit lane form of vmov. -/
  | vmov16 (d : BitVec 5) (b : BitVec 5) (s : BitVec 1)
  /-- VCMP (R341): Compares elements and writes a lane mask. -/
  | vcmp (d : BitVec 3) (a : BitVec 5) (b : BitVec 5) (m : BitVec 3) (c : BitVec 3)
  /-- VRED_ADD (R342): Tree sum of the elements into element 0. -/
  | vredAdd (d : BitVec 5) (a : BitVec 5) (m : BitVec 3)
  /-- VRED_MAX (R342): Tree maximum of the elements into element 0. -/
  | vredMax (d : BitVec 5) (a : BitVec 5) (m : BitVec 3)
  /-- VRED_MIN (R342): Tree minimum of the elements into element 0. -/
  | vredMin (d : BitVec 5) (a : BitVec 5) (m : BitVec 3)
  /-- VBCAST (R343): Broadcasts a scalar into every element with a tag. -/
  | vbcast (d : BitVec 5) (a : BitVec 5) (f : BitVec 4)
  /-- VIOTA (R343): Writes element index j into element j. -/
  | viota (d : BitVec 5) (f : BitVec 4)
  /-- VLANE (R344): Moves one element's bits to a general register. -/
  | vlane (d : BitVec 5) (a : BitVec 5) (i : BitVec 5) (j : BitVec 4)
  /-- VINS (R344): Inserts a general register into one element. -/
  | vins (d : BitVec 5) (a : BitVec 5) (i : BitVec 5) (j : BitVec 4)
  /-- VSCALE (R345): Applies E8M0 microscaling factors. -/
  | vscale (d : BitVec 5) (a : BitVec 5) (b : BitVec 5) (m : BitVec 3)
  /-- VROPE (R346): Rotates element pairs by a position delta. -/
  | vrope (d : BitVec 5) (a : BitVec 5) (b : BitVec 5) (m : BitVec 3)
  /-- VRNG (R347): Writes generator words into the lanes. -/
  | vrng (d : BitVec 5) (a : BitVec 5) (b : BitVec 5)
  /-- VCVT (R348): Converts or retags a vector register. -/
  | vcvt (d : BitVec 5) (a : BitVec 5) (t : BitVec 4) (s : BitVec 2) (m : BitVec 3) (o : BitVec 1) (r : BitVec 5)
  /-- VLD (R351): Loads 256 bytes into a vector register. -/
  | vld (d : BitVec 5) (a : BitVec 5) (f : BitVec 4) (m : BitVec 3)
  /-- VST (R351): Stores 256 bytes of a vector register. -/
  | vst (d : BitVec 5) (a : BitVec 5) (m : BitVec 3)
  /-- VLDS (R352): Strided element load. -/
  | vlds (d : BitVec 5) (a : BitVec 5) (b : BitVec 5) (f : BitVec 4) (m : BitVec 3)
  /-- VGATH (R353): Gathers units at indexed offsets. -/
  | vgath (d : BitVec 5) (a : BitVec 5) (b : BitVec 5) (f : BitVec 4) (m : BitVec 3)
  /-- VSCAT (R353): Scatters units to indexed offsets. -/
  | vscat (d : BitVec 5) (a : BitVec 5) (b : BitVec 5) (m : BitVec 3)
  /-- VLDT (R354): Loads an 8-row block transposed. -/
  | vldt (d : BitVec 5) (a : BitVec 5) (b : BitVec 5) (f : BitVec 4) (m : BitVec 3)
  /-- TLD (R359): Loads 16 KiB into a tile register. -/
  | tld (d : BitVec 4) (a : BitVec 5) (f : BitVec 4)
  /-- TLD_T (R359): Loads 16 KiB into a tile register transposed. -/
  | tldT (d : BitVec 4) (a : BitVec 5) (f : BitVec 4)
  /-- TST (R360): Stores a tile register's 16 KiB. -/
  | tst (d : BitVec 4) (a : BitVec 5)
  /-- MMA (R361): Accumulates A times B transposed into an accumulator. -/
  | mma (d : BitVec 2) (a : BitVec 4) (b : BitVec 4)
  /-- MMA_S (R361): Scaled matrix multiply-accumulate with block scales. -/
  | mmaS (d : BitVec 2) (a : BitVec 4) (b : BitVec 4) (k : BitVec 4)
  /-- AZERO (R362): Zeroes an accumulator. -/
  | azero (d : BitVec 2)
  /-- ALD (R362): Loads an accumulator from memory. -/
  | ald (d : BitVec 2) (a : BitVec 5)
  /-- AST (R362): Stores an accumulator to memory. -/
  | ast (d : BitVec 2) (a : BitVec 5)
  /-- AROW (R363): Reads 32 elements of an accumulator row into a vector register. -/
  | arow (d : BitVec 5) (a : BitVec 2) (b : BitVec 5)
  /-- CTX_BIND (R366): Binds a context to the issuing fibre or unbinds it. -/
  | ctxBind (a : BitVec 5)
  /-- FPUSH (R190): Pushes a new attention frame. -/
  | fpush (a : BitVec 5)
  /-- FARG (R190): Declares an argument span of the top frame. -/
  | farg (a : BitVec 5) (b : BitVec 5)
  /-- FPRO (R190): Declares the top frame's prologue length. -/
  | fpro (a : BitVec 5)
  /-- FPOP (R196): Pops the top frame, moving its result span into the caller. -/
  | fpop (a : BitVec 5) (b : BitVec 5)
  /-- FFORK (R202): Seals a context's frames and forks a child context. -/
  | ffork (d : BitVec 5) (a : BitVec 5)
  /-- FINFO (R367): Reads one word of context or fibre information. -/
  | finfo (d : BitVec 5) (a : BitVec 5) (s : BitVec 4)
  /-- KVAPP (R368): Appends one layer of key and value rows at a position. -/
  | kvapp (d : BitVec 5) (a : BitVec 5) (b : BitVec 5) (c : BitVec 4)
  /-- ATTN (R370): Runs attention over a context snapshot into state rows. -/
  | attn (a : BitVec 5) (b : BitVec 5) (c : BitVec 4)
  /-- ATTN_FIN (R373): Finishes an attention state row into output values. -/
  | attnFin (d : BitVec 5) (a : BitVec 5)
  /-- RNG (R379): Writes N generator words. -/
  | rng (d : BitVec 5) (a : BitVec 5)
  /-- TOPK (R381): Filters candidates and writes the kept set with weights. -/
  | topk (d : BitVec 5) (a : BitVec 5)
  /-- GMASK (R380): Applies a grammar mask to logits. -/
  | gmask (d : BitVec 5) (a : BitVec 5)
  /-- DRAW (R382): Filters logits and draws one token. -/
  | draw (d : BitVec 5) (a : BitVec 5)
  /-- DRAWV (R384): Two-stage draw of a cluster and then a token. -/
  | drawv (d : BitVec 5) (a : BitVec 5)
  /-- ACCEPT (R385): Tests a draft token or draws a bonus token. -/
  | accept (d : BitVec 5) (a : BitVec 5)
  /-- ROUTE (R386): Routes tokens to their top experts with messages. -/
  | route (d : BitVec 5) (a : BitVec 5) (c : BitVec 4)
  /-- CPY (R388): Copies bytes on the thread's copy channel. -/
  | cpy (d : BitVec 5) (a : BitVec 5) (b : BitVec 5)
  /-- CPY_T (R389): Copies bytes through a payload transform. -/
  | cpyT (d : BitVec 5) (a : BitVec 5) (b : BitVec 5)
  /-- CPY_MC (R390): Multicasts bytes to the scratchpads of a scope's tiles. -/
  | cpyMc (d : BitVec 5) (a : BitVec 5) (b : BitVec 5) (c : BitVec 4)
  /-- GATH (R391): Gathers remote elements into local memory. -/
  | gath (d : BitVec 5) (a : BitVec 5)
  /-- SCAT (R391): Scatters local elements to remote memory. -/
  | scat (d : BitVec 5) (a : BitVec 5)
  /-- COLL (R392): One member's part of a collective. -/
  | coll (a : BitVec 5) (c : BitVec 4)
  /-- RING (R393): One ring-attention step: forward and merge state rows. -/
  | ring (a : BitVec 5) (c : BitVec 4)
  /-- WPTR (R394): Reads a copy channel's write-pointer word. -/
  | wptr (d : BitVec 5) (h : BitVec 2)
  /-- PROMO (R395): Promotes blocks to RESIDENT or decodes ahead into use-once lines. -/
  | promo (d : BitVec 5) (a : BitVec 5) (b : BitVec 5) (k : BitVec 2)
  /-- EVICT (R396): Evicts the blocks of an interval. -/
  | evict (a : BitVec 5) (b : BitVec 5)
  /-- PIN (R397): Adds one to the pin count of each block of an interval. -/
  | pin (a : BitVec 5) (b : BitVec 5)
  /-- UNPIN (R397): Subtracts one from the pin count of each block of an interval. -/
  | unpin (a : BitVec 5) (b : BitVec 5)
  /-- RPROBE (R399): Looks up a translation without faulting. -/
  | rprobe (d : BitVec 5) (a : BitVec 5)
  /-- RSPLIT (R400): Splits a range at an address. -/
  | rsplit (a : BitVec 5)
  /-- RMERGE (R400): Merges two adjacent ranges. -/
  | rmerge (a : BitVec 5)
  /-- RINV (R402): Drops a range's copies from the scope's tiles and waits for their accesses. -/
  | rinv (a : BitVec 5) (c : BitVec 4)
  /-- RSET (R401): Sets, replaces or removes a range entry. -/
  | rset (a : BitVec 5)
  /-- RMOVE (R403): Moves a range's image to a new offset with forwarding. -/
  | rmove (a : BitVec 5) (b : BitVec 5) (c : BitVec 4)
  /-- RCOMPACT (R404): Asks a die's store room for a compaction. -/
  | rcompact (a : BitVec 5) (b : BitVec 5)
  /-- ERET (R407): Settles a fibre's pending fault with a disposition. -/
  | eret (a : BitVec 5) (b : BitVec 5)
  /-- SYSR (R408): Reads a system register. -/
  | sysr (d : BitVec 5) (n : BitVec 5) (m : BitVec 5)
  /-- SYSW (R408): Writes a system register. -/
  | sysw (d : BitVec 5) (n : BitVec 5) (m : BitVec 5)
  /-- CARVE (R410): Writes CARVE on a quiescent tile. -/
  | carve (a : BitVec 5)
  /-- WPSET (R411): Writes a watch pair at a home. -/
  | wpset (a : BitVec 5) (b : BitVec 5)
  /-- SSTEP (R412): Single-steps a suspended thread of a frozen region. -/
  | sstep (a : BitVec 5)
  /-- ACCESS_PERFORMED_AT_HOME (R160): An access that a thread issued to another home arrives there, is performed in home order, and is answered to its issuer. -/
  | accessPerformedAtHome (n : Nat)
  /-- FETCH_STOP (R254): An instruction fetch fails its translation or permission check or reads poison, and the activation stops with that cause. -/
  | fetchStop (cause : Cause) (addr : BitVec 64) (insn : BitVec 32)
  /-- NOT_AN_INSTRUCTION (R259): A fetched halfword 0x0000, or a word with a reserved major or an unassigned minor, stops the activation with ZERO_HALFWORD, RESERVED_MAJOR or RESERVED_MINOR. -/
  | notAnInstruction (cause : Cause) (insn : BitVec 32)
  /-- UNCORRECTABLE_ERROR (R26): A check-code error that cannot be corrected appears in an HBM line, cluster memory line or array unit and marks it poisoned. -/
  | uncorrectableError (place : ErrorPlace)
  /-- HOST_ACCESS_TIMEOUT (R149): The host does not answer a CXL access within its timeout, and the access is treated as reading a poisoned line, or a store is lost. -/
  | hostAccessTimeout (pa : BitVec 52)
  /-- POWER_ON (R31): Power is applied and bring-up begins at step 1. -/
  | powerOn
  /-- PCIE_CONVENTIONAL_RESET (R34): A PCIe conventional reset resets the whole module and reruns bring-up from step 1. -/
  | pcieConventionalReset
  /-- FUNCTION_LEVEL_RESET (R34): A PCIe function level reset resets the whole module and reruns bring-up from step 1. -/
  | functionLevelReset
  /-- ATTIC_KERNEL_VERIFY (R31): Bring-up step 2: the boot ROM verifies and starts the attic kernel, trying slot B if slot A fails. -/
  | atticKernelVerify
  /-- BOOT_IMAGE_LOAD (R31): Bring-up step 10 verifies and loads the tile boot image. -/
  | bootImageLoad
  /-- LINK_LOST (R27): A link that exhausts its 64 replay attempts makes the attic freeze every region and set FAILSTEP 0xF. -/
  | linkLost
  /-- THERMAL_THROTTLE (R56): Above the throttle temperature the attic lowers the tile and mesh clock by 100 MHz. -/
  | thermalThrottle
  /-- THERMAL_RECOVERY (R56): Below 95 deg C the attic raises the tile and mesh clock again. -/
  | thermalRecovery
  /-- STOP_TEMPERATURE (R56): At the stop temperature the attic freezes every region, sets FAILSTEP 0xE and powers down the compute dies. -/
  | stopTemperature
  /-- IDENT (R50): Mailbox command 0x01 returns serial number, stepping, versions, identity key and certificate chain. -/
  | ident
  /-- ATTEST (R39): Mailbox command 0x02 returns the signed attestation report over the host nonce. -/
  | attest
  /-- READBACK (R51): Mailbox command 0x03 returns the requested bytes of any device state without changing it. -/
  | readback
  /-- FREEZE (R218): Mailbox command 0x04 freezes a region's group and answers OK once the cut closes. -/
  | freeze
  /-- THAW (R222): Mailbox command 0x05 thaws a frozen region so that it runs again. -/
  | thaw
  /-- FWSTAGE (R38): Mailbox command 0x06 writes a chunk of a firmware image into the inactive slot. -/
  | fwstage
  /-- FWCOMMIT (R38): Mailbox command 0x07 verifies the staged image, marks it active and may raise the fused counter. -/
  | fwcommit
  /-- RESET (R34): Mailbox command 0x08 resets the whole module. -/
  | reset
  /-- LINKS (R50): Mailbox command 0x09 returns the domain, device numbers and port and route state. -/
  | links
  /-- MAILBOX_BADCMD (R50): A doorbell naming an unassigned command code is answered BADCMD. -/
  | mailboxBadcmd
  /-- RET (R292): Jumps to lk. -/
  | ret
  /-- NOP (R292): Does nothing. -/
  | nop
  /-- WFE (R308): Waits for and clears the event latch. -/
  | wfe
  /-- DONE (R322): Flushes sends and ends the activation, and the fibre if nothing is pending. -/
  | done
  /-- KEEP (R323): Keeps the activation's payload for the fibre's next activation. -/
  | keep
  /-- TRAP (R406): Stops with TRAP. -/
  | trap
  /-- HALT (R409): Suspends the activation and freezes its group. -/
  | halt
  /-- BKPT (R406): Stops with BREAKPOINT and freezes the group. -/
  | bkpt
  deriving DecidableEq, Repr

end Sys2Proof
end

