-- ==== Sys2Proof/WellFormed.lean ====
section
/-! DEFINITION. Which terms of `Instr` are well-formed. For an encoded instruction: the values that R258 and the
tables of R261 to R277 make reserved are excluded, so a well-formed instruction is one that passes steps 1 to 3 of
R259. For an event: the operands lie in the limits of the rule that the event follows. -/

namespace Sys2Proof

/-- The well-formed instructions and events. A g+ field must hold 0 to 30 (R258). -/
def Instr.wf : Instr → Bool
  | .powerOn => true
  | .pcieConventionalReset => true
  | .functionLevelReset => true
  | .fuseLoad _ => true
  | .atticKernelVerify => true
  | .clockCalibration _ => true
  | .sramRepair _ => true
  | .linkCalibration _ => true
  | .hbmTraining _ => true
  | .portEqualisation _ _ _ => true
  | .hbmZeroing _ => true
  | .sramZeroing _ => true
  | .bootImageLoad => true
  | .linkLost => true
  | .portFailure _ => true
  -- device numbers are 0 to 254 (R29)
  | .linkDomainFormation n _ l => n ≠ 0xFF && l.all fun r => r.device ≠ 0xFF
  -- at most 200 parts per million (R53)
  | .timeSync _ ppm _ => -200 ≤ ppm && ppm ≤ 200
  | .driveFailure _ => true
  | .thermalThrottle => true
  | .thermalRecovery => true
  | .stopTemperature => true
  -- the write lies in the window (R41)
  | .hostMessage off data => off.toNat + data.length ≤ 65536
  | .hostMessageTimeout _ => true
  | .hostHdmAccess _ _ _ => true
  -- the write lies in BAR0 (R41)
  | .registerWrite off data => off.toNat + data.length ≤ 131072
  | .gangArm _ => true
  | .gangCancel _ => true
  | .gangFire _ => true
  | .ident => true
  | .attest => true
  | .readback => true
  | .freeze => true
  | .thaw => true
  | .fwstage => true
  | .fwcommit => true
  | .reset => true
  | .links => true
  | .mailboxBadcmd => true
  | .regionLoad _ => true
  | .regionUnload _ => true
  | .regionSwitchOut _ => true
  | .regionSwitchIn _ => true
  | .threadDispatch _ => true
  | .queueSpill _ => true
  | .queueRefill _ => true
  | .steal _ => true
  | .watchdog _ _ => true
  | .messageArrival _ => true
  | .decrementArrival _ => true
  | .fibreReclaim _ _ => true
  | .engineCommandStart _ _ => true
  | .engineCommandFinish _ _ => true
  | .tableWalk _ _ _ => true
  | .blockFetchComplete _ _ _ => true
  | .writeBackComplete _ _ => true
  | .moveStep _ => true
  | .forwardRecordRemoval _ => true
  | .compaction _ _ => true
  | .borrow _ => true
  | .batchReturn _ _ => true
  | .rangeRelease _ => true
  | .scopeDrain _ _ => true
  | .barrierWake _ _ => true
  | .pauseExpiry _ _ => true
  | .tileStop _ _ => true
  | .cutClose _ => true
  | .rgnctlFreeze _ _ => true
  | .rgnctlThaw _ _ => true
  | .hostSignal _ => true
  | .add _ _ _ => true
  | .sub _ _ _ => true
  | .and _ _ _ => true
  | .or _ _ _ => true
  | .xor _ _ _ => true
  | .shl _ _ _ => true
  | .shr _ _ _ => true
  | .sra _ _ _ => true
  | .mul _ _ _ => true
  | .mulh _ _ _ => true
  | .mulhu _ _ _ => true
  | .div _ _ _ => true
  | .divu _ _ _ => true
  | .rem _ _ _ => true
  | .remu _ _ _ => true
  | .min _ _ _ => true
  | .max _ _ _ => true
  | .minu _ _ _ => true
  | .maxu _ _ _ => true
  | .clz _ _ => true
  | .ctz _ _ => true
  | .pop _ _ => true
  | .ext _ _ _ => true
  | .ins _ _ _ => true
  | .sel _ _ _ _ => true
  | .addi _ _ _ => true
  | .andi _ _ _ => true
  | .ori _ _ _ => true
  | .xori _ _ _ => true
  | .shli _ _ _ => true
  | .shri _ _ _ => true
  | .srai _ _ _ => true
  | .li _ _ => true
  | .lih _ _ => true
  | .addpc _ _ => true
  -- the conditions are 0 to 9 (R263)
  | .cmp _ _ _ c => c.toNat < 10
  -- conditions 10 to 15 are reserved (R263)
  | .cmpi _ _ c _ => c.toNat < 10
  | .pand _ _ _ => true
  | .por _ _ _ => true
  | .pxor _ _ _ => true
  | .pnot _ _ => true
  | .b _ _ _ => true
  | .j _ => true
  | .call _ => true
  | .jr _ => true
  | .callr _ => true
  | .ret => true
  | .nop => true
  | .loop _ _ => true
  | .bz _ _ => true
  | .bnz _ _ => true
  | .ld _ _ _ _ => true
  | .st _ _ _ _ => true
  | .ldAcq _ _ _ _ _ => true
  | .stRel _ _ _ _ _ => true
  | .ldVol _ _ _ _ => true
  | .stVol _ _ _ _ => true
  | .pref _ _ => true
  -- the operations are 0 to 8 (R266)
  | .amoW _ _ _ _ o => o.toNat < 9
  -- the operations are 0 to 8 (R266)
  | .amoD _ _ _ _ o => o.toNat < 9
  | .amoFFp32 _ _ _ _ => true
  | .amoFBf16 _ _ _ _ => true
  | .cas _ _ _ _ _ => true
  | .fence _ => true
  | .barInit _ _ _ => true
  | .barArrive _ _ _ => true
  | .barWait _ _ _ => true
  | .wfe => true
  | .sev _ => true
  | .tlwait _ _ => true
  | .tlread _ _ => true
  -- indices 2 to 13 (R267)
  | .scopeSet _ c => 2 ≤ c.toNat && c.toNat ≤ 13
  | .scopeGet _ _ => true
  -- indices 2 to 13 (R267)
  | .scopeRetire c => 2 ≤ c.toNat && c.toNat ≤ 13
  | .pause _ => true
  -- the second register of the pair exists (R258)
  | .send d _ _ _ => d.toNat < 31
  -- the second register of the pair exists (R258)
  | .sendT d _ bb _ => d.toNat < 31 && bb.toNat < 31
  | .done => true
  -- the second register of the pair exists (R258)
  | .fibNew _ a _ => a.toNat < 31
  -- the second register of the pair exists (R258)
  | .spawn _ a => a.toNat < 31
  -- the second register of the pair exists (R258)
  | .spawnG _ a bb _ => a.toNat < 31 && bb.toNat < 31
  | .fibDec _ _ _ => true
  | .fref _ _ => true
  | .fdrop _ => true
  | .fconfirm _ => true
  | .fput _ _ _ => true
  | .fget _ _ => true
  | .fon _ _ => true
  | .keep => true
  | .vadd _ _ _ _ => true
  | .vsub _ _ _ _ => true
  | .vmul _ _ _ _ => true
  | .vmax _ _ _ _ => true
  | .vmin _ _ _ _ => true
  | .vand _ _ _ _ => true
  | .vor _ _ _ _ => true
  | .vxor _ _ _ _ => true
  | .vshl _ _ _ _ => true
  | .vshr _ _ _ _ => true
  | .vfma _ _ _ _ => true
  | .vsel _ _ _ _ => true
  | .vperm _ _ _ _ => true
  | .vabs _ _ _ => true
  | .vneg _ _ _ => true
  -- mode 4 has no random source on this major (R340)
  | .vexp2 _ _ r _ => r.toNat ≠ 4
  -- mode 4 has no random source on this major (R340)
  | .vlog2 _ _ r _ => r.toNat ≠ 4
  -- mode 4 has no random source on this major (R340)
  | .vrcp _ _ r _ => r.toNat ≠ 4
  -- mode 4 has no random source on this major (R340)
  | .vrsqrt _ _ r _ => r.toNat ≠ 4
  | .vmov _ _ _ => true
  -- the halfword 0 is no instruction (R256)
  | .vadd16 vd vb s => vd.toNat ≠ 0 || vb.toNat ≠ 0 || s.toNat ≠ 0
  | .vsub16 _ _ _ => true
  | .vmul16 _ _ _ => true
  | .vmax16 _ _ _ => true
  | .vmin16 _ _ _ => true
  | .vabs16 _ _ _ => true
  | .vneg16 _ _ _ => true
  | .vexp216 _ _ _ => true
  | .vrcp16 _ _ _ => true
  | .vrsqrt16 _ _ _ => true
  | .vand16 _ _ _ => true
  | .vor16 _ _ _ => true
  | .vxor16 _ _ _ => true
  | .vshl16 _ _ _ => true
  | .vshr16 _ _ _ => true
  | .vmov16 _ _ _ => true
  -- `m0` is no destination, and the conditions are 0 to 5 (R269)
  | .vcmp d _ _ _ c => d.toNat ≠ 0 && c.toNat < 6
  | .vredAdd _ _ _ => true
  | .vredMax _ _ _ => true
  | .vredMin _ _ _ => true
  | .vbcast _ _ _ => true
  | .viota _ _ => true
  | .vlane _ _ _ _ => true
  | .vins _ _ _ _ => true
  | .vscale _ _ _ _ => true
  | .vrope _ _ _ _ => true
  | .vrng _ _ _ => true
  -- the random source is reserved unless the mode is SR (R270)
  | .vcvt _ _ _ _ m _ r => m.toNat = 4 || r.toNat = 0
  | .vld _ _ _ _ => true
  | .vst _ _ _ => true
  | .vlds _ _ _ _ _ => true
  | .vgath _ _ _ _ _ => true
  | .vscat _ _ _ _ => true
  | .vldt _ _ _ _ _ => true
  | .tld _ _ _ => true
  | .tldT _ _ _ => true
  | .tst _ _ => true
  | .mma _ _ _ => true
  | .mmaS _ _ _ _ => true
  | .azero _ => true
  | .ald _ _ => true
  | .ast _ _ => true
  | .arow _ _ _ => true
  | .ctxBind _ => true
  | .fpush _ => true
  -- the second register of the pair exists (R258)
  | .farg _ bb => bb.toNat < 31
  | .fpro _ => true
  -- the second register of the pair exists (R258)
  | .fpop _ bb => bb.toNat < 31
  | .ffork _ _ => true
  -- selectors 10 to 15 are reserved, and 7 to 9 take no a (R367)
  | .finfo _ a s => s.toNat < 7 || (s.toNat < 10 && a.toNat = 0)
  -- the second register of the pair exists (R258)
  | .kvapp d _ bb _ => d.toNat < 31 && bb.toNat < 31
  | .attn _ _ _ => true
  | .attnFin _ _ => true
  | .rng _ _ => true
  | .topk _ _ => true
  | .gmask _ _ => true
  | .draw _ _ => true
  | .drawv _ _ => true
  | .accept _ _ => true
  | .route _ _ _ => true
  | .cpy _ _ _ => true
  -- the second register of the pair exists (R258)
  | .cpyT _ _ bb => bb.toNat < 31
  | .cpyMc _ _ _ _ => true
  | .gath _ _ => true
  | .scat _ _ => true
  | .coll _ _ => true
  | .ring _ _ => true
  | .wptr _ _ => true
  -- d is reserved for kind 0 (R275)
  | .promo d _ _ k => k.toNat ≠ 0 || d.toNat = 0
  | .evict _ _ => true
  | .pin _ _ => true
  | .unpin _ _ => true
  | .rprobe _ _ => true
  | .rsplit _ => true
  | .rmerge _ => true
  | .rinv _ _ => true
  | .rset _ => true
  | .rmove _ _ _ => true
  | .rcompact _ _ => true
  | .trap => true
  | .eret _ _ => true
  | .sysr _ _ _ => true
  | .sysw _ _ _ => true
  | .halt => true
  | .carve _ => true
  | .bkpt => true
  | .wpset _ _ => true
  | .sstep _ => true
  | .accessPerformedAtHome _ => true
  -- a cause that a fetch can meet (R254)
  | .fetchStop cause _ _ => cause = .rangeNone || cause = .privateOwner || cause = .permExec || cause = .poison || cause = .treeMalformed || cause = .partialResidency
  -- a cause of R259 steps 1 to 3
  | .notAnInstruction cause _ => cause = .zeroHalfword || cause = .reservedMajor || cause = .reservedMinor || cause = .reservedField
  | .uncorrectableError _ => true
  | .hostAccessTimeout _ => true

/-- The bytes an instruction occupies: 2 for the lane form, 4 for a 32-bit word (R253), 0 for an event. -/
def Instr.size : Instr → Nat
  | .powerOn => 0
  | .pcieConventionalReset => 0
  | .functionLevelReset => 0
  | .fuseLoad _ => 0
  | .atticKernelVerify => 0
  | .clockCalibration _ => 0
  | .sramRepair _ => 0
  | .linkCalibration _ => 0
  | .hbmTraining _ => 0
  | .portEqualisation _ _ _ => 0
  | .hbmZeroing _ => 0
  | .sramZeroing _ => 0
  | .bootImageLoad => 0
  | .linkLost => 0
  | .portFailure _ => 0
  | .linkDomainFormation _ _ _ => 0
  | .timeSync _ _ _ => 0
  | .driveFailure _ => 0
  | .thermalThrottle => 0
  | .thermalRecovery => 0
  | .stopTemperature => 0
  | .hostMessage _ _ => 0
  | .hostMessageTimeout _ => 0
  | .hostHdmAccess _ _ _ => 0
  | .registerWrite _ _ => 0
  | .gangArm _ => 0
  | .gangCancel _ => 0
  | .gangFire _ => 0
  | .ident => 0
  | .attest => 0
  | .readback => 0
  | .freeze => 0
  | .thaw => 0
  | .fwstage => 0
  | .fwcommit => 0
  | .reset => 0
  | .links => 0
  | .mailboxBadcmd => 0
  | .regionLoad _ => 0
  | .regionUnload _ => 0
  | .regionSwitchOut _ => 0
  | .regionSwitchIn _ => 0
  | .threadDispatch _ => 0
  | .queueSpill _ => 0
  | .queueRefill _ => 0
  | .steal _ => 0
  | .watchdog _ _ => 0
  | .messageArrival _ => 0
  | .decrementArrival _ => 0
  | .fibreReclaim _ _ => 0
  | .engineCommandStart _ _ => 0
  | .engineCommandFinish _ _ => 0
  | .tableWalk _ _ _ => 0
  | .blockFetchComplete _ _ _ => 0
  | .writeBackComplete _ _ => 0
  | .moveStep _ => 0
  | .forwardRecordRemoval _ => 0
  | .compaction _ _ => 0
  | .borrow _ => 0
  | .batchReturn _ _ => 0
  | .rangeRelease _ => 0
  | .scopeDrain _ _ => 0
  | .barrierWake _ _ => 0
  | .pauseExpiry _ _ => 0
  | .tileStop _ _ => 0
  | .cutClose _ => 0
  | .rgnctlFreeze _ _ => 0
  | .rgnctlThaw _ _ => 0
  | .hostSignal _ => 0
  | .add _ _ _ => 4
  | .sub _ _ _ => 4
  | .and _ _ _ => 4
  | .or _ _ _ => 4
  | .xor _ _ _ => 4
  | .shl _ _ _ => 4
  | .shr _ _ _ => 4
  | .sra _ _ _ => 4
  | .mul _ _ _ => 4
  | .mulh _ _ _ => 4
  | .mulhu _ _ _ => 4
  | .div _ _ _ => 4
  | .divu _ _ _ => 4
  | .rem _ _ _ => 4
  | .remu _ _ _ => 4
  | .min _ _ _ => 4
  | .max _ _ _ => 4
  | .minu _ _ _ => 4
  | .maxu _ _ _ => 4
  | .clz _ _ => 4
  | .ctz _ _ => 4
  | .pop _ _ => 4
  | .ext _ _ _ => 4
  | .ins _ _ _ => 4
  | .sel _ _ _ _ => 4
  | .addi _ _ _ => 4
  | .andi _ _ _ => 4
  | .ori _ _ _ => 4
  | .xori _ _ _ => 4
  | .shli _ _ _ => 4
  | .shri _ _ _ => 4
  | .srai _ _ _ => 4
  | .li _ _ => 4
  | .lih _ _ => 4
  | .addpc _ _ => 4
  | .cmp _ _ _ _ => 4
  | .cmpi _ _ _ _ => 4
  | .pand _ _ _ => 4
  | .por _ _ _ => 4
  | .pxor _ _ _ => 4
  | .pnot _ _ => 4
  | .b _ _ _ => 4
  | .j _ => 4
  | .call _ => 4
  | .jr _ => 4
  | .callr _ => 4
  | .ret => 4
  | .nop => 4
  | .loop _ _ => 4
  | .bz _ _ => 4
  | .bnz _ _ => 4
  | .ld _ _ _ _ => 4
  | .st _ _ _ _ => 4
  | .ldAcq _ _ _ _ _ => 4
  | .stRel _ _ _ _ _ => 4
  | .ldVol _ _ _ _ => 4
  | .stVol _ _ _ _ => 4
  | .pref _ _ => 4
  | .amoW _ _ _ _ _ => 4
  | .amoD _ _ _ _ _ => 4
  | .amoFFp32 _ _ _ _ => 4
  | .amoFBf16 _ _ _ _ => 4
  | .cas _ _ _ _ _ => 4
  | .fence _ => 4
  | .barInit _ _ _ => 4
  | .barArrive _ _ _ => 4
  | .barWait _ _ _ => 4
  | .wfe => 4
  | .sev _ => 4
  | .tlwait _ _ => 4
  | .tlread _ _ => 4
  | .scopeSet _ _ => 4
  | .scopeGet _ _ => 4
  | .scopeRetire _ => 4
  | .pause _ => 4
  | .send _ _ _ _ => 4
  | .sendT _ _ _ _ => 4
  | .done => 4
  | .fibNew _ _ _ => 4
  | .spawn _ _ => 4
  | .spawnG _ _ _ _ => 4
  | .fibDec _ _ _ => 4
  | .fref _ _ => 4
  | .fdrop _ => 4
  | .fconfirm _ => 4
  | .fput _ _ _ => 4
  | .fget _ _ => 4
  | .fon _ _ => 4
  | .keep => 4
  | .vadd _ _ _ _ => 4
  | .vsub _ _ _ _ => 4
  | .vmul _ _ _ _ => 4
  | .vmax _ _ _ _ => 4
  | .vmin _ _ _ _ => 4
  | .vand _ _ _ _ => 4
  | .vor _ _ _ _ => 4
  | .vxor _ _ _ _ => 4
  | .vshl _ _ _ _ => 4
  | .vshr _ _ _ _ => 4
  | .vfma _ _ _ _ => 4
  | .vsel _ _ _ _ => 4
  | .vperm _ _ _ _ => 4
  | .vabs _ _ _ => 4
  | .vneg _ _ _ => 4
  | .vexp2 _ _ _ _ => 4
  | .vlog2 _ _ _ _ => 4
  | .vrcp _ _ _ _ => 4
  | .vrsqrt _ _ _ _ => 4
  | .vmov _ _ _ => 4
  | .vadd16 _ _ _ => 2
  | .vsub16 _ _ _ => 2
  | .vmul16 _ _ _ => 2
  | .vmax16 _ _ _ => 2
  | .vmin16 _ _ _ => 2
  | .vabs16 _ _ _ => 2
  | .vneg16 _ _ _ => 2
  | .vexp216 _ _ _ => 2
  | .vrcp16 _ _ _ => 2
  | .vrsqrt16 _ _ _ => 2
  | .vand16 _ _ _ => 2
  | .vor16 _ _ _ => 2
  | .vxor16 _ _ _ => 2
  | .vshl16 _ _ _ => 2
  | .vshr16 _ _ _ => 2
  | .vmov16 _ _ _ => 2
  | .vcmp _ _ _ _ _ => 4
  | .vredAdd _ _ _ => 4
  | .vredMax _ _ _ => 4
  | .vredMin _ _ _ => 4
  | .vbcast _ _ _ => 4
  | .viota _ _ => 4
  | .vlane _ _ _ _ => 4
  | .vins _ _ _ _ => 4
  | .vscale _ _ _ _ => 4
  | .vrope _ _ _ _ => 4
  | .vrng _ _ _ => 4
  | .vcvt _ _ _ _ _ _ _ => 4
  | .vld _ _ _ _ => 4
  | .vst _ _ _ => 4
  | .vlds _ _ _ _ _ => 4
  | .vgath _ _ _ _ _ => 4
  | .vscat _ _ _ _ => 4
  | .vldt _ _ _ _ _ => 4
  | .tld _ _ _ => 4
  | .tldT _ _ _ => 4
  | .tst _ _ => 4
  | .mma _ _ _ => 4
  | .mmaS _ _ _ _ => 4
  | .azero _ => 4
  | .ald _ _ => 4
  | .ast _ _ => 4
  | .arow _ _ _ => 4
  | .ctxBind _ => 4
  | .fpush _ => 4
  | .farg _ _ => 4
  | .fpro _ => 4
  | .fpop _ _ => 4
  | .ffork _ _ => 4
  | .finfo _ _ _ => 4
  | .kvapp _ _ _ _ => 4
  | .attn _ _ _ => 4
  | .attnFin _ _ => 4
  | .rng _ _ => 4
  | .topk _ _ => 4
  | .gmask _ _ => 4
  | .draw _ _ => 4
  | .drawv _ _ => 4
  | .accept _ _ => 4
  | .route _ _ _ => 4
  | .cpy _ _ _ => 4
  | .cpyT _ _ _ => 4
  | .cpyMc _ _ _ _ => 4
  | .gath _ _ => 4
  | .scat _ _ => 4
  | .coll _ _ => 4
  | .ring _ _ => 4
  | .wptr _ _ => 4
  | .promo _ _ _ _ => 4
  | .evict _ _ => 4
  | .pin _ _ => 4
  | .unpin _ _ => 4
  | .rprobe _ _ => 4
  | .rsplit _ => 4
  | .rmerge _ => 4
  | .rinv _ _ => 4
  | .rset _ => 4
  | .rmove _ _ _ => 4
  | .rcompact _ _ => 4
  | .trap => 4
  | .eret _ _ => 4
  | .sysr _ _ _ => 4
  | .sysw _ _ _ => 4
  | .halt => 4
  | .carve _ => 4
  | .bkpt => 4
  | .wpset _ _ => 4
  | .sstep _ => 4
  | .accessPerformedAtHome _ => 0
  | .fetchStop _ _ _ => 0
  | .notAnInstruction _ _ => 0
  | .uncorrectableError _ => 0
  | .hostAccessTimeout _ => 0

end Sys2Proof
end

