-- ==== Sys2Proof/Decode.lean ====
section
/-! DEFINITION. The decoder of the Marolmano (R253 to R277), total on any bytes and rejecting by name; the reading
of an instruction whose bits are numbered as spec/opcode_table.json numbers them; and the encoder, written from the
same tables. -/

namespace Sys2Proof

/-- Why a bit pattern is no instruction: R256, and steps 1 to 3 of R259. `truncated` says that fewer bytes were
given than the length bit of R253 asks for; no fetch of the machine meets it. -/
inductive Bad where
  | zeroHalfword | reservedMajor | reservedMinor | reservedField | truncated
  deriving DecidableEq, Repr

/-- The n bits of w from bit lo upward, as a number. -/
def nf (w lo n : Nat) : Nat := w / 2 ^ lo % 2 ^ n

/-- The n bits of w from bit lo upward, as a field. -/
def bf (w lo n : Nat) : BitVec n := BitVec.ofNat n (w / 2 ^ lo)

/-- Step 3 of R259: the reserved bits are zero and no field holds a reserved value. -/
def accept (reservedZero : Bool) (i : Instr) : Except Bad Instr :=
  if reservedZero && i.wf then .ok i else .error .reservedField

/-- The 16-bit lane form (R255, R256). -/
def decode16 (w : Nat) : Except Bad Instr :=
  if w % 2 ^ 16 = 0 then .error .zeroHalfword
  else match nf w 12 4 with
    | 0 => .ok (.vadd16 (bf w 7 5) (bf w 2 5) (bf w 1 1))
    | 1 => .ok (.vsub16 (bf w 7 5) (bf w 2 5) (bf w 1 1))
    | 2 => .ok (.vmul16 (bf w 7 5) (bf w 2 5) (bf w 1 1))
    | 3 => .ok (.vmax16 (bf w 7 5) (bf w 2 5) (bf w 1 1))
    | 4 => .ok (.vmin16 (bf w 7 5) (bf w 2 5) (bf w 1 1))
    | 5 => .ok (.vabs16 (bf w 7 5) (bf w 2 5) (bf w 1 1))
    | 6 => .ok (.vneg16 (bf w 7 5) (bf w 2 5) (bf w 1 1))
    | 7 => .ok (.vexp216 (bf w 7 5) (bf w 2 5) (bf w 1 1))
    | 8 => .ok (.vrcp16 (bf w 7 5) (bf w 2 5) (bf w 1 1))
    | 9 => .ok (.vrsqrt16 (bf w 7 5) (bf w 2 5) (bf w 1 1))
    | 10 => .ok (.vand16 (bf w 7 5) (bf w 2 5) (bf w 1 1))
    | 11 => .ok (.vor16 (bf w 7 5) (bf w 2 5) (bf w 1 1))
    | 12 => .ok (.vxor16 (bf w 7 5) (bf w 2 5) (bf w 1 1))
    | 13 => .ok (.vshl16 (bf w 7 5) (bf w 2 5) (bf w 1 1))
    | 14 => .ok (.vshr16 (bf w 7 5) (bf w 2 5) (bf w 1 1))
    | _ => .ok (.vmov16 (bf w 7 5) (bf w 2 5) (bf w 1 1))

/-- Major 0x01. -/
def major01 (w : Nat) : Except Bad Instr :=
  match nf w 1 6 with
  | 0x00 => accept (nf w 7 4 == 0) (.add (bf w 21 5) (bf w 16 5) (bf w 11 5))
  | 0x01 => accept (nf w 7 4 == 0) (.sub (bf w 21 5) (bf w 16 5) (bf w 11 5))
  | 0x02 => accept (nf w 7 4 == 0) (.and (bf w 21 5) (bf w 16 5) (bf w 11 5))
  | 0x03 => accept (nf w 7 4 == 0) (.or (bf w 21 5) (bf w 16 5) (bf w 11 5))
  | 0x04 => accept (nf w 7 4 == 0) (.xor (bf w 21 5) (bf w 16 5) (bf w 11 5))
  | 0x05 => accept (nf w 7 4 == 0) (.shl (bf w 21 5) (bf w 16 5) (bf w 11 5))
  | 0x06 => accept (nf w 7 4 == 0) (.shr (bf w 21 5) (bf w 16 5) (bf w 11 5))
  | 0x07 => accept (nf w 7 4 == 0) (.sra (bf w 21 5) (bf w 16 5) (bf w 11 5))
  | 0x08 => accept (nf w 7 4 == 0) (.mul (bf w 21 5) (bf w 16 5) (bf w 11 5))
  | 0x09 => accept (nf w 7 4 == 0) (.mulh (bf w 21 5) (bf w 16 5) (bf w 11 5))
  | 0x0A => accept (nf w 7 4 == 0) (.mulhu (bf w 21 5) (bf w 16 5) (bf w 11 5))
  | 0x0B => accept (nf w 7 4 == 0) (.div (bf w 21 5) (bf w 16 5) (bf w 11 5))
  | 0x0C => accept (nf w 7 4 == 0) (.divu (bf w 21 5) (bf w 16 5) (bf w 11 5))
  | 0x0D => accept (nf w 7 4 == 0) (.rem (bf w 21 5) (bf w 16 5) (bf w 11 5))
  | 0x0E => accept (nf w 7 4 == 0) (.remu (bf w 21 5) (bf w 16 5) (bf w 11 5))
  | 0x0F => accept (nf w 7 4 == 0) (.min (bf w 21 5) (bf w 16 5) (bf w 11 5))
  | 0x10 => accept (nf w 7 4 == 0) (.max (bf w 21 5) (bf w 16 5) (bf w 11 5))
  | 0x11 => accept (nf w 7 4 == 0) (.minu (bf w 21 5) (bf w 16 5) (bf w 11 5))
  | 0x12 => accept (nf w 7 4 == 0) (.maxu (bf w 21 5) (bf w 16 5) (bf w 11 5))
  | 0x13 => accept (nf w 7 9 == 0) (.clz (bf w 21 5) (bf w 16 5))
  | 0x14 => accept (nf w 7 9 == 0) (.ctz (bf w 21 5) (bf w 16 5))
  | 0x15 => accept (nf w 7 9 == 0) (.pop (bf w 21 5) (bf w 16 5))
  | 0x16 => accept (nf w 7 4 == 0) (.ext (bf w 21 5) (bf w 16 5) (bf w 11 5))
  | 0x17 => accept (nf w 7 4 == 0) (.ins (bf w 21 5) (bf w 16 5) (bf w 11 5))
  | 0x18 => accept (nf w 10 1 == 0) (.sel (bf w 21 5) (bf w 16 5) (bf w 11 5) (bf w 7 3))
  | _ => .error .reservedMinor

/-- Major 0x02. -/
def major02 (w : Nat) : Except Bad Instr :=
  accept (true) (.addi (bf w 21 5) (bf w 16 5) (bf w 1 15))

/-- Major 0x03. -/
def major03 (w : Nat) : Except Bad Instr :=
  accept (true) (.andi (bf w 21 5) (bf w 16 5) (bf w 1 15))

/-- Major 0x04. -/
def major04 (w : Nat) : Except Bad Instr :=
  accept (true) (.ori (bf w 21 5) (bf w 16 5) (bf w 1 15))

/-- Major 0x05. -/
def major05 (w : Nat) : Except Bad Instr :=
  accept (true) (.xori (bf w 21 5) (bf w 16 5) (bf w 1 15))

/-- Major 0x06. -/
def major06 (w : Nat) : Except Bad Instr :=
  match nf w 14 2 with
  | 0 => accept (nf w 7 7 == 0) (.shli (bf w 21 5) (bf w 16 5) (bf w 1 6))
  | 1 => accept (nf w 7 7 == 0) (.shri (bf w 21 5) (bf w 16 5) (bf w 1 6))
  | 2 => accept (nf w 7 7 == 0) (.srai (bf w 21 5) (bf w 16 5) (bf w 1 6))
  | _ => .error .reservedField

/-- Major 0x07. -/
def major07 (w : Nat) : Except Bad Instr :=
  accept (true) (.li (bf w 21 5) (bf w 1 20))

/-- Major 0x08. -/
def major08 (w : Nat) : Except Bad Instr :=
  accept (true) (.lih (bf w 21 5) (bf w 1 20))

/-- Major 0x09. -/
def major09 (w : Nat) : Except Bad Instr :=
  accept (true) (.addpc (bf w 21 5) (bf w 1 20))

/-- Major 0x0A. -/
def major0A (w : Nat) : Except Bad Instr :=
  if nf w 1 6 < 10 then accept (nf w 7 4 == 0 && nf w 24 2 == 0) (.cmp (bf w 21 3) (bf w 16 5) (bf w 11 5) (bf w 1 6)) else .error .reservedMinor

/-- Major 0x0B. -/
def major0B (w : Nat) : Except Bad Instr :=
  accept (nf w 24 2 == 0) (.cmpi (bf w 21 3) (bf w 16 5) (bf w 12 4) (bf w 1 11))

/-- Major 0x0C. -/
def major0C (w : Nat) : Except Bad Instr :=
  match nf w 1 6 with
  | 0x00 => accept (nf w 7 4 == 0 && nf w 14 2 == 0 && nf w 19 2 == 0 && nf w 24 2 == 0) (.pand (bf w 21 3) (bf w 16 3) (bf w 11 3))
  | 0x01 => accept (nf w 7 4 == 0 && nf w 14 2 == 0 && nf w 19 2 == 0 && nf w 24 2 == 0) (.por (bf w 21 3) (bf w 16 3) (bf w 11 3))
  | 0x02 => accept (nf w 7 4 == 0 && nf w 14 2 == 0 && nf w 19 2 == 0 && nf w 24 2 == 0) (.pxor (bf w 21 3) (bf w 16 3) (bf w 11 3))
  | 0x03 => accept (nf w 7 9 == 0 && nf w 19 2 == 0 && nf w 24 2 == 0) (.pnot (bf w 21 3) (bf w 16 3))
  | _ => .error .reservedMinor

/-- Major 0x10. -/
def major10 (w : Nat) : Except Bad Instr :=
  accept (true) (.b (bf w 23 3) (bf w 22 1) (bf w 1 21))

/-- Major 0x11. -/
def major11 (w : Nat) : Except Bad Instr :=
  accept (true) (.j (bf w 1 25))

/-- Major 0x12. -/
def major12 (w : Nat) : Except Bad Instr :=
  accept (true) (.call (bf w 1 25))

/-- Major 0x13. -/
def major13 (w : Nat) : Except Bad Instr :=
  match nf w 1 6 with
  | 0x00 => accept (nf w 7 9 == 0 && nf w 21 5 == 0) (.jr (bf w 16 5))
  | 0x01 => accept (nf w 7 9 == 0 && nf w 21 5 == 0) (.callr (bf w 16 5))
  | 0x02 => accept (nf w 7 19 == 0) (.ret)
  | 0x03 => accept (nf w 7 19 == 0) (.nop)
  | _ => .error .reservedMinor

/-- Major 0x14. -/
def major14 (w : Nat) : Except Bad Instr :=
  match nf w 19 2 with
  | 0 => accept (true) (.loop (bf w 21 5) (bf w 1 18))
  | 1 => accept (true) (.bz (bf w 21 5) (bf w 1 18))
  | 2 => accept (true) (.bnz (bf w 21 5) (bf w 1 18))
  | _ => .error .reservedField

/-- Major 0x18. -/
def major18 (w : Nat) : Except Bad Instr :=
  accept (nf w 9 4 == 0 && nf w 15 1 == 0) (.ld (bf w 21 5) (bf w 16 5) (bf w 13 2) (bf w 1 8))

/-- Major 0x19. -/
def major19 (w : Nat) : Except Bad Instr :=
  accept (nf w 9 4 == 0 && nf w 15 1 == 0) (.st (bf w 21 5) (bf w 16 5) (bf w 13 2) (bf w 1 8))

/-- Major 0x1A. -/
def major1A (w : Nat) : Except Bad Instr :=
  if nf w 15 1 = 0 then accept (true) (.ldAcq (bf w 21 5) (bf w 16 5) (bf w 13 2) (bf w 9 4) (bf w 1 8))
  else accept (true) (.stRel (bf w 21 5) (bf w 16 5) (bf w 13 2) (bf w 9 4) (bf w 1 8))

/-- Major 0x1B. -/
def major1B (w : Nat) : Except Bad Instr :=
  if nf w 15 1 = 0 then accept (nf w 9 4 == 0) (.ldVol (bf w 21 5) (bf w 16 5) (bf w 13 2) (bf w 1 8))
  else accept (nf w 9 4 == 0) (.stVol (bf w 21 5) (bf w 16 5) (bf w 13 2) (bf w 1 8))

/-- Major 0x1C. -/
def major1C (w : Nat) : Except Bad Instr :=
  accept (nf w 9 7 == 0 && nf w 21 5 == 0) (.pref (bf w 16 5) (bf w 1 8))

/-- Major 0x1D. -/
def major1D (w : Nat) : Except Bad Instr :=
  match nf w 1 6 with
  | 0x29 => accept (true) (.amoFFp32 (bf w 21 5) (bf w 16 5) (bf w 11 5) (bf w 7 4))
  | 0x2A => accept (true) (.amoFBf16 (bf w 21 5) (bf w 16 5) (bf w 11 5) (bf w 7 4))
  | m => if 0x20 ≤ m && m < 0x29 then accept (true) (.amoW (bf w 21 5) (bf w 16 5) (bf w 11 5) (bf w 7 4) (bf w 1 4))
    else if 0x30 ≤ m && m < 0x39 then accept (true) (.amoD (bf w 21 5) (bf w 16 5) (bf w 11 5) (bf w 7 4) (bf w 1 4))
    else .error .reservedMinor

/-- Major 0x1E. -/
def major1E (w : Nat) : Except Bad Instr :=
  if nf w 2 5 = 1 then accept (true) (.cas (bf w 21 5) (bf w 16 5) (bf w 11 5) (bf w 7 4) (bf w 1 1)) else .error .reservedMinor

/-- Major 0x1F. -/
def major1F (w : Nat) : Except Bad Instr :=
  match nf w 1 6 with
  | 0x00 => accept (nf w 11 15 == 0) (.fence (bf w 7 4))
  | 0x01 => accept (nf w 21 5 == 0) (.barInit (bf w 16 5) (bf w 11 5) (bf w 7 4))
  | 0x02 => accept (nf w 21 5 == 0) (.barArrive (bf w 16 5) (bf w 11 5) (bf w 7 4))
  | 0x03 => accept (nf w 21 5 == 0) (.barWait (bf w 16 5) (bf w 11 5) (bf w 7 4))
  | 0x04 => accept (nf w 7 19 == 0) (.wfe)
  | 0x05 => accept (nf w 11 15 == 0) (.sev (bf w 7 4))
  | 0x06 => accept (nf w 9 2 == 0 && nf w 16 10 == 0) (.tlwait (bf w 11 5) (bf w 7 2))
  | 0x07 => accept (nf w 9 12 == 0) (.tlread (bf w 21 5) (bf w 7 2))
  | 0x08 => accept (nf w 11 5 == 0 && nf w 21 5 == 0) (.scopeSet (bf w 16 5) (bf w 7 4))
  | 0x09 => accept (nf w 11 10 == 0) (.scopeGet (bf w 21 5) (bf w 7 4))
  | 0x0A => accept (nf w 11 15 == 0) (.scopeRetire (bf w 7 4))
  | 0x0B => accept (nf w 7 4 == 0 && nf w 16 10 == 0) (.pause (bf w 11 5))
  | _ => .error .reservedMinor

/-- Major 0x20. -/
def major20 (w : Nat) : Except Bad Instr :=
  match nf w 1 6 with
  | 0x00 => accept (true) (.send (bf w 21 5) (bf w 16 5) (bf w 11 5) (bf w 7 4))
  | 0x01 => accept (true) (.sendT (bf w 21 5) (bf w 16 5) (bf w 11 5) (bf w 7 4))
  | 0x02 => accept (nf w 7 19 == 0) (.done)
  | 0x03 => accept (nf w 7 4 == 0) (.fibNew (bf w 21 5) (bf w 16 5) (bf w 11 5))
  | 0x04 => accept (nf w 7 9 == 0) (.spawn (bf w 21 5) (bf w 16 5))
  | 0x05 => accept (true) (.spawnG (bf w 21 5) (bf w 16 5) (bf w 11 5) (bf w 7 4))
  | 0x06 => accept (nf w 21 5 == 0) (.fibDec (bf w 16 5) (bf w 11 5) (bf w 7 4))
  | 0x07 => accept (nf w 7 4 == 0 && nf w 21 5 == 0) (.fref (bf w 16 5) (bf w 11 5))
  | 0x08 => accept (nf w 7 9 == 0 && nf w 21 5 == 0) (.fdrop (bf w 16 5))
  | 0x09 => accept (nf w 7 9 == 0 && nf w 21 5 == 0) (.fconfirm (bf w 16 5))
  | 0x0A => accept (nf w 21 5 == 0) (.fput (bf w 16 5) (bf w 11 5) (bf w 7 4))
  | 0x0B => accept (nf w 7 9 == 0) (.fget (bf w 21 5) (bf w 16 5))
  | 0x0C => accept (nf w 7 4 == 0 && nf w 21 5 == 0) (.fon (bf w 16 5) (bf w 11 5))
  | 0x0D => accept (nf w 7 19 == 0) (.keep)
  | _ => .error .reservedMinor

/-- Major 0x24. -/
def major24 (w : Nat) : Except Bad Instr :=
  match nf w 1 6 with
  | 0x00 => accept (nf w 10 1 == 0) (.vadd (bf w 21 5) (bf w 16 5) (bf w 11 5) (bf w 7 3))
  | 0x01 => accept (nf w 10 1 == 0) (.vsub (bf w 21 5) (bf w 16 5) (bf w 11 5) (bf w 7 3))
  | 0x02 => accept (nf w 10 1 == 0) (.vmul (bf w 21 5) (bf w 16 5) (bf w 11 5) (bf w 7 3))
  | 0x03 => accept (nf w 10 1 == 0) (.vmax (bf w 21 5) (bf w 16 5) (bf w 11 5) (bf w 7 3))
  | 0x04 => accept (nf w 10 1 == 0) (.vmin (bf w 21 5) (bf w 16 5) (bf w 11 5) (bf w 7 3))
  | 0x05 => accept (nf w 10 1 == 0) (.vand (bf w 21 5) (bf w 16 5) (bf w 11 5) (bf w 7 3))
  | 0x06 => accept (nf w 10 1 == 0) (.vor (bf w 21 5) (bf w 16 5) (bf w 11 5) (bf w 7 3))
  | 0x07 => accept (nf w 10 1 == 0) (.vxor (bf w 21 5) (bf w 16 5) (bf w 11 5) (bf w 7 3))
  | 0x08 => accept (nf w 10 1 == 0) (.vshl (bf w 21 5) (bf w 16 5) (bf w 11 5) (bf w 7 3))
  | 0x09 => accept (nf w 10 1 == 0) (.vshr (bf w 21 5) (bf w 16 5) (bf w 11 5) (bf w 7 3))
  | 0x0A => accept (nf w 10 1 == 0) (.vfma (bf w 21 5) (bf w 16 5) (bf w 11 5) (bf w 7 3))
  | 0x0B => accept (nf w 10 1 == 0) (.vsel (bf w 21 5) (bf w 16 5) (bf w 11 5) (bf w 7 3))
  | 0x0C => accept (nf w 10 1 == 0) (.vperm (bf w 21 5) (bf w 16 5) (bf w 11 5) (bf w 7 3))
  | _ => .error .reservedMinor

/-- Major 0x25. -/
def major25 (w : Nat) : Except Bad Instr :=
  match nf w 1 6 with
  | 0x00 => accept (nf w 10 6 == 0) (.vabs (bf w 21 5) (bf w 16 5) (bf w 7 3))
  | 0x01 => accept (nf w 10 6 == 0) (.vneg (bf w 21 5) (bf w 16 5) (bf w 7 3))
  | 0x02 => accept (nf w 10 1 == 0 && nf w 14 2 == 0) (.vexp2 (bf w 21 5) (bf w 16 5) (bf w 11 3) (bf w 7 3))
  | 0x03 => accept (nf w 10 1 == 0 && nf w 14 2 == 0) (.vlog2 (bf w 21 5) (bf w 16 5) (bf w 11 3) (bf w 7 3))
  | 0x04 => accept (nf w 10 1 == 0 && nf w 14 2 == 0) (.vrcp (bf w 21 5) (bf w 16 5) (bf w 11 3) (bf w 7 3))
  | 0x05 => accept (nf w 10 1 == 0 && nf w 14 2 == 0) (.vrsqrt (bf w 21 5) (bf w 16 5) (bf w 11 3) (bf w 7 3))
  | 0x06 => accept (nf w 10 6 == 0) (.vmov (bf w 21 5) (bf w 16 5) (bf w 7 3))
  | _ => .error .reservedMinor

/-- Major 0x26. -/
def major26 (w : Nat) : Except Bad Instr :=
  match nf w 1 6 with
  | 0x08 => accept (nf w 10 6 == 0) (.vredAdd (bf w 21 5) (bf w 16 5) (bf w 7 3))
  | 0x09 => accept (nf w 10 6 == 0) (.vredMax (bf w 21 5) (bf w 16 5) (bf w 7 3))
  | 0x0A => accept (nf w 10 6 == 0) (.vredMin (bf w 21 5) (bf w 16 5) (bf w 7 3))
  | 0x10 => accept (nf w 11 5 == 0) (.vbcast (bf w 21 5) (bf w 16 5) (bf w 7 4))
  | 0x11 => accept (nf w 11 10 == 0) (.viota (bf w 21 5) (bf w 7 4))
  | 0x12 => accept (true) (.vlane (bf w 21 5) (bf w 16 5) (bf w 11 5) (bf w 7 4))
  | 0x13 => accept (true) (.vins (bf w 21 5) (bf w 16 5) (bf w 11 5) (bf w 7 4))
  | 0x14 => accept (nf w 10 1 == 0) (.vscale (bf w 21 5) (bf w 16 5) (bf w 11 5) (bf w 7 3))
  | 0x15 => accept (nf w 10 1 == 0) (.vrope (bf w 21 5) (bf w 16 5) (bf w 11 5) (bf w 7 3))
  | 0x16 => accept (nf w 7 4 == 0) (.vrng (bf w 21 5) (bf w 16 5) (bf w 11 5))
  | m => if m < 6 then accept (nf w 10 1 == 0 && nf w 24 2 == 0) (.vcmp (bf w 21 3) (bf w 16 5) (bf w 11 5) (bf w 7 3) (bf w 1 3)) else .error .reservedMinor

/-- Major 0x27. -/
def major27 (w : Nat) : Except Bad Instr :=
  accept (true) (.vcvt (bf w 21 5) (bf w 16 5) (bf w 12 4) (bf w 10 2) (bf w 7 3) (bf w 6 1) (bf w 1 5))

/-- Major 0x28. -/
def major28 (w : Nat) : Except Bad Instr :=
  match nf w 4 3 with
  | 0 => accept (nf w 11 5 == 0) (.vld (bf w 21 5) (bf w 16 5) (bf w 7 4) (bf w 1 3))
  | 1 => accept (nf w 7 9 == 0) (.vst (bf w 21 5) (bf w 16 5) (bf w 1 3))
  | 2 => accept (true) (.vlds (bf w 21 5) (bf w 16 5) (bf w 11 5) (bf w 7 4) (bf w 1 3))
  | 3 => accept (true) (.vgath (bf w 21 5) (bf w 16 5) (bf w 11 5) (bf w 7 4) (bf w 1 3))
  | 4 => accept (nf w 7 4 == 0) (.vscat (bf w 21 5) (bf w 16 5) (bf w 11 5) (bf w 1 3))
  | 5 => accept (true) (.vldt (bf w 21 5) (bf w 16 5) (bf w 11 5) (bf w 7 4) (bf w 1 3))
  | _ => .error .reservedMinor

/-- Major 0x2C. -/
def major2C (w : Nat) : Except Bad Instr :=
  match nf w 1 6 with
  | 0x00 => accept (nf w 11 5 == 0 && nf w 25 1 == 0) (.tld (bf w 21 4) (bf w 16 5) (bf w 7 4))
  | 0x01 => accept (nf w 11 5 == 0 && nf w 25 1 == 0) (.tldT (bf w 21 4) (bf w 16 5) (bf w 7 4))
  | 0x02 => accept (nf w 7 9 == 0 && nf w 25 1 == 0) (.tst (bf w 21 4) (bf w 16 5))
  | 0x03 => accept (nf w 7 4 == 0 && nf w 15 1 == 0 && nf w 20 1 == 0 && nf w 23 3 == 0) (.mma (bf w 21 2) (bf w 16 4) (bf w 11 4))
  | 0x04 => accept (nf w 15 1 == 0 && nf w 20 1 == 0 && nf w 23 3 == 0) (.mmaS (bf w 21 2) (bf w 16 4) (bf w 11 4) (bf w 7 4))
  | 0x05 => accept (nf w 7 14 == 0 && nf w 23 3 == 0) (.azero (bf w 21 2))
  | 0x06 => accept (nf w 7 9 == 0 && nf w 23 3 == 0) (.ald (bf w 21 2) (bf w 16 5))
  | 0x07 => accept (nf w 7 9 == 0 && nf w 23 3 == 0) (.ast (bf w 21 2) (bf w 16 5))
  | 0x08 => accept (nf w 7 4 == 0 && nf w 18 3 == 0) (.arow (bf w 21 5) (bf w 16 2) (bf w 11 5))
  | _ => .error .reservedMinor

/-- Major 0x2E. -/
def major2E (w : Nat) : Except Bad Instr :=
  match nf w 1 6 with
  | 0x00 => accept (nf w 7 9 == 0 && nf w 21 5 == 0) (.ctxBind (bf w 16 5))
  | 0x01 => accept (nf w 7 9 == 0 && nf w 21 5 == 0) (.fpush (bf w 16 5))
  | 0x02 => accept (nf w 7 4 == 0 && nf w 21 5 == 0) (.farg (bf w 16 5) (bf w 11 5))
  | 0x03 => accept (nf w 7 9 == 0 && nf w 21 5 == 0) (.fpro (bf w 16 5))
  | 0x04 => accept (nf w 7 4 == 0 && nf w 21 5 == 0) (.fpop (bf w 16 5) (bf w 11 5))
  | 0x05 => accept (nf w 7 9 == 0) (.ffork (bf w 21 5) (bf w 16 5))
  | 0x06 => accept (nf w 11 5 == 0) (.finfo (bf w 21 5) (bf w 16 5) (bf w 7 4))
  | 0x07 => accept (true) (.kvapp (bf w 21 5) (bf w 16 5) (bf w 11 5) (bf w 7 4))
  | 0x08 => accept (nf w 21 5 == 0) (.attn (bf w 16 5) (bf w 11 5) (bf w 7 4))
  | 0x09 => accept (nf w 7 9 == 0) (.attnFin (bf w 21 5) (bf w 16 5))
  | _ => .error .reservedMinor

/-- Major 0x30. -/
def major30 (w : Nat) : Except Bad Instr :=
  match nf w 1 6 with
  | 0x00 => accept (nf w 7 9 == 0) (.rng (bf w 21 5) (bf w 16 5))
  | 0x01 => accept (nf w 7 9 == 0) (.topk (bf w 21 5) (bf w 16 5))
  | 0x02 => accept (nf w 7 9 == 0) (.gmask (bf w 21 5) (bf w 16 5))
  | 0x03 => accept (nf w 7 9 == 0) (.draw (bf w 21 5) (bf w 16 5))
  | 0x04 => accept (nf w 7 9 == 0) (.drawv (bf w 21 5) (bf w 16 5))
  | 0x05 => accept (nf w 7 9 == 0) (.accept (bf w 21 5) (bf w 16 5))
  | 0x06 => accept (nf w 11 5 == 0) (.route (bf w 21 5) (bf w 16 5) (bf w 7 4))
  | _ => .error .reservedMinor

/-- Major 0x32. -/
def major32 (w : Nat) : Except Bad Instr :=
  match nf w 1 6 with
  | 0x00 => accept (nf w 7 4 == 0) (.cpy (bf w 21 5) (bf w 16 5) (bf w 11 5))
  | 0x01 => accept (nf w 7 4 == 0) (.cpyT (bf w 21 5) (bf w 16 5) (bf w 11 5))
  | 0x02 => accept (true) (.cpyMc (bf w 21 5) (bf w 16 5) (bf w 11 5) (bf w 7 4))
  | 0x03 => accept (nf w 7 9 == 0) (.gath (bf w 21 5) (bf w 16 5))
  | 0x04 => accept (nf w 7 9 == 0) (.scat (bf w 21 5) (bf w 16 5))
  | 0x05 => accept (nf w 11 5 == 0 && nf w 21 5 == 0) (.coll (bf w 16 5) (bf w 7 4))
  | 0x06 => accept (nf w 11 5 == 0 && nf w 21 5 == 0) (.ring (bf w 16 5) (bf w 7 4))
  | 0x07 => accept (nf w 9 12 == 0) (.wptr (bf w 21 5) (bf w 7 2))
  | 0x08 => accept (nf w 9 2 == 0) (.promo (bf w 21 5) (bf w 16 5) (bf w 11 5) (bf w 7 2))
  | 0x09 => accept (nf w 7 4 == 0 && nf w 21 5 == 0) (.evict (bf w 16 5) (bf w 11 5))
  | 0x0A => accept (nf w 7 4 == 0 && nf w 21 5 == 0) (.pin (bf w 16 5) (bf w 11 5))
  | 0x0B => accept (nf w 7 4 == 0 && nf w 21 5 == 0) (.unpin (bf w 16 5) (bf w 11 5))
  | _ => .error .reservedMinor

/-- Major 0x34. -/
def major34 (w : Nat) : Except Bad Instr :=
  match nf w 1 6 with
  | 0x00 => accept (nf w 7 9 == 0) (.rprobe (bf w 21 5) (bf w 16 5))
  | 0x01 => accept (nf w 7 9 == 0 && nf w 21 5 == 0) (.rsplit (bf w 16 5))
  | 0x02 => accept (nf w 7 9 == 0 && nf w 21 5 == 0) (.rmerge (bf w 16 5))
  | 0x03 => accept (nf w 11 5 == 0 && nf w 21 5 == 0) (.rinv (bf w 16 5) (bf w 7 4))
  | 0x04 => accept (nf w 7 9 == 0 && nf w 21 5 == 0) (.rset (bf w 16 5))
  | 0x05 => accept (nf w 21 5 == 0) (.rmove (bf w 16 5) (bf w 11 5) (bf w 7 4))
  | 0x06 => accept (nf w 7 4 == 0 && nf w 21 5 == 0) (.rcompact (bf w 16 5) (bf w 11 5))
  | _ => .error .reservedMinor

/-- Major 0x38. -/
def major38 (w : Nat) : Except Bad Instr :=
  match nf w 1 6 with
  | 0x00 => accept (nf w 7 19 == 0) (.trap)
  | 0x01 => accept (nf w 7 4 == 0 && nf w 21 5 == 0) (.eret (bf w 16 5) (bf w 11 5))
  | 0x02 => accept (nf w 7 4 == 0) (.sysr (bf w 21 5) (bf w 16 5) (bf w 11 5))
  | 0x03 => accept (nf w 7 4 == 0) (.sysw (bf w 21 5) (bf w 16 5) (bf w 11 5))
  | 0x04 => accept (nf w 7 19 == 0) (.halt)
  | 0x05 => accept (nf w 7 9 == 0 && nf w 21 5 == 0) (.carve (bf w 16 5))
  | 0x06 => accept (nf w 7 19 == 0) (.bkpt)
  | 0x07 => accept (nf w 7 4 == 0 && nf w 21 5 == 0) (.wpset (bf w 16 5) (bf w 11 5))
  | 0x08 => accept (nf w 7 9 == 0 && nf w 21 5 == 0) (.sstep (bf w 16 5))
  | _ => .error .reservedMinor

/-- A 32-bit word (R257, R260): the checks of steps 1 to 3 of R259, in their order. -/
def decode32 (w : Nat) : Except Bad Instr :=
  match nf w 26 6 with
  | 0x01 => major01 w
  | 0x02 => major02 w
  | 0x03 => major03 w
  | 0x04 => major04 w
  | 0x05 => major05 w
  | 0x06 => major06 w
  | 0x07 => major07 w
  | 0x08 => major08 w
  | 0x09 => major09 w
  | 0x0A => major0A w
  | 0x0B => major0B w
  | 0x0C => major0C w
  | 0x10 => major10 w
  | 0x11 => major11 w
  | 0x12 => major12 w
  | 0x13 => major13 w
  | 0x14 => major14 w
  | 0x18 => major18 w
  | 0x19 => major19 w
  | 0x1A => major1A w
  | 0x1B => major1B w
  | 0x1C => major1C w
  | 0x1D => major1D w
  | 0x1E => major1E w
  | 0x1F => major1F w
  | 0x20 => major20 w
  | 0x24 => major24 w
  | 0x25 => major25 w
  | 0x26 => major26 w
  | 0x27 => major27 w
  | 0x28 => major28 w
  | 0x2C => major2C w
  | 0x2E => major2E w
  | 0x30 => major30 w
  | 0x32 => major32 w
  | 0x34 => major34 w
  | 0x38 => major38 w
  | _ => .error .reservedMajor

/-- The instruction whose bits are w: bit 0 of the first halfword gives its length (R253). -/
def decodeWord (w : Nat) : Except Bad Instr :=
  if w % 2 = 0 then decode16 w else decode32 w

/-- The little-endian number of a list of bytes (R20). -/
def leNat : List Byte → Nat
  | [] => 0
  | b :: bs => b.toNat + 256 * leNat bs

/-- The first n bytes of a number, little-endian. -/
def leBytes : Nat → Nat → List Byte
  | 0, _ => []
  | n + 1, w => BitVec.ofNat 8 w :: leBytes n (w / 256)

/-- The instruction that starts a list of bytes, with the bytes after it (R20, R253). -/
def decode : List Byte → Except Bad (Instr × List Byte)
  | b0 :: b1 :: rest =>
    if b0.toNat % 2 = 0 then
      match decode16 (leNat [b0, b1]) with
      | .ok i => .ok (i, rest)
      | .error e => .error e
    else match rest with
      | b2 :: b3 :: rest' =>
        match decode32 (leNat [b0, b1, b2, b3]) with
        | .ok i => .ok (i, rest')
        | .error e => .error e
      | _ => .error .truncated
  | _ => .error .truncated

/-- The instruction that the decoder reads from bits numbered as spec/opcode_table.json numbers them. The longest
instruction has 4 bytes, and every bit at or above nbits is zero. -/
def decodeTableWord (nbits w : Nat) : Option Instr :=
  match decode (leBytes 4 (w % 2 ^ nbits)) with
  | .ok (i, _) => some i
  | .error _ => none

/-! The layouts of the encoding tables, each named by its fields and their lowest bits. -/

def layD25_21A20_16B15_11 (base : Nat) (d : BitVec 5) (a : BitVec 5) (b : BitVec 5) : Nat :=
  base + d.toNat * 2 ^ 21 + a.toNat * 2 ^ 16 + b.toNat * 2 ^ 11

def layD25_21A20_16 (base : Nat) (d : BitVec 5) (a : BitVec 5) : Nat :=
  base + d.toNat * 2 ^ 21 + a.toNat * 2 ^ 16

def layD25_21A20_16B15_11P9_7 (base : Nat) (d : BitVec 5) (a : BitVec 5) (b : BitVec 5) (p : BitVec 3) : Nat :=
  base + d.toNat * 2 ^ 21 + a.toNat * 2 ^ 16 + b.toNat * 2 ^ 11 + p.toNat * 2 ^ 7

def layD25_21A20_16I15_1 (base : Nat) (d : BitVec 5) (a : BitVec 5) (i : BitVec 15) : Nat :=
  base + d.toNat * 2 ^ 21 + a.toNat * 2 ^ 16 + i.toNat * 2 ^ 1

def layD25_21A20_16N6_1 (base : Nat) (d : BitVec 5) (a : BitVec 5) (n : BitVec 6) : Nat :=
  base + d.toNat * 2 ^ 21 + a.toNat * 2 ^ 16 + n.toNat * 2 ^ 1

def layD25_21I20_1 (base : Nat) (d : BitVec 5) (i : BitVec 20) : Nat :=
  base + d.toNat * 2 ^ 21 + i.toNat * 2 ^ 1

def layP23_21A20_16B15_11C6_1 (base : Nat) (p : BitVec 3) (a : BitVec 5) (b : BitVec 5) (c : BitVec 6) : Nat :=
  base + p.toNat * 2 ^ 21 + a.toNat * 2 ^ 16 + b.toNat * 2 ^ 11 + c.toNat * 2 ^ 1

def layP23_21A20_16C15_12I11_1 (base : Nat) (p : BitVec 3) (a : BitVec 5) (c : BitVec 4) (i : BitVec 11) : Nat :=
  base + p.toNat * 2 ^ 21 + a.toNat * 2 ^ 16 + c.toNat * 2 ^ 12 + i.toNat * 2 ^ 1

def layD23_21A18_16B13_11 (base : Nat) (d : BitVec 3) (a : BitVec 3) (b : BitVec 3) : Nat :=
  base + d.toNat * 2 ^ 21 + a.toNat * 2 ^ 16 + b.toNat * 2 ^ 11

def layD23_21A18_16 (base : Nat) (d : BitVec 3) (a : BitVec 3) : Nat :=
  base + d.toNat * 2 ^ 21 + a.toNat * 2 ^ 16

def layP25_23S22_22O21_1 (base : Nat) (p : BitVec 3) (s : BitVec 1) (o : BitVec 21) : Nat :=
  base + p.toNat * 2 ^ 23 + s.toNat * 2 ^ 22 + o.toNat * 2 ^ 1

def layO25_1 (base : Nat) (o : BitVec 25) : Nat :=
  base + o.toNat * 2 ^ 1

def layA20_16 (base : Nat) (a : BitVec 5) : Nat :=
  base + a.toNat * 2 ^ 16

def layR25_21O18_1 (base : Nat) (r : BitVec 5) (o : BitVec 18) : Nat :=
  base + r.toNat * 2 ^ 21 + o.toNat * 2 ^ 1

def layD25_21B20_16S14_13O8_1 (base : Nat) (d : BitVec 5) (b : BitVec 5) (s : BitVec 2) (o : BitVec 8) : Nat :=
  base + d.toNat * 2 ^ 21 + b.toNat * 2 ^ 16 + s.toNat * 2 ^ 13 + o.toNat * 2 ^ 1

def layD25_21B20_16S14_13C12_9O8_1 (base : Nat) (d : BitVec 5) (b : BitVec 5) (s : BitVec 2) (c : BitVec 4) (o : BitVec 8) : Nat :=
  base + d.toNat * 2 ^ 21 + b.toNat * 2 ^ 16 + s.toNat * 2 ^ 13 + c.toNat * 2 ^ 9 + o.toNat * 2 ^ 1

def layB20_16O8_1 (base : Nat) (b : BitVec 5) (o : BitVec 8) : Nat :=
  base + b.toNat * 2 ^ 16 + o.toNat * 2 ^ 1

def layD25_21A20_16B15_11C10_7O4_1 (base : Nat) (d : BitVec 5) (a : BitVec 5) (b : BitVec 5) (c : BitVec 4) (o : BitVec 4) : Nat :=
  base + d.toNat * 2 ^ 21 + a.toNat * 2 ^ 16 + b.toNat * 2 ^ 11 + c.toNat * 2 ^ 7 + o.toNat * 2 ^ 1

def layD25_21A20_16B15_11C10_7 (base : Nat) (d : BitVec 5) (a : BitVec 5) (b : BitVec 5) (c : BitVec 4) : Nat :=
  base + d.toNat * 2 ^ 21 + a.toNat * 2 ^ 16 + b.toNat * 2 ^ 11 + c.toNat * 2 ^ 7

def layD25_21A20_16B15_11C10_7S1_1 (base : Nat) (d : BitVec 5) (a : BitVec 5) (b : BitVec 5) (c : BitVec 4) (s : BitVec 1) : Nat :=
  base + d.toNat * 2 ^ 21 + a.toNat * 2 ^ 16 + b.toNat * 2 ^ 11 + c.toNat * 2 ^ 7 + s.toNat * 2 ^ 1

def layC10_7 (base : Nat) (c : BitVec 4) : Nat :=
  base + c.toNat * 2 ^ 7

def layA20_16B15_11C10_7 (base : Nat) (a : BitVec 5) (b : BitVec 5) (c : BitVec 4) : Nat :=
  base + a.toNat * 2 ^ 16 + b.toNat * 2 ^ 11 + c.toNat * 2 ^ 7

def layB15_11T8_7 (base : Nat) (b : BitVec 5) (t : BitVec 2) : Nat :=
  base + b.toNat * 2 ^ 11 + t.toNat * 2 ^ 7

def layD25_21T8_7 (base : Nat) (d : BitVec 5) (t : BitVec 2) : Nat :=
  base + d.toNat * 2 ^ 21 + t.toNat * 2 ^ 7

def layA20_16C10_7 (base : Nat) (a : BitVec 5) (c : BitVec 4) : Nat :=
  base + a.toNat * 2 ^ 16 + c.toNat * 2 ^ 7

def layD25_21C10_7 (base : Nat) (d : BitVec 5) (c : BitVec 4) : Nat :=
  base + d.toNat * 2 ^ 21 + c.toNat * 2 ^ 7

def layB15_11 (base : Nat) (b : BitVec 5) : Nat :=
  base + b.toNat * 2 ^ 11

def layA20_16B15_11 (base : Nat) (a : BitVec 5) (b : BitVec 5) : Nat :=
  base + a.toNat * 2 ^ 16 + b.toNat * 2 ^ 11

def layD25_21A20_16B15_11M9_7 (base : Nat) (d : BitVec 5) (a : BitVec 5) (b : BitVec 5) (m : BitVec 3) : Nat :=
  base + d.toNat * 2 ^ 21 + a.toNat * 2 ^ 16 + b.toNat * 2 ^ 11 + m.toNat * 2 ^ 7

def layD25_21A20_16M9_7 (base : Nat) (d : BitVec 5) (a : BitVec 5) (m : BitVec 3) : Nat :=
  base + d.toNat * 2 ^ 21 + a.toNat * 2 ^ 16 + m.toNat * 2 ^ 7

def layD25_21A20_16R13_11M9_7 (base : Nat) (d : BitVec 5) (a : BitVec 5) (r : BitVec 3) (m : BitVec 3) : Nat :=
  base + d.toNat * 2 ^ 21 + a.toNat * 2 ^ 16 + r.toNat * 2 ^ 11 + m.toNat * 2 ^ 7

def layD11_7B6_2S1_1 (base : Nat) (d : BitVec 5) (b : BitVec 5) (s : BitVec 1) : Nat :=
  base + d.toNat * 2 ^ 7 + b.toNat * 2 ^ 2 + s.toNat * 2 ^ 1

def layD23_21A20_16B15_11M9_7C3_1 (base : Nat) (d : BitVec 3) (a : BitVec 5) (b : BitVec 5) (m : BitVec 3) (c : BitVec 3) : Nat :=
  base + d.toNat * 2 ^ 21 + a.toNat * 2 ^ 16 + b.toNat * 2 ^ 11 + m.toNat * 2 ^ 7 + c.toNat * 2 ^ 1

def layD25_21A20_16F10_7 (base : Nat) (d : BitVec 5) (a : BitVec 5) (f : BitVec 4) : Nat :=
  base + d.toNat * 2 ^ 21 + a.toNat * 2 ^ 16 + f.toNat * 2 ^ 7

def layD25_21F10_7 (base : Nat) (d : BitVec 5) (f : BitVec 4) : Nat :=
  base + d.toNat * 2 ^ 21 + f.toNat * 2 ^ 7

def layD25_21A20_16I15_11J10_7 (base : Nat) (d : BitVec 5) (a : BitVec 5) (i : BitVec 5) (j : BitVec 4) : Nat :=
  base + d.toNat * 2 ^ 21 + a.toNat * 2 ^ 16 + i.toNat * 2 ^ 11 + j.toNat * 2 ^ 7

def layD25_21A20_16T15_12S11_10M9_7O6_6R5_1 (base : Nat) (d : BitVec 5) (a : BitVec 5) (t : BitVec 4) (s : BitVec 2) (m : BitVec 3) (o : BitVec 1) (r : BitVec 5) : Nat :=
  base + d.toNat * 2 ^ 21 + a.toNat * 2 ^ 16 + t.toNat * 2 ^ 12 + s.toNat * 2 ^ 10 + m.toNat * 2 ^ 7 + o.toNat * 2 ^ 6 + r.toNat * 2 ^ 1

def layD25_21A20_16F10_7M3_1 (base : Nat) (d : BitVec 5) (a : BitVec 5) (f : BitVec 4) (m : BitVec 3) : Nat :=
  base + d.toNat * 2 ^ 21 + a.toNat * 2 ^ 16 + f.toNat * 2 ^ 7 + m.toNat * 2 ^ 1

def layD25_21A20_16M3_1 (base : Nat) (d : BitVec 5) (a : BitVec 5) (m : BitVec 3) : Nat :=
  base + d.toNat * 2 ^ 21 + a.toNat * 2 ^ 16 + m.toNat * 2 ^ 1

def layD25_21A20_16B15_11F10_7M3_1 (base : Nat) (d : BitVec 5) (a : BitVec 5) (b : BitVec 5) (f : BitVec 4) (m : BitVec 3) : Nat :=
  base + d.toNat * 2 ^ 21 + a.toNat * 2 ^ 16 + b.toNat * 2 ^ 11 + f.toNat * 2 ^ 7 + m.toNat * 2 ^ 1

def layD25_21A20_16B15_11M3_1 (base : Nat) (d : BitVec 5) (a : BitVec 5) (b : BitVec 5) (m : BitVec 3) : Nat :=
  base + d.toNat * 2 ^ 21 + a.toNat * 2 ^ 16 + b.toNat * 2 ^ 11 + m.toNat * 2 ^ 1

def layD24_21A20_16F10_7 (base : Nat) (d : BitVec 4) (a : BitVec 5) (f : BitVec 4) : Nat :=
  base + d.toNat * 2 ^ 21 + a.toNat * 2 ^ 16 + f.toNat * 2 ^ 7

def layD24_21A20_16 (base : Nat) (d : BitVec 4) (a : BitVec 5) : Nat :=
  base + d.toNat * 2 ^ 21 + a.toNat * 2 ^ 16

def layD22_21A19_16B14_11 (base : Nat) (d : BitVec 2) (a : BitVec 4) (b : BitVec 4) : Nat :=
  base + d.toNat * 2 ^ 21 + a.toNat * 2 ^ 16 + b.toNat * 2 ^ 11

def layD22_21A19_16B14_11K10_7 (base : Nat) (d : BitVec 2) (a : BitVec 4) (b : BitVec 4) (k : BitVec 4) : Nat :=
  base + d.toNat * 2 ^ 21 + a.toNat * 2 ^ 16 + b.toNat * 2 ^ 11 + k.toNat * 2 ^ 7

def layD22_21 (base : Nat) (d : BitVec 2) : Nat :=
  base + d.toNat * 2 ^ 21

def layD22_21A20_16 (base : Nat) (d : BitVec 2) (a : BitVec 5) : Nat :=
  base + d.toNat * 2 ^ 21 + a.toNat * 2 ^ 16

def layD25_21A17_16B15_11 (base : Nat) (d : BitVec 5) (a : BitVec 2) (b : BitVec 5) : Nat :=
  base + d.toNat * 2 ^ 21 + a.toNat * 2 ^ 16 + b.toNat * 2 ^ 11

def layD25_21A20_16S10_7 (base : Nat) (d : BitVec 5) (a : BitVec 5) (s : BitVec 4) : Nat :=
  base + d.toNat * 2 ^ 21 + a.toNat * 2 ^ 16 + s.toNat * 2 ^ 7

def layD25_21A20_16C10_7 (base : Nat) (d : BitVec 5) (a : BitVec 5) (c : BitVec 4) : Nat :=
  base + d.toNat * 2 ^ 21 + a.toNat * 2 ^ 16 + c.toNat * 2 ^ 7

def layD25_21H8_7 (base : Nat) (d : BitVec 5) (h : BitVec 2) : Nat :=
  base + d.toNat * 2 ^ 21 + h.toNat * 2 ^ 7

def layD25_21A20_16B15_11K8_7 (base : Nat) (d : BitVec 5) (a : BitVec 5) (b : BitVec 5) (k : BitVec 2) : Nat :=
  base + d.toNat * 2 ^ 21 + a.toNat * 2 ^ 16 + b.toNat * 2 ^ 11 + k.toNat * 2 ^ 7

def layD25_21N20_16M15_11 (base : Nat) (d : BitVec 5) (n : BitVec 5) (m : BitVec 5) : Nat :=
  base + d.toNat * 2 ^ 21 + n.toNat * 2 ^ 16 + m.toNat * 2 ^ 11

/-- The word of an instruction, from the encoding tables (R255, R257 to R277). An event has no encoding; its word
is the halfword 0, which no instruction has. -/
def encodeWord : Instr → Nat
  | .powerOn => 0
  | .pcieConventionalReset => 0
  | .functionLevelReset => 0
  | .fuseLoad _ => 0
  | .atticKernelVerify => 0
  | .clockCalibration _ => 0
  | .sramRepair _ => 0
  | .linkCalibration _ => 0
  | .hbmTraining _ => 0
  | .portEqualisation _ _ _ => 0
  | .hbmZeroing _ => 0
  | .sramZeroing _ => 0
  | .bootImageLoad => 0
  | .linkLost => 0
  | .portFailure _ => 0
  | .linkDomainFormation _ _ _ => 0
  | .timeSync _ _ _ => 0
  | .driveFailure _ => 0
  | .thermalThrottle => 0
  | .thermalRecovery => 0
  | .stopTemperature => 0
  | .hostMessage _ _ => 0
  | .hostMessageTimeout _ => 0
  | .hostHdmAccess _ _ _ => 0
  | .registerWrite _ _ => 0
  | .gangArm _ => 0
  | .gangCancel _ => 0
  | .gangFire _ => 0
  | .ident => 0
  | .attest => 0
  | .readback => 0
  | .freeze => 0
  | .thaw => 0
  | .fwstage => 0
  | .fwcommit => 0
  | .reset => 0
  | .links => 0
  | .mailboxBadcmd => 0
  | .regionLoad _ => 0
  | .regionUnload _ => 0
  | .regionSwitchOut _ => 0
  | .regionSwitchIn _ => 0
  | .threadDispatch _ => 0
  | .queueSpill _ => 0
  | .queueRefill _ => 0
  | .steal _ => 0
  | .watchdog _ _ => 0
  | .messageArrival _ => 0
  | .decrementArrival _ => 0
  | .fibreReclaim _ _ => 0
  | .engineCommandStart _ _ => 0
  | .engineCommandFinish _ _ => 0
  | .tableWalk _ _ _ => 0
  | .blockFetchComplete _ _ _ => 0
  | .writeBackComplete _ _ => 0
  | .moveStep _ => 0
  | .forwardRecordRemoval _ => 0
  | .compaction _ _ => 0
  | .borrow _ => 0
  | .batchReturn _ _ => 0
  | .rangeRelease _ => 0
  | .scopeDrain _ _ => 0
  | .barrierWake _ _ => 0
  | .pauseExpiry _ _ => 0
  | .tileStop _ _ => 0
  | .cutClose _ => 0
  | .rgnctlFreeze _ _ => 0
  | .rgnctlThaw _ _ => 0
  | .hostSignal _ => 0
  | .add d a b => layD25_21A20_16B15_11 0x4000001 d a b
  | .sub d a b => layD25_21A20_16B15_11 0x4000003 d a b
  | .and d a b => layD25_21A20_16B15_11 0x4000005 d a b
  | .or d a b => layD25_21A20_16B15_11 0x4000007 d a b
  | .xor d a b => layD25_21A20_16B15_11 0x4000009 d a b
  | .shl d a b => layD25_21A20_16B15_11 0x400000B d a b
  | .shr d a b => layD25_21A20_16B15_11 0x400000D d a b
  | .sra d a b => layD25_21A20_16B15_11 0x400000F d a b
  | .mul d a b => layD25_21A20_16B15_11 0x4000011 d a b
  | .mulh d a b => layD25_21A20_16B15_11 0x4000013 d a b
  | .mulhu d a b => layD25_21A20_16B15_11 0x4000015 d a b
  | .div d a b => layD25_21A20_16B15_11 0x4000017 d a b
  | .divu d a b => layD25_21A20_16B15_11 0x4000019 d a b
  | .rem d a b => layD25_21A20_16B15_11 0x400001B d a b
  | .remu d a b => layD25_21A20_16B15_11 0x400001D d a b
  | .min d a b => layD25_21A20_16B15_11 0x400001F d a b
  | .max d a b => layD25_21A20_16B15_11 0x4000021 d a b
  | .minu d a b => layD25_21A20_16B15_11 0x4000023 d a b
  | .maxu d a b => layD25_21A20_16B15_11 0x4000025 d a b
  | .clz d a => layD25_21A20_16 0x4000027 d a
  | .ctz d a => layD25_21A20_16 0x4000029 d a
  | .pop d a => layD25_21A20_16 0x400002B d a
  | .ext d a b => layD25_21A20_16B15_11 0x400002D d a b
  | .ins d a b => layD25_21A20_16B15_11 0x400002F d a b
  | .sel d a b p => layD25_21A20_16B15_11P9_7 0x4000031 d a b p
  | .addi d a i => layD25_21A20_16I15_1 0x8000001 d a i
  | .andi d a i => layD25_21A20_16I15_1 0xC000001 d a i
  | .ori d a i => layD25_21A20_16I15_1 0x10000001 d a i
  | .xori d a i => layD25_21A20_16I15_1 0x14000001 d a i
  | .shli d a n => layD25_21A20_16N6_1 0x18000001 d a n
  | .shri d a n => layD25_21A20_16N6_1 0x18004001 d a n
  | .srai d a n => layD25_21A20_16N6_1 0x18008001 d a n
  | .li d i => layD25_21I20_1 0x1C000001 d i
  | .lih d i => layD25_21I20_1 0x20000001 d i
  | .addpc d i => layD25_21I20_1 0x24000001 d i
  | .cmp p a b c => layP23_21A20_16B15_11C6_1 0x28000001 p a b c
  | .cmpi p a c i => layP23_21A20_16C15_12I11_1 0x2C000001 p a c i
  | .pand d a b => layD23_21A18_16B13_11 0x30000001 d a b
  | .por d a b => layD23_21A18_16B13_11 0x30000003 d a b
  | .pxor d a b => layD23_21A18_16B13_11 0x30000005 d a b
  | .pnot d a => layD23_21A18_16 0x30000007 d a
  | .b p s o => layP25_23S22_22O21_1 0x40000001 p s o
  | .j o => layO25_1 0x44000001 o
  | .call o => layO25_1 0x48000001 o
  | .jr a => layA20_16 0x4C000001 a
  | .callr a => layA20_16 0x4C000003 a
  | .ret => 0x4C000005
  | .nop => 0x4C000007
  | .loop r o => layR25_21O18_1 0x50000001 r o
  | .bz r o => layR25_21O18_1 0x50080001 r o
  | .bnz r o => layR25_21O18_1 0x50100001 r o
  | .ld d b s o => layD25_21B20_16S14_13O8_1 0x60000001 d b s o
  | .st d b s o => layD25_21B20_16S14_13O8_1 0x64000001 d b s o
  | .ldAcq d b s c o => layD25_21B20_16S14_13C12_9O8_1 0x68000001 d b s c o
  | .stRel d b s c o => layD25_21B20_16S14_13C12_9O8_1 0x68008001 d b s c o
  | .ldVol d b s o => layD25_21B20_16S14_13O8_1 0x6C000001 d b s o
  | .stVol d b s o => layD25_21B20_16S14_13O8_1 0x6C008001 d b s o
  | .pref b o => layB20_16O8_1 0x70000001 b o
  | .amoW d a b c o => layD25_21A20_16B15_11C10_7O4_1 0x74000041 d a b c o
  | .amoD d a b c o => layD25_21A20_16B15_11C10_7O4_1 0x74000061 d a b c o
  | .amoFFp32 d a b c => layD25_21A20_16B15_11C10_7 0x74000053 d a b c
  | .amoFBf16 d a b c => layD25_21A20_16B15_11C10_7 0x74000055 d a b c
  | .cas d a b c s => layD25_21A20_16B15_11C10_7S1_1 0x78000005 d a b c s
  | .fence c => layC10_7 0x7C000001 c
  | .barInit a b c => layA20_16B15_11C10_7 0x7C000003 a b c
  | .barArrive a b c => layA20_16B15_11C10_7 0x7C000005 a b c
  | .barWait a b c => layA20_16B15_11C10_7 0x7C000007 a b c
  | .wfe => 0x7C000009
  | .sev c => layC10_7 0x7C00000B c
  | .tlwait b t => layB15_11T8_7 0x7C00000D b t
  | .tlread d t => layD25_21T8_7 0x7C00000F d t
  | .scopeSet a c => layA20_16C10_7 0x7C000011 a c
  | .scopeGet d c => layD25_21C10_7 0x7C000013 d c
  | .scopeRetire c => layC10_7 0x7C000015 c
  | .pause b => layB15_11 0x7C000017 b
  | .send d a b c => layD25_21A20_16B15_11C10_7 0x80000001 d a b c
  | .sendT d a b c => layD25_21A20_16B15_11C10_7 0x80000003 d a b c
  | .done => 0x80000005
  | .fibNew d a b => layD25_21A20_16B15_11 0x80000007 d a b
  | .spawn d a => layD25_21A20_16 0x80000009 d a
  | .spawnG d a b c => layD25_21A20_16B15_11C10_7 0x8000000B d a b c
  | .fibDec a b c => layA20_16B15_11C10_7 0x8000000D a b c
  | .fref a b => layA20_16B15_11 0x8000000F a b
  | .fdrop a => layA20_16 0x80000011 a
  | .fconfirm a => layA20_16 0x80000013 a
  | .fput a b c => layA20_16B15_11C10_7 0x80000015 a b c
  | .fget d a => layD25_21A20_16 0x80000017 d a
  | .fon a b => layA20_16B15_11 0x80000019 a b
  | .keep => 0x8000001B
  | .vadd d a b m => layD25_21A20_16B15_11M9_7 0x90000001 d a b m
  | .vsub d a b m => layD25_21A20_16B15_11M9_7 0x90000003 d a b m
  | .vmul d a b m => layD25_21A20_16B15_11M9_7 0x90000005 d a b m
  | .vmax d a b m => layD25_21A20_16B15_11M9_7 0x90000007 d a b m
  | .vmin d a b m => layD25_21A20_16B15_11M9_7 0x90000009 d a b m
  | .vand d a b m => layD25_21A20_16B15_11M9_7 0x9000000B d a b m
  | .vor d a b m => layD25_21A20_16B15_11M9_7 0x9000000D d a b m
  | .vxor d a b m => layD25_21A20_16B15_11M9_7 0x9000000F d a b m
  | .vshl d a b m => layD25_21A20_16B15_11M9_7 0x90000011 d a b m
  | .vshr d a b m => layD25_21A20_16B15_11M9_7 0x90000013 d a b m
  | .vfma d a b m => layD25_21A20_16B15_11M9_7 0x90000015 d a b m
  | .vsel d a b m => layD25_21A20_16B15_11M9_7 0x90000017 d a b m
  | .vperm d a b m => layD25_21A20_16B15_11M9_7 0x90000019 d a b m
  | .vabs d a m => layD25_21A20_16M9_7 0x94000001 d a m
  | .vneg d a m => layD25_21A20_16M9_7 0x94000003 d a m
  | .vexp2 d a r m => layD25_21A20_16R13_11M9_7 0x94000005 d a r m
  | .vlog2 d a r m => layD25_21A20_16R13_11M9_7 0x94000007 d a r m
  | .vrcp d a r m => layD25_21A20_16R13_11M9_7 0x94000009 d a r m
  | .vrsqrt d a r m => layD25_21A20_16R13_11M9_7 0x9400000B d a r m
  | .vmov d a m => layD25_21A20_16M9_7 0x9400000D d a m
  | .vadd16 d b s => layD11_7B6_2S1_1 0x0 d b s
  | .vsub16 d b s => layD11_7B6_2S1_1 0x1000 d b s
  | .vmul16 d b s => layD11_7B6_2S1_1 0x2000 d b s
  | .vmax16 d b s => layD11_7B6_2S1_1 0x3000 d b s
  | .vmin16 d b s => layD11_7B6_2S1_1 0x4000 d b s
  | .vabs16 d b s => layD11_7B6_2S1_1 0x5000 d b s
  | .vneg16 d b s => layD11_7B6_2S1_1 0x6000 d b s
  | .vexp216 d b s => layD11_7B6_2S1_1 0x7000 d b s
  | .vrcp16 d b s => layD11_7B6_2S1_1 0x8000 d b s
  | .vrsqrt16 d b s => layD11_7B6_2S1_1 0x9000 d b s
  | .vand16 d b s => layD11_7B6_2S1_1 0xA000 d b s
  | .vor16 d b s => layD11_7B6_2S1_1 0xB000 d b s
  | .vxor16 d b s => layD11_7B6_2S1_1 0xC000 d b s
  | .vshl16 d b s => layD11_7B6_2S1_1 0xD000 d b s
  | .vshr16 d b s => layD11_7B6_2S1_1 0xE000 d b s
  | .vmov16 d b s => layD11_7B6_2S1_1 0xF000 d b s
  | .vcmp d a b m c => layD23_21A20_16B15_11M9_7C3_1 0x98000001 d a b m c
  | .vredAdd d a m => layD25_21A20_16M9_7 0x98000011 d a m
  | .vredMax d a m => layD25_21A20_16M9_7 0x98000013 d a m
  | .vredMin d a m => layD25_21A20_16M9_7 0x98000015 d a m
  | .vbcast d a f => layD25_21A20_16F10_7 0x98000021 d a f
  | .viota d f => layD25_21F10_7 0x98000023 d f
  | .vlane d a i j => layD25_21A20_16I15_11J10_7 0x98000025 d a i j
  | .vins d a i j => layD25_21A20_16I15_11J10_7 0x98000027 d a i j
  | .vscale d a b m => layD25_21A20_16B15_11M9_7 0x98000029 d a b m
  | .vrope d a b m => layD25_21A20_16B15_11M9_7 0x9800002B d a b m
  | .vrng d a b => layD25_21A20_16B15_11 0x9800002D d a b
  | .vcvt d a t s m o r => layD25_21A20_16T15_12S11_10M9_7O6_6R5_1 0x9C000001 d a t s m o r
  | .vld d a f m => layD25_21A20_16F10_7M3_1 0xA0000001 d a f m
  | .vst d a m => layD25_21A20_16M3_1 0xA0000011 d a m
  | .vlds d a b f m => layD25_21A20_16B15_11F10_7M3_1 0xA0000021 d a b f m
  | .vgath d a b f m => layD25_21A20_16B15_11F10_7M3_1 0xA0000031 d a b f m
  | .vscat d a b m => layD25_21A20_16B15_11M3_1 0xA0000041 d a b m
  | .vldt d a b f m => layD25_21A20_16B15_11F10_7M3_1 0xA0000051 d a b f m
  | .tld d a f => layD24_21A20_16F10_7 0xB0000001 d a f
  | .tldT d a f => layD24_21A20_16F10_7 0xB0000003 d a f
  | .tst d a => layD24_21A20_16 0xB0000005 d a
  | .mma d a b => layD22_21A19_16B14_11 0xB0000007 d a b
  | .mmaS d a b k => layD22_21A19_16B14_11K10_7 0xB0000009 d a b k
  | .azero d => layD22_21 0xB000000B d
  | .ald d a => layD22_21A20_16 0xB000000D d a
  | .ast d a => layD22_21A20_16 0xB000000F d a
  | .arow d a b => layD25_21A17_16B15_11 0xB0000011 d a b
  | .ctxBind a => layA20_16 0xB8000001 a
  | .fpush a => layA20_16 0xB8000003 a
  | .farg a b => layA20_16B15_11 0xB8000005 a b
  | .fpro a => layA20_16 0xB8000007 a
  | .fpop a b => layA20_16B15_11 0xB8000009 a b
  | .ffork d a => layD25_21A20_16 0xB800000B d a
  | .finfo d a s => layD25_21A20_16S10_7 0xB800000D d a s
  | .kvapp d a b c => layD25_21A20_16B15_11C10_7 0xB800000F d a b c
  | .attn a b c => layA20_16B15_11C10_7 0xB8000011 a b c
  | .attnFin d a => layD25_21A20_16 0xB8000013 d a
  | .rng d a => layD25_21A20_16 0xC0000001 d a
  | .topk d a => layD25_21A20_16 0xC0000003 d a
  | .gmask d a => layD25_21A20_16 0xC0000005 d a
  | .draw d a => layD25_21A20_16 0xC0000007 d a
  | .drawv d a => layD25_21A20_16 0xC0000009 d a
  | .accept d a => layD25_21A20_16 0xC000000B d a
  | .route d a c => layD25_21A20_16C10_7 0xC000000D d a c
  | .cpy d a b => layD25_21A20_16B15_11 0xC8000001 d a b
  | .cpyT d a b => layD25_21A20_16B15_11 0xC8000003 d a b
  | .cpyMc d a b c => layD25_21A20_16B15_11C10_7 0xC8000005 d a b c
  | .gath d a => layD25_21A20_16 0xC8000007 d a
  | .scat d a => layD25_21A20_16 0xC8000009 d a
  | .coll a c => layA20_16C10_7 0xC800000B a c
  | .ring a c => layA20_16C10_7 0xC800000D a c
  | .wptr d h => layD25_21H8_7 0xC800000F d h
  | .promo d a b k => layD25_21A20_16B15_11K8_7 0xC8000011 d a b k
  | .evict a b => layA20_16B15_11 0xC8000013 a b
  | .pin a b => layA20_16B15_11 0xC8000015 a b
  | .unpin a b => layA20_16B15_11 0xC8000017 a b
  | .rprobe d a => layD25_21A20_16 0xD0000001 d a
  | .rsplit a => layA20_16 0xD0000003 a
  | .rmerge a => layA20_16 0xD0000005 a
  | .rinv a c => layA20_16C10_7 0xD0000007 a c
  | .rset a => layA20_16 0xD0000009 a
  | .rmove a b c => layA20_16B15_11C10_7 0xD000000B a b c
  | .rcompact a b => layA20_16B15_11 0xD000000D a b
  | .trap => 0xE0000001
  | .eret a b => layA20_16B15_11 0xE0000003 a b
  | .sysr d n m => layD25_21N20_16M15_11 0xE0000005 d n m
  | .sysw d n m => layD25_21N20_16M15_11 0xE0000007 d n m
  | .halt => 0xE0000009
  | .carve a => layA20_16 0xE000000B a
  | .bkpt => 0xE000000D
  | .wpset a b => layA20_16B15_11 0xE000000F a b
  | .sstep a => layA20_16 0xE0000011 a
  | .accessPerformedAtHome _ => 0
  | .fetchStop _ _ _ => 0
  | .notAnInstruction _ _ => 0
  | .uncorrectableError _ => 0
  | .hostAccessTimeout _ => 0

/-- The bytes of an instruction as they lie in memory (R20). -/
def encode (i : Instr) : List Byte := leBytes i.size (encodeWord i)

end Sys2Proof
end

