-- ==== Sys2Proof/Machine/State.lean ====
section
/-! DEFINITION. The state of the module as plain data, whole: the hub and the attic, the regions that are loaded, the
tiles with their threads, queues, caches and engine commands, the cluster memories, the store rooms, memory, and the
work that is under way between them. Anything that lies in addressable memory (scratchpads, tile registers,
accumulators, RCBs, scope tables, range trees, contexts, dead-letter queues) is bytes of `mem` and is held nowhere
else. `State.reset` is the module right after reset, before bring-up step 1 (R31, R34). -/

namespace Sys2Proof.Machine

/-- Why the machine stops. -/
inductive Fault where
  /-- Raised by an access of a thread or of the host whose physical address R126 gives no memory. Safe: the
  machine stops where the spec gives no behaviour. -/
  | noMemory (pa : Nat)
  deriving DecidableEq, Repr

/-- Why a step has no meaning. -/
inductive Refusal where
  /-- Raised by an arm of `exec` that has no meaning yet. Safe: the machine stops. -/
  | notModelled (mnemonic : String)
  /-- Raised by `step` for an agenda entry that is no well-formed event. Safe: no hardware event is such a term. -/
  | illFormed
  deriving DecidableEq, Repr

/-- One of the 8,192 threads. -/
structure ThreadId where
  tile : BitVec 10
  thread : BitVec 3
  deriving DecidableEq, Repr

/-- What moves next. The model's own: the spec's machine moves everywhere at once, and the agenda names one mover
after another. -/
inductive Act where
  /-- The issue stage of a tile issues the next instruction of a thread (R96). -/
  | issue (tile : BitVec 10) (thread : BitVec 3)
  /-- An event of the opcode table befalls. -/
  | event (e : Instr)
  /-- One single step of a suspended thread issues its instruction (R229). -/
  | step (tile : BitVec 10) (thread : BitVec 3)
  /-- The single step ends once the engine commands that it issued have finished (R229). -/
  | stepDone (tile : BitVec 10) (thread : BitVec 3)
  /-- A cycle passes in which nothing else happens (R85). -/
  | tick
  deriving DecidableEq, Repr

/-- The sets that a scope index selects, captured when it is used (R167 to R170). Bit i of `tiles` and `spads` is
tile i, bit c of `cmem` is cluster memory c. -/
structure Sets where
  index : BitVec 4
  gen : BitVec 24
  thread : Option ThreadId
  tiles : BitVec 1024
  cmem : BitVec 64
  spads : BitVec 1024
  host : Bool
  deriving DecidableEq, Repr

/-- The copies that the tiles of a region keep of one entry of its scope table (R168, R169). The copies of all tiles of
a region change in one step, so they are held once for the region. -/
structure ScopeCopy where
  state : BitVec 2
  gen : BitVec 24
  host : Bool
  cmem : BitVec 64
  /-- The words TILES and SPADS of the entry, and the bitmaps that they named when it was set. -/
  tilesAt : Word
  spadsAt : Word
  tiles : BitVec 1024
  spads : BitVec 1024
  deriving DecidableEq, Repr

/-- A copy of an entry that nothing has set. -/
def ScopeCopy.reset : ScopeCopy := ⟨0, 0, false, 0, 0, 0, 0, 0⟩

/-- The effective values of a region's inheritable fields, as an activation read them when it started (R58): the
region, the values, the region whose range tree it uses, and the RANGEROOT of that tree. `sys` is SYSH on SYSTILE and
`regen` is REGENH on REGENTILE, none where no RCB of the path sets them. -/
structure Eff where
  region : BitVec 16
  budget : Nat
  prio : Nat
  fdom : Nat
  scopeBase : Nat
  tree : BitVec 16
  rangeRoot : Nat
  wdog : Nat
  sys : Option (BitVec 12 × BitVec 10)
  regen : Option (BitVec 12 × BitVec 10)
  deriving DecidableEq, Repr

/-- The defaults of R58, for a thread that has started no activation. -/
def Eff.reset : Eff := ⟨0, 65536, 0, 0, 0, 0, 0, 20, none, none⟩

/-- An entry of the send buffer (R320), with the sets that its scope captured at issue (R170). -/
structure SendEntry where
  dest : Word
  arg : Word
  src : Word
  scope : BitVec 4
  type : BitVec 2
  len : BitVec 13
  xform : Word
  sets : Sets
  deriving DecidableEq, Repr

/-- One engine context of a thread (R114, R115): bit n mod 128 of `done` is 1 if command n completed. -/
structure EngineCtx where
  issued : Word
  complete : Word
  canhi : Word
  done : BitVec 128
  deriving DecidableEq, Repr

/-- A fault record (R213). -/
structure FaultRec where
  cause : BitVec 8
  tile : BitVec 10
  thread : BitVec 3
  fate : BitVec 3
  region : BitVec 16
  step : Bool
  msgid : Word
  fibre : Word
  pc : Word
  insn : BitVec 32
  addr : Word
  info : Word
  cyc : Word
  deriving DecidableEq, Repr

/-- Why a thread that runs an activation does not issue. -/
inductive Hold where
  /-- Nothing holds it. -/
  | free
  /-- Its instruction waits and tests again when the thread is served (`tlwait`, `fget`, `wfe`, the frame acts, a
  full scoreboard). -/
  | retest
  /-- It waits in `bar.wait` on the barrier word at a physical address, until it is woken or polls (R184). -/
  | barrier (pa : Nat)
  /-- It waits in `pause` until a cycle (R311), or between two polls of a `bar.wait` (R184). -/
  | pause (cycle : Nat)
  /-- It waits in `sstep` for the end of a step (R412). -/
  | stepping (x : ThreadId)
  deriving DecidableEq, Repr

/-- What has become of the regeneration that was under way when poison was met (R207). -/
inductive RegenFate where
  | waiting
  /-- The regeneration activation has ended. -/
  | ended
  /-- The regeneration message was written as a dead letter. -/
  | lettered
  deriving DecidableEq, Repr

/-- A stop that an engine command left for a later `tlwait` or `done` (R207, R208, R425). -/
structure Deferred where
  ctx : BitVec 2
  number : Word
  cause : Cause
  addr : Word
  /-- The vector register that a poisoned `arow` would have written (R425). -/
  vreg : Option (BitVec 5)
  /-- The CXD of the context whose regeneration it waits for, by physical address (R207). -/
  cxd : Nat
  regen : RegenFate
  deriving DecidableEq, Repr

/-- How an activation was started (R63, R323, R332). -/
inductive Start where
  | message (cls : BitVec 2) (uid : Nat)
  | first
  | continuation
  deriving DecidableEq, Repr

/-- The activation that a fibre has pending without a message: its handler, its `g1` and its `g6` (R63, R332), and the
future that its continuation awaited, null for a first activation. -/
structure Pending where
  start : Start
  handler : BitVec 12
  g1 : Word
  g6 : Word
  waitfut : Word
  deriving DecidableEq, Repr

/-- What a parked fibre waits for (R99, R207). -/
inductive Park where
  /-- The blocks of 64 KiB that it waits for, by physical address. -/
  | residency (blocks : List Nat)
  /-- The context that grows or is popped, by the physical address of its CXD. -/
  | context (cxd : Nat)
  | speculation
  | regeneration (cxd : Nat)
  deriving DecidableEq, Repr

/-- A stop: its cause, faulting address and INFO, what the fibre is parked for, where it is parked, and the cycle of
the single step that raised it, where one did (R229). -/
structure StepStop where
  cause : Cause
  addr : Word
  info : Word
  park : Option Park
  stepped : Option Word
  deriving DecidableEq, Repr

/-- A thread: its registers (R11, R224) and the activation it runs. -/
structure Thread where
  g : Vector Word 32
  v : Vector VWord 32
  vtag : Vector (BitVec 4) 32
  /-- `m0` is entry 0, which holds all ones. -/
  m : Vector Word 8
  /-- Bit 0 is `p0`, which reads 1. -/
  p : BitVec 8
  ttag : Vector (BitVec 4) 16
  /-- Shape words (R357). -/
  tshape : Vector (BitVec 32) 16
  latch : Bool
  pc : Word
  engines : Vector EngineCtx 4
  /-- ACT of R224: an activation is held. -/
  active : Bool
  /-- A freeze has suspended the activation (R210, R220). -/
  suspended : Bool
  hold : Hold
  /-- The bits of the last instruction that issued. -/
  insn : BitVec 32
  /-- The instruction that waits has been counted in ICNT (R422). -/
  counted : Bool
  /-- How often a poll of `bar.wait` has backed off (R184). -/
  polls : Nat
  region : BitVec 16
  handler : BitVec 12
  fibre : Word
  msgid : Word
  start : Start
  /-- The activation as it was started, where no message started it. -/
  pend : Option Pending
  payAddr : Word
  payLen : Word
  keeps : Bool
  fons : Bool
  /-- References made during the activation: holder and future (R78, R211). -/
  made : List (Word × Word)
  sends : List SendEntry
  /-- Reader epochs joined: the CXD's physical address and the epoch (R198). -/
  readers : List (Nat × Bool)
  deferred : List Deferred
  icnt : Word
  wdUsed : Word
  /-- The effective values with which the activation started (R58). -/
  eff : Eff
  /-- The skid ring, oldest first (R228). -/
  skid : List (Word × Word)
  /-- The last fault record (R213). -/
  record : FaultRec
  /-- The sets that the instruction which waits captured at issue (R170). -/
  captured : Option Sets
  /-- A stop that a single step raised and that takes its fate at THAW (R229). -/
  stepFault : Option StepStop
  /-- The record that an `fref` has put into its holder's blocks while it waits for COUNT to fall: holder and future
  (R327). -/
  recording : Option (Word × Word)
  deriving DecidableEq, Repr

/-- FSTATE of R62. -/
inductive FState where
  | waiting | ready | running | parked | ended | reclaiming
  deriving DecidableEq, Repr

/-- FSTAT of R69. -/
inductive FStat where
  | pending | running | resolved | reclaimed
  deriving DecidableEq, Repr

/-- A kept payload: its first unit of 256 bytes in the landing zone, its units and its length (R323). -/
structure Kept where
  unit : Nat
  units : Nat
  len : Nat
  deriving DecidableEq, Repr

/-- A fibre record (R62), with what the device keeps beside it. -/
structure Fibre where
  handler : BitVec 12
  fstate : FState
  conf : Bool
  pin : Bool
  cont : Bool
  rclm : Bool
  detach : Bool
  conth : BitVec 12
  region : BitVec 16
  parent : Word
  depctr : Word
  arg : Word
  /-- Futures that it holds, once for each unit of COUNT (R71, R327). -/
  refs : List Word
  /-- The reference blocks that it holds, by number in its home tile's slot store, oldest first (R327). -/
  refBlocks : List Nat
  waitfut : Word
  kept : Option Kept
  spawnt : Word
  /-- The context bound to it: the handle and the CXD's physical address (R366). -/
  bound : Option (Word × Nat)
  /-- The chain of creations above it, nearest first (R78). -/
  creators : List Word
  /-- The completion future of its group (R79). -/
  group : Word
  /-- The sets with which its next activation acquires (R68, R417). -/
  acquires : List Sets
  pending : Option Pending
  /-- What its registered continuation will receive in `g1` and `g6`, once its future has settled (R332). -/
  settled : Option (Word × Word)
  /-- Its dependence counter's activation has not started (R65). -/
  waitsCounter : Bool
  park : Option Park
  /-- A fault that waits for a disposition (R214). -/
  fault : Option FaultRec
  /-- The record of the KV_RETRY stop for which it waits parked (R207). -/
  kvFault : Option FaultRec
  /-- The event latch of R185 is of the thread; this says which thread runs the fibre. -/
  runsOn : Option ThreadId
  deriving DecidableEq, Repr

/-- A future object (R69), with what the device keeps beside it. -/
structure Future where
  count : Nat
  fstat : FStat
  conf : Bool
  group : Bool
  result : Word
  fibre : Word
  waiters : List Word
  gleft : Nat
  gscope : BitVec 4
  /-- The sets that the launch captured; the launch is in flight until the future resolves (R170). -/
  gsets : Option Sets
  /-- The fibre that holds the completion future, or null for the region (R325). -/
  detach : Bool
  /-- The launch's dependence counter, by physical address (R325). -/
  counter : Option Nat
  members : List Word
  region : BitVec 16
  /-- Members become ready when the counter reaches zero (R79). -/
  released : Bool
  deriving DecidableEq, Repr

/-- A slot of a tile (R60). -/
structure Slot where
  gen : BitVec 24
  fibre : Option Fibre
  future : Option Future
  deriving DecidableEq, Repr

/-- An entry of a ready queue (R85). -/
structure ReadyEntry where
  handle : Word
  prio : BitVec 3
  pin : Bool
  enq : BitVec 48
  deriving DecidableEq, Repr

/-- What a message is to the machine. -/
inductive MsgKind where
  | plain | host | debug
  /-- A fault record or DEAD_LETTER message to a system handler. -/
  | system
  /-- A regeneration request for a context (R207). -/
  | regen (cxd : Nat)
  deriving DecidableEq, Repr

/-- A message on its way or in a queue (R312 to R314, R44). -/
structure Message where
  uid : Nat
  kind : MsgKind
  msgid : Word
  dest : Word
  arg : Word
  cls : BitVec 2
  region : BitVec 16
  len : Nat
  payload : List Byte
  xform : Word
  /-- The sets of the send scope (R170). -/
  sets : Option Sets
  /-- The colour of the sender's region (R219); none for host, peer, debug and dead-letter messages. -/
  colour : Option Bool
  deriving DecidableEq, Repr

/-- A message in an inbound queue (R94, R99, R100, R121, R220). -/
structure Inbound where
  msg : Message
  unit : Nat
  units : Nat
  len : Nat
  arrival : BitVec 48
  /-- The fibre whose activation the message started: it runs, or it is parked or waits for a disposition. -/
  holder : Word
  running : Bool
  held : Bool
  after : Bool
  cut : Bool
  deriving DecidableEq, Repr

/-- A decrement on its way (R67, R326). -/
structure Decrement where
  /-- Its place among messages and decrements, by which per-pair order is kept (R27). -/
  uid : Nat
  handle : Word
  k : Nat
  region : BitVec 16
  src : BitVec 10
  sets : Option Sets
  colour : Option Bool
  deriving DecidableEq, Repr

/-- A line of the first-level data cache or of the instruction cache: its line number and its bytes (R109, R254). -/
structure CacheLine where
  line : Nat
  data : BitVec 1024
  deriving DecidableEq, Repr

/-- A line of a tile's instruction cache, with the regions whose fetches have met it there (R254). -/
structure CodeLine where
  line : Nat
  data : BitVec 1024
  regions : List (BitVec 16)
  deriving DecidableEq, Repr

/-- A range entry (R128). -/
structure RangeEntry where
  vbase : Nat
  limit : Nat
  offset : Word
  permR : Bool
  permW : Bool
  permX : Bool
  priv : Bool
  shared : Bool
  cow : Bool
  vol : Bool
  tiered : Bool
  forwarding : Bool
  gen : BitVec 24
  fscope : BitVec 4
  rtag : BitVec 16
  owner : Word
  fbase : Nat
  foff : Word
  btier : BitVec 2
  baddr : BitVec 48
  deriving DecidableEq, Repr

/-- The attention snapshot of a context (R193, R371). -/
structure Snapshot where
  valid : Nat
  starts : List Nat
  prolens : List Nat
  fsers : List Nat
  spans : List (Nat × Nat)
  deriving DecidableEq, Repr

/-- The translation of the 4 KiB of an operand that a command streams now (R131): whether it writes them, the number of
the 4 KiB in the virtual space, and the entry. -/
structure Page where
  write : Bool
  page : Nat
  entry : RangeEntry
  deriving DecidableEq, Repr

/-- An engine command that has been issued and has not finished (R114, R117, R427). -/
structure Cmd where
  number : Word
  thr : BitVec 3
  ctx : BitVec 2
  running : Bool
  insn : Instr
  issueCyc : Word
  icnt : Word
  fibre : Word
  /-- The issuing fibre and those above it in the chain of creations (R78). -/
  who : List Word
  msgid : Word
  conf : Bool
  region : BitVec 16
  /-- The effective values of the activation that issued it (R58). -/
  eff : Eff
  /-- The values of its register operands at issue: d, d + 1, a, b and b + 1. -/
  opd : Word
  opd1 : Word
  opa : Word
  opb : Word
  opb1 : Word
  /-- Its descriptor, read at issue. -/
  desc : List Byte
  sets : Option Sets
  /-- Tags of the tile registers it reads, at issue (R356). -/
  tags : List (BitVec 4)
  /-- Intervals of the tile's own array that it reads and writes, registers included (R117). -/
  reads : List (Nat × Nat)
  writes : List (Nat × Nat)
  /-- The vector register, and whether `p7`, that it writes when it finishes (R356). -/
  vdst : Option (BitVec 5)
  p7dst : Bool
  snapshot : Option Snapshot
  /-- Bytes of destination written so far, or the steps done. -/
  progress : Nat
  /-- The model's own: where its last write ended, and the poison marks of the bytes just before, for a unit that several
  writes fill (R425). -/
  trail : Nat × List Bool
  /-- The use-once lines that it has read, by base: a command is one read of them, and they leave as it finishes (R156). -/
  once : List Nat
  /-- What a `cpy.t` or a decoding `promo` has made of its input (R389, R395): the output with its poison, why it ended
  early (R124), and whether all of the input was read. -/
  output : Option (List (Byte × Bool) × Nat × Bool)
  /-- Its issuer has been reclaimed (R75). -/
  cancelled : Bool
  /-- The activation that issued it still runs (R207, R356). -/
  owned : Bool
  /-- A `coll` or `ring` command has emitted its part (R220, R392, R393). -/
  emitted : Bool
  /-- The 4 KiB of its operands that it has translated and not finished (R131). -/
  pages : List Page
  /-- The blocks whose eviction an `evict` waits for, by physical address, and whether one was refused (R396). -/
  blocks : List Nat
  skipped : Bool
  deriving DecidableEq, Repr

/-- A copy channel: its word (R119), and whose turn it is (R116). -/
structure Channel where
  wp : BitVec 56
  thr : BitVec 3
  act : Bool
  stop : Bool
  mov : Bool
  /-- The thread whose command it ran last, none where it has run none: the other thread's turn comes next (R116). -/
  last : Option (BitVec 3)
  deriving DecidableEq, Repr

/-- A watch pair (R226). -/
structure WatchPair where
  addr : BitVec 52
  sz : BitVec 4
  rd : Bool
  wr : Bool
  amo : Bool
  eng : Bool
  region : BitVec 16
  en : Bool
  deriving DecidableEq, Repr

/-- The cut state of a region on a tile (R219). -/
structure CutState where
  colour : Bool
  stopped : Bool
  sent0 : BitVec 32
  sent1 : BitVec 32
  recv0 : BitVec 32
  recv1 : BitVec 32
  stopcyc : Word
  deriving DecidableEq, Repr

/-- A tile (R103 to R124). -/
structure Tile where
  threads : Vector Thread 8
  tregs : BitVec 5
  accs : BitVec 3
  lzb : BitVec 6
  /-- The first-level data cache (R109). -/
  l1 : List CacheLine
  /-- The instruction cache (R254). -/
  icache : List CodeLine
  /-- The range table, most recently used first (R131). -/
  rtable : List RangeEntry
  inbound : Vector (List Inbound) 4
  ready : List ReadyEntry
  backlog : List Nat
  cursor : Nat
  /-- The cycle before which the tile does not steal again (R92). -/
  stealAt : Nat
  cmds : List Cmd
  channels : Vector Channel 4
  nerr : BitVec 32
  lkind : BitVec 4
  lwhy : BitVec 4
  slots : List (Nat × Slot)
  /-- Messages flushed since READY (R314). -/
  seq : BitVec 46
  cuts : List (Nat × CutState)
  watch : Vector WatchPair 4
  rotS : BitVec 3
  rotV : BitVec 3
  deriving DecidableEq, Repr

/-- A forward record at a home (R140): the old physical lines from `lo` to `hi`, and the offset of the new image. -/
structure ForwardRec where
  region : BitVec 16
  vbase : Nat
  step : Nat
  lo : Nat
  hi : Nat
  foff : Word
  deriving DecidableEq, Repr

/-- A use-once line of a cluster memory (R156): its base, the region whose `promo` wrote it, and the 128 bytes and the
poison that HBM held before. -/
structure OnceLine where
  base : Nat
  region : BitVec 16
  below : BitVec 1024
  poisoned : Bool
  deriving DecidableEq, Repr

/-- A cluster memory (R145): its cluster's ready queue, its watch pairs, its forward records, its normal lines (line
base and whether it is dirty, most recently used first) and its use-once lines. `high` is the most lines that it has held
since READY: what lies beyond them still holds the zeros of R32. -/
structure Cmem where
  queue : List ReadyEntry
  watch : Vector WatchPair 4
  forward : List ForwardRec
  lines : List (Nat × Bool)
  useOnce : List OnceLine
  high : Nat
  deriving DecidableEq, Repr

/-- A batch of 64 blocks that a store room has borrowed from a peer die, or lent to it (R158, R427). -/
structure Batch where
  peer : BitVec 2
  base : Nat
  deriving DecidableEq, Repr

/-- An allocated run of a store room: its first block by physical block number, its order, and whether it is of
the region's node pool (R157, R424). -/
structure Run where
  first : Nat
  order : Nat
  deriving DecidableEq, Repr

/-- A compute die: its ready queue and its store room (R84, R157 to R159). Blocks are numbered by physical address
divided by 64 KiB. -/
structure Die where
  queue : List ReadyEntry
  reserve : BitVec 22
  nolend : Bool
  /-- Free runs: first block and order. -/
  freeRuns : List Run
  allocated : List Run
  borrowed : List Batch
  lent : List Batch
  refused : BitVec 16
  /-- The cycle before which it does not ask for a batch again (R158). -/
  askAt : Nat
  /-- The order that a compaction asked for runs toward (R143, R404). -/
  compact : Option (BitVec 5)
  deriving DecidableEq, Repr

/-- One tile's share of a loaded region (R15, R16, R204, R413). -/
structure RegionTile where
  tile : BitVec 10
  /-- Bytes of kept space: kept regions, loader contexts and context area. -/
  kept : Nat
  /-- Offset of the context area, after kept regions and loader contexts. -/
  area : Nat
  deriving DecidableEq, Repr

/-- A context slot of a tile's context area, or a loader context (R204, R413): the CXD's physical address, the
slab slot (R426), the run that holds the slab, the parent, and the owner that has ended (R188, R415). -/
structure CtxSlot where
  cxd : Nat
  loader : Bool
  slabSlot : Nat
  /-- The runs of the store rooms that hold the slab: one, unless parts of it have been moved away. -/
  slab : List (BitVec 2 × Run)
  /-- The physical address of the parent's CXD; 0 if there is none. -/
  parent : Nat
  /-- The owner that has ended, whose engine commands the removal of the slab waits for; 0 if none has. -/
  ended : Word
  deriving DecidableEq, Repr

/-- What a switch-out saves of one tile for a region (R223). -/
structure SavedTile where
  tile : BitVec 10
  tregs : BitVec 5
  accs : BitVec 3
  lzb : BitVec 6
  /-- Suspended threads, by thread index. -/
  threads : List (BitVec 3 × Thread)
  /-- Array bytes: kept regions, registers of the threads and payloads, by array offset. -/
  bytes : List Image
  rtable : List RangeEntry
  /-- Its scope copies; they are not restored, since a switch-in reads the table afresh (R223). -/
  scopes : List (Nat × ScopeCopy)
  inbound : List Inbound
  ready : List ReadyEntry
  backlog : List Nat
  cut : CutState
  cmds : List Cmd
  /-- Poisoned units among the saved bytes. -/
  poison : List Nat
  /-- Payloads that fibres keep in the landing zone, by slot. -/
  kepts : List (Nat × Kept)
  deriving DecidableEq, Repr

/-- A loaded region, as the device knows it (R57, R58). Its RCB lies in memory. -/
structure Region where
  rcb : Nat
  root : BitVec 12
  handlers : List HandlerDecl
  tiles : List RegionTile
  tregs : BitVec 5
  accs : BitVec 3
  lzb : BitVec 6
  forks : Nat
  slabwin : Nat
  slablog : Nat
  nctx : Nat
  ctxs : List CtxSlot
  scopes : List (Nat × ScopeCopy)
  /-- Blocks of the node pool, and its free units by physical address (R424). -/
  pool : List (BitVec 2 × Run)
  freeUnits : List Nat
  freeHalves : List Nat
  /-- A stop of the region's group is under way, and the mailbox FREEZE that waits for it (R218, R221). -/
  stopping : Bool
  /-- A THAW has been asked for before the cut closed. -/
  thawing : Bool
  /-- A freeze has been asked for after that THAW: once it has taken place, the group stops again. -/
  again : Bool
  /-- It is frozen: the cut has closed (R221). -/
  frozen : Bool
  /-- It has been switched out (R223). -/
  saved : Option (List SavedTile)
  /-- Its RCB has RSTATE 2 (R57). -/
  unloading : Bool
  deriving DecidableEq, Repr

/-- State of a block of a TIERED range (R152, R153). -/
inductive BState where
  | nonres | fetching | resident | evicting
  deriving DecidableEq, Repr

/-- The residency that the home of a block keeps (R152, R153), with what finds the block's bit and backing copy. -/
structure Block where
  region : BitVec 16
  state : BState
  pins : Nat
  dirty : Bool
  evictPending : Bool
  promoPending : Bool
  btier : BitVec 2
  backing : Nat
  /-- The virtual address of the block in its region, by which its leaf is found (R133). -/
  va : Nat
  deriving DecidableEq, Repr

/-- Who moves a range (R139, R143, R200). -/
inductive Mover where
  | command (tile : BitVec 10) (thread : BitVec 3) (number : Word)
  | growth (cxd : Nat)
  | compaction (die : BitVec 2)
  deriving DecidableEq, Repr

/-- A move of a range under way (R139, R140). -/
structure Move where
  region : BitVec 16
  vbase : Nat
  limit : Nat
  oldOff : Word
  newOff : Word
  fbase : Nat
  sets : Sets
  mover : Mover
  tile : BitVec 10
  /-- The runs that are freed as the move ends. -/
  oldRun : List (BitVec 2 × Run)
  newRun : Option (BitVec 2 × Run)
  newLimit : Nat
  /-- The channel runs the move (R120). -/
  started : Bool
  deriving DecidableEq, Repr

/-- A store that its thread has issued and its home has not performed (R160, R161, R165); `vol` marks a volatile one,
which stays in the thread's order of volatile accesses (R166). -/
structure Access where
  tile : BitVec 10
  thread : BitVec 3
  fibre : Word
  msgid : Word
  region : BitVec 16
  icnt : Word
  va : Nat
  pa : Nat
  data : List Byte
  vol : Bool
  /-- The sets that a releasing store captured: it is in flight until it has been performed (R170). -/
  sets : Option Sets
  deriving DecidableEq, Repr

/-- A PRIVATE range whose owner has ended, still to be passed on or removed, or the slab of a context that has been
freed, still to be removed (R188, R415). -/
structure Release where
  region : BitVec 16
  vbase : Nat
  owner : Word
  heir : Word
  /-- It is the slab of a context, which only ceases to be PRIVATE (R188). -/
  slab : Bool
  /-- The CXD of the freed context whose slab it was. -/
  freed : Option Nat
  deriving DecidableEq, Repr

/-- Where a tile's slots lie in HBM (R60, R327): the physical address of slot 0, each slot a fibre record and a future
object of 64 bytes, and the number of reference blocks of 64 bytes that follow the 4,096 slots. `used` are the blocks that
a fibre has held since READY: the others still hold the zeros of R32. -/
structure SlotStore where
  base : Nat
  blocks : Nat
  used : List Nat
  deriving DecidableEq, Repr

/-- Flits that wait at the hub for one window slot (R44, R45). -/
structure Assembly where
  slot : Nat
  header : List Byte
  payload : List Byte
  since : Nat
  deriving DecidableEq, Repr

/-- A gang slot (R54): STATE, CAUSE, the tick and the staged flit. -/
structure Gang where
  state : BitVec 2
  cause : BitVec 4
  tick : Word
  staged : List (Nat × Byte)
  deriving DecidableEq, Repr

/-- A letter of the device's own dead-letter queue, or a kept debug record (R83, R217): 64 bytes. -/
abbrev Letter := List Byte

/-- The hub die and the attic (R28 to R56). -/
structure Hub where
  ready : Bool
  fail : Bool
  phase : BitVec 4
  failstep : BitVec 4
  /-- The stop temperature has been reached since reset (R56). -/
  hot : Bool
  tsync : Bool
  early : Bool
  hmerr : Bool
  linkup : BitVec 16
  driveup : BitVec 16
  devnum : BitVec 8
  routes : List Route
  hmdrop : Word
  gangs : Vector Gang 8
  assemblies : List Assembly
  /-- Hub message ids assigned (R314). -/
  seq : BitVec 46
  mbxSeq : BitVec 16
  mbxBusy : Bool
  mbxDone : Bool
  mbxOvr : Bool
  mbxStatus : BitVec 8
  /-- The sequence number of the doorbell being served. -/
  mbxPending : Option (BitVec 16)
  request : List (Nat × Byte)
  response : List (Nat × Byte)
  /-- How often each MSI-X vector has been raised since reset (R40). -/
  msix : Vector Nat 16
  /-- Flits that wait for room in the hub buffer, oldest first, each with its window slot; 1024 stands for the flit of a
  gang slot, which is a message by itself (R47, R55). -/
  stalled : List (Nat × List Byte)
  /-- The attic runs its kernel (step 2 has succeeded). -/
  attic : Bool
  /-- The host range table, by entry number (R151). -/
  ranges : List (Nat × RangeEntry)
  /-- The bytes that the last host access of device memory returned, none for a poisoned one (R150, R151). -/
  hostRead : Option (List Byte)
  letters : List Letter
  debugs : List Letter
  /-- Image slots A and B, the active one, and the fused counter (R37, R38). -/
  slotA : List (Nat × Byte)
  slotB : List (Nat × Byte)
  activeB : Bool
  /-- The attic kernel that runs came from slot B (R33). -/
  runsB : Bool
  /-- The bytes of the image slot from which step 2 booted (R33, R39). -/
  runImage : List (Nat × Byte)
  counter : Nat
  /-- Drives that passed step 7, in port order, and the cellar's capacity (R36). -/
  drives : List Nat
  cellarBytes : Nat
  /-- The region whose FREEZE or THAW the mailbox serves, and whether it is a THAW. -/
  freezing : Option (BitVec 16)
  mbxThaw : Bool
  /-- The status with which the attic kernel answered the last load of a region (R57). -/
  loadStatus : Option (BitVec 8)
  deriving DecidableEq, Repr

/-- The module. -/
structure State where
  /-- The model's own: what moves next. Empty, the machine's own policy chooses (`nextAct`). -/
  agenda : List Act
  /-- The model's own: the thread whose instruction `exec` performs. -/
  cur : ThreadId
  /-- The model's own: the effective values with which the activation or command that acts now started, none where
  no activation acts (R58). -/
  acting : Option Eff
  /-- The model's own: choices that the spec leaves open, counted. -/
  draws : Nat
  /-- The model's own: identities of messages. -/
  uids : Nat
  cyc : Word
  time : Word
  /-- Millionths of a tick that have passed beyond TIME, the clock in MHz, and the rate adjustment (R53, R56). -/
  timeFrac : Nat
  clockMHz : Nat
  ppm : Int
  synced : Bool
  hub : Hub
  mem : List Host.Cell
  cellar : List Host.Cell
  /-- Poisoned units: the base of a 32-byte unit of an array, or of a 128-byte line (R26, R108, R146). -/
  poison : List Nat
  /-- Lines of host memory, by base, that count as poisoned for one access: the host did not answer it (R149). -/
  unanswered : List Nat
  /-- Lines of device memory, by base, that the host holds (R150). -/
  hostLines : List Nat
  tiles : List (Nat × Tile)
  cmems : List (Nat × Cmem)
  dies : Vector Die 4
  regions : List (Nat × Region)
  blocks : List (Nat × Block)
  moves : List Move
  /-- Forward records at homes that are no cluster memories (R140). -/
  forward : List ForwardRec
  inflight : List Access
  net : List Message
  decs : List Decrement
  /-- Decrements that have reached a stopped tile, in the order of their arrival; they are applied at THAW (R220). -/
  heldDecs : List Decrement
  /-- Blocks of 64 KiB of backing copies that a failed write-back has poisoned: host or cellar, and address (R153). -/
  badBacking : List (BitVec 2 × Nat)
  /-- Where each tile's slots lie (R60), by tile. -/
  slotStores : List (Nat × SlotStore)
  /-- Messages that have left for peer devices (R28). -/
  outbox : List Message
  reclaims : List Word
  releases : List Release
  deriving DecidableEq, Repr

/-- A context of R114 after READY. -/
def EngineCtx.reset : EngineCtx := ⟨0, 0, 0, 0⟩

/-- A fault record that nothing has written (R213). -/
def FaultRec.reset : FaultRec := ⟨0, 0, 0, 0, 0, false, 0, 0, 0, 0, 0, 0, 0⟩

/-- A thread that has run no activation. R17 gives the registers at activation; before the first one they are
zero here (DESIGN CHOICE, log 1). -/
def Thread.reset : Thread where
  g := Vector.replicate 32 0
  v := Vector.replicate 32 0
  vtag := Vector.replicate 32 0
  m := (Vector.replicate 8 (0 : Word)).set 0 (BitVec.allOnes 64)
  p := 1
  ttag := Vector.replicate 16 0
  tshape := Vector.replicate 16 0x807F
  latch := false
  pc := 0
  engines := Vector.replicate 4 EngineCtx.reset
  active := false
  suspended := false
  hold := .free
  insn := 0
  counted := false
  polls := 0
  region := 0
  handler := 0
  fibre := 0
  msgid := 0
  start := .first
  pend := none
  payAddr := 0
  payLen := 0
  keeps := false
  fons := false
  made := []
  sends := []
  readers := []
  deferred := []
  icnt := 0
  wdUsed := 0
  eff := Eff.reset
  skid := []
  record := FaultRec.reset
  captured := none
  stepFault := none
  recording := none

/-- A watch pair after reset (R226): SZ is 3. -/
def WatchPair.reset : WatchPair := ⟨0, 3, false, false, false, false, 0, false⟩

/-- A channel after reset (R119). -/
def Channel.reset : Channel := ⟨0, 0, false, false, false, none⟩

/-- A cut state that counts nothing (R219). -/
def CutState.reset : CutState := ⟨false, false, 0, 0, 0, 0, 0⟩

/-- A tile after reset (R104, R119, R124, R219, R226): LZB is 8, every queue and table is empty. R88 has the scan of the
backlog start after the slot that was taken last, and R96 has the thread after the one that its slot served last go first;
neither gives a first value. Here the scan starts at slot 0, and both slots have served thread 0 last (DESIGN CHOICE, log
71). -/
def Tile.reset : Tile where
  threads := Vector.replicate 8 Thread.reset
  tregs := 0
  accs := 0
  lzb := 8
  l1 := []
  icache := []
  rtable := []
  inbound := Vector.replicate 4 []
  ready := []
  backlog := []
  cursor := 0
  stealAt := 0
  cmds := []
  channels := Vector.replicate 4 Channel.reset
  nerr := 0
  lkind := 0
  lwhy := 0
  slots := []
  seq := 0
  cuts := []
  watch := Vector.replicate 4 WatchPair.reset
  rotS := 0
  rotV := 0

/-- A slot that has never been freed: its generation is 1 (DESIGN CHOICE, log 2). -/
def Slot.reset : Slot := ⟨1, none, none⟩

/-- A cluster memory after reset. -/
def Cmem.reset : Cmem := ⟨[], Vector.replicate 4 WatchPair.reset, [], [], [], 0⟩

/-- A die after reset (R159): RESERVE is 1,024, no block is held. -/
def Die.reset : Die := ⟨[], 1024, false, [], [], [], [], 0, 0, none⟩

/-- A gang slot after reset (R54). -/
def Gang.reset : Gang := ⟨0, 0, 0, []⟩

/-- The hub and the attic after reset (R42, R43, R49, R54). The flash and the fuses survive a reset (R34); after
power-on both image slots are empty here and the counter is 0 (DESIGN CHOICE, log 3). -/
def Hub.reset : Hub where
  ready := false
  fail := false
  phase := 0
  failstep := 0
  hot := false
  tsync := false
  early := false
  hmerr := false
  linkup := 0
  driveup := 0
  devnum := 0xFF
  routes := []
  hmdrop := 0
  gangs := Vector.replicate 8 Gang.reset
  assemblies := []
  seq := 0
  mbxSeq := 0
  mbxBusy := true
  mbxDone := false
  mbxOvr := false
  mbxStatus := 0
  mbxPending := none
  request := []
  response := []
  msix := Vector.replicate 16 0
  stalled := []
  attic := false
  ranges := []
  hostRead := none
  letters := []
  debugs := []
  slotA := []
  slotB := []
  activeB := false
  runsB := false
  runImage := []
  counter := 0
  drives := []
  cellarBytes := 0
  freezing := none
  mbxThaw := false
  loadStatus := none

/-- The module right after reset, before bring-up (R31, R34, R42). -/
def State.reset : State where
  agenda := []
  cur := ⟨0, 0⟩
  acting := none
  draws := 0
  uids := 0
  cyc := 0
  time := 0
  timeFrac := 0
  clockMHz := 1200
  ppm := 0
  synced := false
  hub := Hub.reset
  mem := []
  cellar := []
  poison := []
  unanswered := []
  hostLines := []
  tiles := []
  cmems := []
  dies := Vector.replicate 4 Die.reset
  regions := []
  blocks := []
  moves := []
  forward := []
  inflight := []
  net := []
  decs := []
  heldDecs := []
  badBacking := []
  slotStores := []
  outbox := []
  reclaims := []
  releases := []

end Sys2Proof.Machine
end

