-- ==== Sys2Proof/Machine/Sparse.lean ====
section
/-! DEFINITION. Sparse tables as sorted lists of key and value, and physical memory as such a table whose unlisted
bytes read zero (R32 gives zero for HBM, cluster memories and tile SRAM at READY). -/

namespace Sys2Proof.Machine

/-- The value at a key, or the default of an unlisted key. -/
def mget {α : Type} (d : α) : List (Nat × α) → Nat → α
  | [], _ => d
  | (j, a) :: r, k => if j = k then a else mget d r k

/-- The value at a key, if it is listed. -/
def mfind {α : Type} : List (Nat × α) → Nat → Option α
  | [], _ => none
  | (j, a) :: r, k => if j = k then some a else mfind r k

/-- The table with a value at a key. -/
def mset {α : Type} : List (Nat × α) → Nat → α → List (Nat × α)
  | [], k, a => [(k, a)]
  | (j, b) :: r, k, a =>
    if k < j then (k, a) :: (j, b) :: r
    else if k = j then (k, a) :: r
    else (j, b) :: mset r k a

/-- The table without a key. -/
def mdel {α : Type} : List (Nat × α) → Nat → List (Nat × α)
  | [], _ => []
  | (j, b) :: r, k => if j = k then mdel r k else (j, b) :: mdel r k

/-- What an unlisted byte of memory reads as. -/
def unlistedByte : Byte := 0

/-- A byte of memory. -/
def readByte (m : List Host.Cell) (a : Nat) : Byte := mget unlistedByte m a

/-- Memory with a byte written. Writing what an unlisted byte reads as removes the entry. -/
def writeByte (m : List Host.Cell) (a : Nat) (b : Byte) : List Host.Cell :=
  if b = unlistedByte then mdel m a else mset m a b

/-- n bytes of memory from an address upward. -/
def readBytes (m : List Host.Cell) (a n : Nat) : List Byte :=
  (List.range n).map fun i => readByte m (a + i)

/-- Memory with bytes written from an address upward. -/
def writeBytes (m : List Host.Cell) (a : Nat) : List Byte → List Host.Cell
  | [] => m
  | b :: bs => writeBytes (writeByte m a b) (a + 1) bs

/-- A little-endian number of n bytes (R24). -/
def readNat (m : List Host.Cell) (a n : Nat) : Nat := leNat (readBytes m a n)

/-- Memory with a little-endian number of n bytes written (R24). -/
def writeNat (m : List Host.Cell) (a n v : Nat) : List Host.Cell := writeBytes m a (leBytes n v)

/-- Memory whose bytes from lo to hi - 1 all read zero. -/
def zeroBytes (m : List Host.Cell) (lo hi : Nat) : List Host.Cell :=
  m.filter fun c => c.1 < lo || hi ≤ c.1

/-- The canonical form: addresses strictly rising, and no entry that an unlisted byte would read as. -/
abbrev Memory.wf (m : List Host.Cell) : Prop :=
  m.Pairwise (fun x y => x.1 < y.1) ∧ ∀ c ∈ m, c.2 ≠ unlistedByte

/-- Bits h down to l of a word, as a number (R24). -/
def bits (w : Word) (h l : Nat) : Nat := w.toNat / 2 ^ l % 2 ^ (h + 1 - l)

/-- One bit of a word. -/
def bit (w : Word) (i : Nat) : Bool := w.toNat.testBit i

/-- A number with its bits h down to l replaced. -/
def setBits (w h l v : Nat) : Nat :=
  w - (w / 2 ^ l % 2 ^ (h + 1 - l)) * 2 ^ l + v % 2 ^ (h + 1 - l) * 2 ^ l

/-- A truth value as a number. -/
def nb (b : Bool) : Nat := if b then 1 else 0

/-- The word of a number, modulo 2^64. -/
def wd (n : Nat) : Word := BitVec.ofNat 64 n

/-- A list with an element inserted in rising order, once. -/
def insertNat : List Nat → Nat → List Nat
  | [], k => [k]
  | j :: r, k => if k < j then k :: j :: r else if k = j then j :: r else j :: insertNat r k

/-- A list with the first element that satisfies a test replaced. -/
def replaceFirst {α : Type} (p : α → Bool) (f : α → α) : List α → List α
  | [] => []
  | x :: r => if p x then f x :: r else x :: replaceFirst p f r

/-- A list without the first element that satisfies a test. -/
def removeFirst {α : Type} (p : α → Bool) : List α → List α
  | [] => []
  | x :: r => if p x then r else x :: removeFirst p r

/-- The element of a list that a measure makes greatest, the first among equal ones. -/
def best {α : Type} (better : α → α → Bool) : List α → Option α
  | [] => none
  | x :: r => match best better r with
    | none => some x
    | some y => if better y x then some y else some x

/-- An element inserted in a sorted list, before the first that it goes before. -/
def insertBy {α : Type} (le : α → α → Bool) (x : α) : List α → List α
  | [] => [x]
  | y :: r => if le x y then x :: y :: r else y :: insertBy le x r

/-- A list sorted; equal elements keep their order. -/
def sortBy {α : Type} (le : α → α → Bool) (l : List α) : List α := l.foldr (insertBy le) []

end Sys2Proof.Machine
end

