-- ==== Sys2Proof/Machine/Causes.lean ====
section
/-! DEFINITION. The codes and fates of the causes (R216, R217). -/

namespace Sys2Proof.Machine

/-- The fates of R217. -/
inductive Fate where
  | s | p | k | w | d | f | n
  deriving DecidableEq, Repr

/-- The code of a cause (R217). -/
def causeCode : Cause → BitVec 8
  | .zeroHalfword => 0x00
  | .reservedMajor => 0x01
  | .reservedMinor => 0x02
  | .reservedField => 0x03
  | .privileged => 0x04
  | .carveBusy => 0x05
  | .misalignedTarget => 0x06
  | .sysregInvalid => 0x07
  | .trap => 0x08
  | .breakpoint => 0x09
  | .watchHit => 0x0A
  | .stepDone => 0x0B
  | .doubleFault => 0x0C
  | .tagMismatch => 0x10
  | .tagUnsupported => 0x11
  | .shapeMismatch => 0x12
  | .formatOperand => 0x13
  | .roundMode => 0x14
  | .laneIndex => 0x15
  | .rangeNone => 0x20
  | .permRead => 0x21
  | .permWrite => 0x22
  | .permExec => 0x23
  | .cow => 0x24
  | .partialResidency => 0x25
  | .misaligned => 0x26
  | .poison => 0x27
  | .privateOwner => 0x28
  | .rangeOverlap => 0x29
  | .treeMalformed => 0x2A
  | .scopeFree => 0x30
  | .scopeRetired => 0x31
  | .barOverrun => 0x33
  | .barTimeout => 0x34
  | .watchdog => 0x40
  | .specHold => 0x41
  | .deadLetter => 0x42
  | .futureStale => 0x43
  | .handleInvalid => 0x44
  | .notHolder => 0x45
  | .sendInvalid => 0x46
  | .payloadLength => 0x47
  | .fputForeign => 0x48
  | .contBusy => 0x49
  | .frameOverflow => 0x50
  | .frameUnderflow => 0x51
  | .frameNotTop => 0x52
  | .frameSharedWrite => 0x53
  | .argSpanInvalid => 0x54
  | .resultSpanInvalid => 0x55
  | .kvRetry => 0x56
  | .ctxStale => 0x57
  | .slabFull => 0x58
  | .drawEmptySet => 0x59
  | .maskMissing => 0x5A

/-- The fate of a cause (R217). -/
def causeFate : Cause → Fate
  | .breakpoint => .d
  | .watchHit => .d
  | .stepDone => .n
  | .doubleFault => .f
  | .partialResidency => .p
  | .watchdog => .w
  | .specHold => .p
  | .deadLetter => .n
  | .kvRetry => .k
  | _ => .s

/-- The number of a fate in a fault record (R213). -/
def fateCode : Fate → BitVec 3
  | .s => 0
  | .p => 1
  | .k => 2
  | .w => 3
  | .d => 4
  | .f => 5
  | .n => 6

end Sys2Proof.Machine
end

