-- ==== Sys2Proof/Machine/Homes.lean ====
section
/-! DEFINITION. The physical map and the homes (R25, R103, R106, R126, R144, R147), and the check-code units whose
poison the machine keeps (R26, R108, R146). -/

namespace Sys2Proof.Machine

/-- The bytes of one die's HBM (R126). -/
def dieBytes : Nat := 0x3C00000000

/-- One past the last byte of HBM (R126). -/
def hbmEnd : Nat := 0xF000000000

/-- The base of the tile arrays in the physical map (R126). -/
def arrayBase : Nat := 0x100000000000

/-- One past the tile arrays' part of the physical map. -/
def arrayEnd : Nat := 0x100100000000

/-- The base of host memory (R126). -/
def hostBase : Nat := 0x8000000000000

/-- The base of the scratchpad window in every region's virtual space (R125). -/
def windowBase : Nat := 0x00FFFFFF00000000

/-- Tile i's part of the physical map (R126). -/
def tileBase (i : Nat) : Nat := arrayBase + i * 0x400000

/-- Offset of the dependence-counter store in a tile's part of the physical map (R106). -/
def counterOff : Nat := 0x300000

/-- Where an access is performed (R144). -/
inductive Home where
  | tile (i : Nat)
  | cmem (c : Nat)
  | host
  deriving DecidableEq, Repr

/-- The exclusive or of the eight 4-bit fields of a line number (R147). -/
def lineHash (line : Nat) : Nat :=
  (List.range 8).foldl (fun c j => c ^^^ (line / 2 ^ (4 * j) % 16)) 0

/-- The cluster memory of an HBM address (R147). -/
def hbmHome (pa : Nat) : Nat :=
  let d := pa / dieBytes
  let q := pa - d * dieBytes
  d * 16 + lineHash (q / 128)

/-- The home of a physical address, or none where there is no memory (R126, R144). -/
def home? (pa : Nat) : Option Home :=
  if pa < hbmEnd then some (.cmem (hbmHome pa))
  else if arrayBase ≤ pa ∧ pa < arrayEnd then some (.tile ((pa - arrayBase) / 0x400000))
  else if hostBase ≤ pa ∧ pa < 2 * hostBase then some .host
  else none

/-- The home is in a home set (R167, R168). -/
def Home.mem (h : Home) (s : Sets) : Bool :=
  match h with
  | .tile i => s.spads.getLsbD i
  | .cmem c => s.cmem.getLsbD c
  | .host => s.host

/-- The base of the check-code unit that holds a byte: 32 bytes of an array, or a line of 128 (R26, R108). -/
def unitBase (pa : Nat) : Nat :=
  if arrayBase ≤ pa ∧ pa < arrayEnd then pa / 32 * 32 else pa / 128 * 128

/-- The size of the check-code unit that holds a byte. -/
def unitSize (pa : Nat) : Nat :=
  if arrayBase ≤ pa ∧ pa < arrayEnd then 32 else 128

/-- A poisoned unit holds one of n bytes. -/
def poisoned (poison : List Nat) (pa n : Nat) : Bool :=
  poison.any fun u => decide (u < pa + n) && decide (pa < u + unitSize u)

/-- The first of n bytes that a poisoned unit holds. -/
def firstPoison (poison : List Nat) (pa n : Nat) : Option Nat :=
  (List.range n).find? fun i => poisoned poison (pa + i) 1

/-- Poison after a write of n bytes: the units that the write covers whole are no longer poisoned (R108, R146). -/
def clearPoison (poison : List Nat) (pa n : Nat) : List Nat :=
  poison.filter fun u => !(decide (pa ≤ u) && decide (u + unitSize u ≤ pa + n))

/-- Poison with the units that hold n bytes marked. -/
def markPoison (poison : List Nat) (pa n : Nat) : List Nat :=
  (List.range n).foldl (fun p i => insertNat p (unitBase (pa + i))) poison

/-- A cluster memory with its cluster's queue (R25, R84). -/
def State.cmem (s : State) (c : Nat) : Cmem := mget Cmem.reset s.cmems c

/-- The state with a cluster memory changed. -/
def State.modCmem (s : State) (c : Nat) (f : Cmem → Cmem) : State :=
  { s with cmems := mset s.cmems c (f (mget Cmem.reset s.cmems c)) }

/-- The lines of 128 bytes of HBM that n bytes touch, by their base. -/
def hbmLines (pa n : Nat) : List Nat :=
  if hbmEnd ≤ pa || n = 0 then []
  else (List.range ((pa + n - 1) / 128 + 1 - pa / 128)).map fun i => (pa / 128 + i) * 128

/-- A cluster memory that has performed an access to a line (R145): a normal line becomes the most recently used one,
and the least recently used one gives way where all 131,072 lines are taken. -/
def Cmem.touch (m : Cmem) (line : Nat) (wr : Bool) : Cmem :=
  if m.useOnce.any fun o => o.base = line then m
  else
    let now := (line, wr || m.lines.contains (line, true))
    let l := (now :: m.lines.filter fun x => !(x.1 = line)).take (131072 - m.useOnce.length)
    { m with lines := l, high := max m.high (l.length + m.useOnce.length) }

/-- The state in which the lines that n bytes touch have been used at their homes (R145). -/
def State.touch (s : State) (pa n : Nat) (wr : Bool) : State :=
  (hbmLines pa n).foldl (fun s l => s.modCmem (hbmHome l) fun m => m.touch l wr) s

/-- The lines that the host holds, without those of n bytes: the hub has sent BISnp for them, and the host has answered
(R150). -/
def snooped (l : List Nat) (pa n : Nat) : List Nat := l.filter fun x => !(x < pa + n && pa < x + 128)

/-- The host holds a line of n bytes (R150). -/
def State.hostHolds (s : State) (pa n : Nat) : Bool := s.hostLines.any fun x => x < pa + n && pa < x + 128

/-- The state with bytes at a physical address, as its home writes them: the lines are used and dirty (R145), and the host
holds them no longer (R150). -/
def State.poke (s : State) (pa : Nat) (bs : List Byte) : State :=
  { s.touch pa bs.length true with
      mem := writeBytes s.mem pa bs
      poison := clearPoison s.poison pa bs.length
      hostLines := snooped s.hostLines pa bs.length }

/-- The state with a little-endian number of n bytes at a physical address. -/
def State.pokeNat (s : State) (pa n v : Nat) : State := s.poke pa (leBytes n v)

/-- n bytes at a physical address, as their homes hold them. -/
def State.peek (s : State) (pa n : Nat) : List Byte := readBytes s.mem pa n

/-- A little-endian number of n bytes at a physical address. -/
def State.peekNat (s : State) (pa n : Nat) : Nat := readNat s.mem pa n

/-- An eight-byte word at a physical address. -/
def State.peekWord (s : State) (pa : Nat) : Word := wd (s.peekNat pa 8)

/-- The state with bytes at a physical address poisoned. -/
def State.mark (s : State) (pa n : Nat) : State := { s with poison := markPoison s.poison pa n }

end Sys2Proof.Machine
end

