-- ==== Sys2Proof/Machine/Registers.lean ====
section
/-! DEFINITION. Tiles, threads and their registers (R11, R17, R24): the one place that reads or writes a register.
`g0` reads zero and discards writes, `p0` reads 1 and discards writes, `m0` reads all ones (R11, R263, R278). -/

namespace Sys2Proof.Machine

/-- A tile. -/
def State.tile (s : State) (i : BitVec 10) : Tile := mget Tile.reset s.tiles i.toNat

/-- The state with a tile replaced. -/
def State.setTile (s : State) (i : BitVec 10) (t : Tile) : State :=
  { s with tiles := mset s.tiles i.toNat t }

/-- The state with a tile changed. -/
def State.modTile (s : State) (i : BitVec 10) (f : Tile → Tile) : State := s.setTile i (f (s.tile i))

/-- A thread of a tile. -/
def Tile.thread (t : Tile) (h : BitVec 3) : Thread := t.threads[h.toNat]'h.isLt

/-- The tile with a thread replaced. -/
def Tile.setThread (t : Tile) (h : BitVec 3) (x : Thread) : Tile :=
  { t with threads := t.threads.set h.toNat x h.isLt }

/-- A thread. -/
def State.thread (s : State) (x : ThreadId) : Thread := (s.tile x.tile).thread x.thread

/-- The state with a thread changed. -/
def State.modThread (s : State) (x : ThreadId) (f : Thread → Thread) : State :=
  s.modTile x.tile fun t => t.setThread x.thread (f (t.thread x.thread))

/-- The thread whose instruction is performed. -/
def State.self (s : State) : Thread := s.thread s.cur

/-- The state with the thread whose instruction is performed changed. -/
def State.modSelf (s : State) (f : Thread → Thread) : State := s.modThread s.cur f

/-- A general register of a thread; `g0` reads zero. -/
def Thread.rg (t : Thread) (r : BitVec 5) : Word := if r = 0 then 0 else t.g[r.toNat]'r.isLt

/-- The thread with a general register written; `g0` discards. -/
def Thread.wg (t : Thread) (r : BitVec 5) (x : Word) : Thread :=
  if r = 0 then t else { t with g := t.g.set r.toNat x r.isLt }

/-- A predicate of a thread; `p0` reads 1. -/
def Thread.rp (t : Thread) (r : BitVec 3) : Bool := if r = 0 then true else t.p.getLsbD r.toNat

/-- The thread with a predicate written; `p0` discards. -/
def Thread.wp (t : Thread) (r : BitVec 3) (b : Bool) : Thread :=
  if r = 0 then t
  else { t with p := if b then t.p ||| ((1 : BitVec 8) <<< r.toNat) else t.p &&& ~~~((1 : BitVec 8) <<< r.toNat) }

/-- A lane mask of a thread; `m0` reads all ones. -/
def Thread.rm (t : Thread) (r : BitVec 3) : Word :=
  if r = 0 then BitVec.allOnes 64 else t.m[r.toNat]'r.isLt

/-- The thread with a lane mask written; `m0` discards. -/
def Thread.wm (t : Thread) (r : BitVec 3) (x : Word) : Thread :=
  if r = 0 then t else { t with m := t.m.set r.toNat x r.isLt }

/-- A vector register of a thread. -/
def Thread.rv (t : Thread) (r : BitVec 5) : VWord := t.v[r.toNat]'r.isLt

/-- The tag of a vector register. -/
def Thread.rtag (t : Thread) (r : BitVec 5) : BitVec 4 := t.vtag[r.toNat]'r.isLt

/-- The thread with a vector register and its tag written. -/
def Thread.wv (t : Thread) (r : BitVec 5) (x : VWord) (tag : BitVec 4) : Thread :=
  { t with v := t.v.set r.toNat x r.isLt, vtag := t.vtag.set r.toNat tag r.isLt }

/-- The tag of a tile register. -/
def Thread.rttag (t : Thread) (r : BitVec 4) : BitVec 4 := t.ttag[r.toNat]'r.isLt

/-- The shape word of a tile register (R357). -/
def Thread.rshape (t : Thread) (r : BitVec 4) : BitVec 32 := t.tshape[r.toNat]'r.isLt

/-- The thread with the tag and the shape word of a tile register written. -/
def Thread.wtile (t : Thread) (r : BitVec 4) (tag : BitVec 4) (shape : BitVec 32) : Thread :=
  { t with ttag := t.ttag.set r.toNat tag r.isLt, tshape := t.tshape.set r.toNat shape r.isLt }

/-- An engine context of a thread. -/
def Thread.engine (t : Thread) (c : BitVec 2) : EngineCtx := t.engines[c.toNat]'c.isLt

/-- The thread with an engine context replaced. -/
def Thread.setEngine (t : Thread) (c : BitVec 2) (e : EngineCtx) : Thread :=
  { t with engines := t.engines.set c.toNat e c.isLt }

/-- A general register of the current thread. -/
def State.g (s : State) (r : BitVec 5) : Word := s.self.rg r

/-- The state with a general register of the current thread written. -/
def State.setG (s : State) (r : BitVec 5) (x : Word) : State := s.modSelf fun t => t.wg r x

/-- A predicate of the current thread. -/
def State.p (s : State) (r : BitVec 3) : Bool := s.self.rp r

/-- The state with a predicate of the current thread written. -/
def State.setP (s : State) (r : BitVec 3) (b : Bool) : State := s.modSelf fun t => t.wp r b

/-- A vector register of the current thread. -/
def State.v (s : State) (r : BitVec 5) : VWord := s.self.rv r

/-- The tag of a vector register of the current thread. -/
def State.vtag (s : State) (r : BitVec 5) : BitVec 4 := s.self.rtag r

/-- The state with a vector register of the current thread written. -/
def State.setV (s : State) (r : BitVec 5) (x : VWord) (tag : BitVec 4) : State :=
  s.modSelf fun t => t.wv r x tag

/-- A lane mask of the current thread. -/
def State.m (s : State) (r : BitVec 3) : Word := s.self.rm r

/-- The state with a lane mask of the current thread written. -/
def State.setM (s : State) (r : BitVec 3) (x : Word) : State := s.modSelf fun t => t.wm r x

/-- The current thread's pc. -/
def State.pc (s : State) : Word := s.self.pc

/-- The state with the current thread's pc set. -/
def State.setPc (s : State) (a : Word) : State := s.modSelf fun t => { t with pc := a }

/-- The instruction has completed and its length is n bytes: the thread goes on after it (R253). -/
def State.advance (s : State) (n : Nat) : State :=
  s.modSelf fun t => { t with pc := t.pc + wd n, hold := .free, counted := false, polls := 0, captured := none }

/-- The instruction has completed and control goes to an address. -/
def State.jump (s : State) (a : Word) : State :=
  s.modSelf fun t => { t with pc := a, hold := .free, counted := false, polls := 0, captured := none }

/-- An inbound class queue of a tile (R94). -/
def Tile.queue (t : Tile) (c : BitVec 2) : List Inbound := t.inbound[c.toNat]'c.isLt

/-- The tile with an inbound class queue replaced. -/
def Tile.setQueue (t : Tile) (c : BitVec 2) (q : List Inbound) : Tile :=
  { t with inbound := t.inbound.set c.toNat q c.isLt }

/-- The scratchpad banks of a tile: SPB of R104. -/
def Tile.spb (t : Tile) : Nat := 384 - 16 * t.tregs.toNat - 96 * t.accs.toNat - t.lzb.toNat

/-- The CARVE register of a tile (R104). -/
def Tile.carveWord (t : Tile) : Word :=
  wd (t.tregs.toNat + t.accs.toNat * 2 ^ 5 + t.lzb.toNat * 2 ^ 8 + t.spb * 2 ^ 16)

/-- Array offset of tile register n of a thread (R103). -/
def Tile.tregOff (t : Tile) (h : BitVec 3) (n : Nat) : Nat :=
  8192 * (t.spb + t.lzb.toNat + 96 * t.accs.toNat + 2 * (t.tregs.toNat * h.toNat + n))

/-- Array offset of accumulator n of a thread (R103). -/
def Tile.accOff (t : Tile) (h : BitVec 3) (n : Nat) : Nat :=
  8192 * (t.spb + t.lzb.toNat + 12 * (t.accs.toNat * h.toNat + n))

/-- Array offset of the landing zone (R103). -/
def Tile.lzOff (t : Tile) : Nat := 8192 * t.spb

/-- Bytes of the landing zone (R104). -/
def Tile.lzBytes (t : Tile) : Nat := 8192 * t.lzb.toNat

end Sys2Proof.Machine
end

