-- ==== Sys2Proof/Machine/Regions.lean ====
section
/-! DEFINITION. Regions and their control blocks (R57 to R59): the RCB as bytes of memory, the effective values of the
inheritable fields, the frozen groups, and what a region has installed where. -/

namespace Sys2Proof.Machine

/-- A loaded region. -/
def State.region? (s : State) (r : BitVec 16) : Option Region := mfind s.regions r.toNat

/-- The state with a loaded region changed; nothing where it is not loaded. -/
def State.modRegion (s : State) (r : BitVec 16) (f : Region → Region) : State :=
  match s.region? r with
  | some x => { s with regions := mset s.regions r.toNat (f x) }
  | none => s

/-- The address of a region's RCB; 0 where it is not loaded. -/
def State.rcbOf (s : State) (r : BitVec 16) : Nat :=
  match s.region? r with
  | some x => x.rcb
  | none => 0

/-- Bits h down to l of word i of the RCB at an address (R57). -/
def State.rcbField (s : State) (rcb i h l : Nat) : Nat := bits (s.peekWord (rcb + 8 * i)) h l

/-- The state with bits h down to l of word i of an RCB replaced. -/
def State.setRcbField (s : State) (rcb i h l v : Nat) : State :=
  s.pokeNat (rcb + 8 * i) 8 (setBits (s.peekNat (rcb + 8 * i) 8) h l v)

/-- The RCBs from a region's own to its root, at most eight (R57). -/
def State.rcbPath (s : State) : Nat → Nat → List Nat
  | 0, _ => []
  | n + 1, rcb => if rcb = 0 then [] else rcb :: s.rcbPath n (s.rcbField rcb 1 63 0)

/-- The RCB that gives the effective value of inheritable field n: the nearest on the path whose OVR bit for the
field is set (R58). -/
def State.effRcb (s : State) (rcb n : Nat) : Option Nat :=
  (s.rcbPath 8 rcb).find? fun a => (s.rcbField a 0 40 32).testBit n

/-- The effective value of a field, or its default (R58). -/
def State.effField (s : State) (r : BitVec 16) (n i h l dflt : Nat) : Nat :=
  match s.effRcb (s.rcbOf r) n with
  | some a => s.rcbField a i h l
  | none => dflt

/-- The region of an RCB address, if one is loaded there. -/
def State.regionAt (s : State) (rcb : Nat) : Option (BitVec 16) :=
  match s.regions.find? fun x => x.2.rcb = rcb with
  | some x => some (BitVec.ofNat 16 x.1)
  | none => none

/-- The effective values of a region's fields as its RCBs give them now (R58). -/
def State.readEff (s : State) (r : BitVec 16) : Eff where
  region := r
  budget := s.effField r 0 2 23 0 65536
  prio := s.effField r 1 2 26 24 0
  fdom := s.effField r 2 0 31 24 0
  scopeBase := s.effField r 3 3 63 0 0
  tree := match s.effRcb (s.rcbOf r) 4 with
    | some a => (s.regionAt a).getD r
    | none => r
  rangeRoot := s.effField r 4 4 63 0 0
  wdog := s.effField r 5 5 5 0 20
  sys := (s.effRcb (s.rcbOf r) 7).map fun a =>
    (BitVec.ofNat 12 (s.rcbField a 9 11 0), BitVec.ofNat 10 (s.rcbField a 9 21 12))
  regen := (s.effRcb (s.rcbOf r) 8).map fun a =>
    (BitVec.ofNat 12 (s.rcbField a 9 43 32), BitVec.ofNat 10 (s.rcbField a 9 53 44))

/-- The effective values that hold for a region in this act: those that the activation or command which acts read when
the activation started, and for every other region, or where no activation acts, those of now (R58). -/
def State.eff (s : State) (r : BitVec 16) : Eff :=
  match s.acting with
  | some e => if e.region = r then e else s.readEff r
  | none => s.readEff r

/-- The state in which an activation or a command with these effective values acts, or none. -/
def State.actsFor (s : State) (e : Option Eff) : State := { s with acting := e }

/-- Effective BUDGET (R58). -/
def State.budget (s : State) (r : BitVec 16) : Nat := (s.eff r).budget
/-- Effective PRIO. -/
def State.prio (s : State) (r : BitVec 16) : Nat := (s.eff r).prio
/-- Effective FDOM. -/
def State.fdom (s : State) (r : BitVec 16) : Nat := (s.eff r).fdom
/-- Effective SCOPEBASE. -/
def State.scopeBase (s : State) (r : BitVec 16) : Nat := (s.eff r).scopeBase
/-- Effective RANGEROOT. -/
def State.rangeRoot (s : State) (r : BitVec 16) : Nat := (s.eff r).rangeRoot
/-- Effective SYSH; 0 where none is set. -/
def State.sysh (s : State) (r : BitVec 16) : BitVec 12 := match (s.eff r).sys with
  | some x => x.1
  | none => 0
/-- Effective SYSTILE; 0 where none is set. -/
def State.sysTile (s : State) (r : BitVec 16) : BitVec 10 := match (s.eff r).sys with
  | some x => x.2
  | none => 0
/-- The regeneration handler and its tile, if the region has one (R58). -/
def State.regen? (s : State) (r : BitVec 16) : Option (BitVec 12 × BitVec 10) := (s.eff r).regen
/-- DLQBASE, which the device reads as it writes a letter. -/
def State.dlqBase (s : State) (r : BitVec 16) : Nat := s.effField r 6 6 63 0 0
/-- DLQLOG. -/
def State.dlqLog (s : State) (r : BitVec 16) : Nat := s.effField r 6 7 4 0 0

/-- The RCB whose dead-letter queue the region uses (R58). -/
def State.dlqRcb (s : State) (r : BitVec 16) : Nat :=
  match s.effRcb (s.rcbOf r) 6 with
  | some a => a
  | none => s.rcbOf r

/-- LIVE of a region (R57). -/
def State.live (s : State) (r : BitVec 16) : Nat := s.rcbField (s.rcbOf r) 10 31 0

/-- The state with LIVE of a loaded region set. -/
def State.setLive (s : State) (r : BitVec 16) (n : Nat) : State :=
  match s.region? r with
  | some x => s.setRcbField x.rcb 10 31 0 n
  | none => s

/-- The state with LIVE raised by k. -/
def State.addLive (s : State) (r : BitVec 16) (k : Nat) : State := s.setLive r (s.live r + k)

/-- The state with LIVE lowered by 1. -/
def State.dropLive (s : State) (r : BitVec 16) : State := s.setLive r (s.live r - 1)

/-- The state with DECDROP of a loaded region raised by 1, modulo 2^32 (R57, R67). -/
def State.decDrop (s : State) (r : BitVec 16) : State :=
  match s.region? r with
  | some x => s.setRcbField x.rcb 10 63 32 (s.rcbField x.rcb 10 63 32 + 1)
  | none => s

/-- The regions that freeze with a region: those of the same effective FDOM, or the region alone where that is 0
(R59, R218). -/
def State.group (s : State) (r : BitVec 16) : List (BitVec 16) :=
  if s.fdom r = 0 then [r]
  else (s.regions.map fun x => BitVec.ofNat 16 x.1).filter fun q => s.fdom q = s.fdom r

/-- The region whose range tree a region uses: the one whose RCB gives the effective RANGEROOT (R58). It is the region
number that RTAG holds (R128). -/
def State.treeOf (s : State) (r : BitVec 16) : BitVec 16 := (s.eff r).tree

/-- A handler's entry address on a tile, if the region's own load has installed it there (R17, R18). -/
def State.ownEntry? (s : State) (r : BitVec 16) (tile : BitVec 10) (h : BitVec 12) : Option Word :=
  match s.region? r with
  | some x =>
    match x.handlers.find? fun d => d.tile = tile && d.number = h with
    | some d => some d.entry
    | none => none
  | none => none

/-- The region whose RCB gives the effective value of inheritable field n, where that is another region (R58). -/
def State.giver? (s : State) (r : BitVec 16) (n : Nat) : Option (BitVec 16) :=
  match s.effRcb (s.rcbOf r) n with
  | some a =>
    match s.regionAt a with
    | some q => if q = r then none else some q
    | none => none
  | none => none

/-- The handlers that a region shares with the regions above it: the system handler and the regeneration handler, where
their numbers and tiles are inherited, with the region that has installed each (R58). -/
def State.shared (s : State) (r : BitVec 16) : List (BitVec 16 × BitVec 12 × BitVec 10) :=
  let one (n : Nat) (x : Option (BitVec 12 × BitVec 10)) : List (BitVec 16 × BitVec 12 × BitVec 10) :=
    match s.giver? r n, x with
    | some q, some y => [(q, y)]
    | _, _ => []
  one 7 (s.eff r).sys ++ one 8 (s.eff r).regen

/-- A handler's entry address on a tile, if it is installed there for a region: by its own load, or as a handler that it
shares with a region above it (R17, R18, R58; DEDUCED, log 87). -/
def State.entry? (s : State) (r : BitVec 16) (tile : BitVec 10) (h : BitVec 12) : Option Word :=
  match s.ownEntry? r tile h with
  | some e => some e
  | none => ((s.shared r).filter fun x => x.2 = (h, tile)).findSome? fun x => s.ownEntry? x.1 tile h

/-- A handler is installed on a tile. -/
def State.installed (s : State) (r : BitVec 16) (tile : BitVec 10) (h : BitVec 12) : Bool :=
  (s.entry? r tile h).isSome

/-- The region is loaded, switched in, and neither frozen nor unloading: its work may start (R220, R223, R321). -/
def State.runs (s : State) (r : BitVec 16) : Bool :=
  match s.region? r with
  | some x => !x.frozen && !x.unloading && x.saved.isNone
  | none => false

/-- An activation is of its region's system handler: its handler is the effective SYSH on the effective SYSTILE
(R420). -/
def State.isSystem (s : State) (r : BitVec 16) (tile : BitVec 10) (h : BitVec 12) : Bool :=
  (s.eff r).sys = some (h, tile)

/-- A region lies below an ancestor in the tree of RCBs. -/
def State.below (s : State) (anc r : BitVec 16) : Bool :=
  ((s.rcbPath 8 (s.rcbOf r)).drop 1).contains (s.rcbOf anc) && s.rcbOf anc ≠ 0

/-- The cut state of a region on a tile (R219). -/
def State.cut (s : State) (tile : BitVec 10) (r : BitVec 16) : CutState :=
  mget CutState.reset (s.tile tile).cuts r.toNat

/-- The state with the cut state of a region on a tile changed. -/
def State.modCut (s : State) (tile : BitVec 10) (r : BitVec 16) (f : CutState → CutState) : State :=
  s.modTile tile fun t => { t with cuts := mset t.cuts r.toNat (f (mget CutState.reset t.cuts r.toNat)) }

/-- A message of a colour counted as emitted (R219). -/
def CutState.send (c : CutState) (colour : Bool) : CutState :=
  if colour then { c with sent1 := c.sent1 + 1 } else { c with sent0 := c.sent0 + 1 }

/-- A message of a colour counted as received (R219). -/
def CutState.recv (c : CutState) (colour : Bool) : CutState :=
  if colour then { c with recv1 := c.recv1 + 1 } else { c with recv0 := c.recv0 + 1 }

/-- A region of which a stop is asked for (R218). It has no effect on one that is frozen already. Where a THAW waits for the
cut of a stop to close, the region stops again after it (DEDUCED, log 23). -/
def Region.freeze (x : Region) : Region :=
  if x.frozen then x
  else if x.stopping && x.thawing then { x with again := true }
  else { x with stopping := true, thawing := false, again := false }

/-- A stop of the region's group is asked for (R218): every region of the group is to stop, tile by tile. -/
def State.askFreeze (s : State) (r : BitVec 16) : State :=
  (s.group r).foldl (fun s q => s.modRegion q Region.freeze) s

/-- What a region has on its tiles: those of its load, and those of the handlers that it shares, on which it keeps no
space (R58). -/
def State.regionTiles (s : State) (r : BitVec 16) : List RegionTile :=
  match s.region? r with
  | some x =>
    x.tiles ++ (((s.shared r).map fun y => (⟨y.2.2, 0, 0⟩ : RegionTile)).filter fun y =>
      x.tiles.all fun z => z.tile ≠ y.tile).eraseDups
  | none => []

/-- The tiles that a region has kept regions, handlers or work on. -/
def State.tilesOf (s : State) (r : BitVec 16) : List (BitVec 10) := (s.regionTiles r).map (·.tile)

/-- The current thread runs an activation of its region's system handler, or one of the attic; the attic's programs
are not programs of this machine (R36, R259 step 4). -/
def State.privileged (s : State) : Bool := s.isSystem s.self.region s.cur.tile s.self.handler

end Sys2Proof.Machine
end

