-- ==== Sys2Proof/Machine/Slots.lean ====
section
/-! DEFINITION. Slots, handles, fibre records and future objects (R60 to R62, R69), and the ready queues with their
rankings (R84 to R90, R94). -/

namespace Sys2Proof.Machine

/-- The state with one choice drawn from n alternatives that the spec leaves to the device. -/
def State.draw (s : State) (n : Nat) : Nat × State :=
  (Config.choose s.draws % n, { s with draws := s.draws + 1 })

/-- One element of a list, as the device chooses; the choice is drawn only where there are two or more. -/
def State.pick {α : Type} (s : State) (l : List α) : Option α × State :=
  match l with
  | [] => (none, s)
  | [x] => (some x, s)
  | x :: y :: r =>
    let (k, s) := s.draw (r.length + 2)
    ((x :: y :: r)[k]?, s)

/-- A handle (R61). -/
def mkHandle (tile : BitVec 10) (slot : BitVec 12) (gen : BitVec 24) (kind : Nat) : Word :=
  wd (slot.toNat + tile.toNat * 2 ^ 12 + kind * 2 ^ 30 + gen.toNat * 2 ^ 32)

/-- SLOT of a handle. -/
def hSlot (h : Word) : BitVec 12 := BitVec.ofNat 12 (bits h 11 0)
/-- TILE of a handle. -/
def hTile (h : Word) : BitVec 10 := BitVec.ofNat 10 (bits h 21 12)
/-- KIND of a handle. -/
def hKind (h : Word) : Nat := bits h 31 30
/-- GEN of a handle. -/
def hGen (h : Word) : BitVec 24 := BitVec.ofNat 24 (bits h 55 32)

/-- The fibre handle of a slot that any handle names: the same value with KIND 1 (R324). -/
def fibreHandle (h : Word) : Word := mkHandle (hTile h) (hSlot h) (hGen h) 1

/-- The future handle of a slot that any handle names. -/
def futureHandle (h : Word) : Word := mkHandle (hTile h) (hSlot h) (hGen h) 2

/-- The reserved fields of a handle are zero (R317). -/
def handleForm (h : Word) : Bool := bits h 29 22 = 0 && bits h 63 56 = 0

/-- A slot of a tile. -/
def State.slot (s : State) (t : BitVec 10) (n : BitVec 12) : Slot := mget Slot.reset (s.tile t).slots n.toNat

/-- The state with a slot changed. -/
def State.modSlot (s : State) (t : BitVec 10) (n : BitVec 12) (f : Slot → Slot) : State :=
  s.modTile t fun x => { x with slots := mset x.slots n.toNat (f (mget Slot.reset x.slots n.toNat)) }

/-- The fibre that a handle names, if its generation still matches (R61). -/
def State.fibre? (s : State) (h : Word) : Option Fibre :=
  let x := s.slot (hTile h) (hSlot h)
  if x.gen = hGen h then x.fibre else none

/-- The future that a handle names, if its generation still matches (R61). -/
def State.future? (s : State) (h : Word) : Option Future :=
  let x := s.slot (hTile h) (hSlot h)
  if x.gen = hGen h then x.future else none

/-- The state with the fibre that a handle names changed. -/
def State.modFibre (s : State) (h : Word) (f : Fibre → Fibre) : State :=
  match s.fibre? h with
  | some x => s.modSlot (hTile h) (hSlot h) fun t => { t with fibre := some (f x) }
  | none => s

/-- The state with the future that a handle names changed. -/
def State.modFuture (s : State) (h : Word) (f : Future → Future) : State :=
  match s.future? h with
  | some x => s.modSlot (hTile h) (hSlot h) fun t => { t with future := some (f x) }
  | none => s

/-- A fibre is in the subtree of a fibre: it is that fibre or was created below it (R78). -/
def State.inSubtree (s : State) (root h : Word) : Bool :=
  fibreHandle h = fibreHandle root ||
    match s.fibre? h with
    | some f => f.creators.contains (fibreHandle root)
    | none => false

/-- The current thread's fibre. -/
def State.me (s : State) : Word := s.self.fibre

/-- The current thread's fibre is confirmed (R78). -/
def State.confirmed (s : State) : Bool :=
  match s.fibre? s.me with
  | some f => f.conf
  | none => true

/-- The slots of a tile that hold neither a fibre nor a future. -/
def State.freeSlots (s : State) (t : BitVec 10) : List (BitVec 12) :=
  ((List.range 4096).map (BitVec.ofNat 12)).filter fun n =>
    (s.slot t n).fibre.isNone && (s.slot t n).future.isNone

/-- A tile has a free slot. A tile that lists fewer than 4,096 slots has one. -/
def State.hasSlot (s : State) (t : BitVec 10) : Bool :=
  let l := (s.tile t).slots
  decide (l.length < 4096) || l.any fun x => x.2.fibre.isNone && x.2.future.isNone

/-- The generation after one (R60). -/
def nextGen (g : BitVec 24) : BitVec 24 := if g + 1 = 0 then 1 else g + 1

/-! The ranking of R94. -/

/-- Cycles waited since an entry was written, modulo 2^48. -/
def waited (cyc : Word) (enq : BitVec 48) : Nat := (cyc.setWidth 48 - enq).toNat

/-- The ranking value (R94). -/
def rank (cyc : Word) (prio : Nat) (enq : BitVec 48) : Nat := prio + min 3 (waited cyc enq / 2 ^ 16)

/-- The ranking value of a ready entry. -/
def ReadyEntry.rank (cyc : Word) (e : ReadyEntry) : Nat := Machine.rank cyc e.prio.toNat e.enq

/-- x goes before y in a spill: the lowest value, the youngest among equal ones (R87). -/
def spillsFirst (cyc : Word) (x y : ReadyEntry) : Bool :=
  decide (x.rank cyc < y.rank cyc) ||
    (decide (x.rank cyc = y.rank cyc) && decide (waited cyc x.enq < waited cyc y.enq))

/-- x goes before y in a refill: the highest value, the oldest among equal ones (R87). -/
def refillsFirst (cyc : Word) (x y : ReadyEntry) : Bool :=
  decide (y.rank cyc < x.rank cyc) ||
    (decide (x.rank cyc = y.rank cyc) && decide (waited cyc y.enq < waited cyc x.enq))

/-- Up to n entries that qualify, in an order of preference, and the queue without them (R86). Entries that the order
holds equal go in queue order (DESIGN CHOICE, log 55). -/
def takeBlock (better : ReadyEntry → ReadyEntry → Bool) (ok : ReadyEntry → Bool) :
    Nat → List ReadyEntry → List ReadyEntry × List ReadyEntry
  | 0, q => ([], q)
  | n + 1, q =>
    match best better (q.filter ok) with
    | none => ([], q)
    | some e =>
      let (b, r) := takeBlock better ok n (removeFirst (fun x => x = e) q)
      (e :: b, r)

/-- A die. -/
def State.die (s : State) (d : BitVec 2) : Die := s.dies[d.toNat]'d.isLt

/-- The state with a die changed. -/
def State.modDie (s : State) (d : BitVec 2) (f : Die → Die) : State :=
  { s with dies := s.dies.set d.toNat (f (s.dies[d.toNat]'d.isLt)) d.isLt }

/-- The cluster of a tile, 0 to 63 (R25). -/
def clusterOf (t : BitVec 10) : Nat := t.toNat / 16

/-- The die of a tile (R25). -/
def dieOf (t : BitVec 10) : BitVec 2 := BitVec.ofNat 2 (t.toNat / 256)

/-- A fibre keeps a payload in its home tile's landing zone (R323). -/
def State.keeps (s : State) (h : Word) : Bool :=
  match s.fibre? h with
  | some f => f.kept.isSome
  | none => false

/-- PIN of a ready entry: its own bit, forced to 1 while KEPT of its fibre is nonzero (R85). -/
def State.pinned (s : State) (e : ReadyEntry) : Bool := e.pin || s.keeps e.handle

/-- A stop of a region's group is under way or has ended: its fibres and entries stay where they are (R220). -/
def State.stands (s : State) (r : BitVec 16) : Bool :=
  match s.region? r with
  | some x => x.stopping || x.frozen
  | none => false

/-- A fibre stands: its region is frozen, or the stop has reached its home tile (R220). What comes for it makes it ready at
THAW. -/
def State.fibreStands (s : State) (h : Word) : Bool :=
  match s.fibre? h with
  | some f => (s.cut (hTile h) f.region).stopped || match s.region? f.region with
    | some x => x.frozen
    | none => false
  | none => false

/-- A ready entry is of a region whose entries stay where they are (R220, R223). -/
def State.entryStands (s : State) (e : ReadyEntry) : Bool :=
  match s.fibre? e.handle with
  | some f => s.stands f.region
  | none => false

/-- The state with up to eight entries of a tile spilled to its cluster queue, where it has room for a block
(R87, R89). -/
def State.spillTile (s : State) (t : BitVec 10) : State :=
  let c := clusterOf t
  if 504 < (s.cmem c).queue.length then s
  else
    let (b, r) := takeBlock (spillsFirst s.cyc) (fun e => !s.pinned e && !s.entryStands e) 8 (s.tile t).ready
    (s.modTile t fun x => { x with ready := r }).modCmem c fun m => { m with queue := m.queue ++ b }

/-- The state with up to eight entries of a cluster queue spilled to its die queue, where it has room (R84, R89). -/
def State.spillCluster (s : State) (c : Nat) : State :=
  let d : BitVec 2 := BitVec.ofNat 2 (c / 16)
  if 4088 < (s.die d).queue.length then s
  else
    let (b, r) := takeBlock (spillsFirst s.cyc) (fun e => !s.pinned e && !s.entryStands e) 8 (s.cmem c).queue
    (s.modCmem c fun m => { m with queue := r }).modDie d fun x => { x with queue := x.queue ++ b }

/-- The entry that is written for a fibre now (R85): PRIO is the effective priority of now, whatever activation acts, and
PIN is that of the record. It reads 1 while KEPT is nonzero (`State.pinned`). -/
def State.newEntry (s : State) (h : Word) : ReadyEntry :=
  match s.fibre? h with
  | some f => ⟨fibreHandle h, BitVec.ofNat 3 (s.readEff f.region).prio, f.pin, s.cyc.setWidth 48⟩
  | none => ⟨fibreHandle h, 0, false, s.cyc.setWidth 48⟩

/-- The state with a fibre entered in its home tile's ready queue, or in the backlog where 64 entries fill it and no
spill frees room (R85, R88). -/
def State.enqueue (s : State) (h : Word) : State :=
  let t := hTile h
  let s := if (s.tile t).ready.length < 64 then s else s.spillTile t
  if (s.tile t).ready.length < 64 then
    s.modTile t fun x => { x with ready := x.ready ++ [s.newEntry h], stealAt := 0 }
  else s.modTile t fun x => { x with backlog := insertNat x.backlog (hSlot h).toNat }

/-- The state with a fibre made ready for an activation that no message starts (R63, R85). -/
def State.makeReady (s : State) (h : Word) (p : Pending) : State :=
  (s.modFibre h fun f => { f with fstate := .ready, park := none, pending := some p }).enqueue h

/-- The state without the ready entries of a fibre and without its backlog bit. -/
def State.unqueue (s : State) (h : Word) : State :=
  let out (q : List ReadyEntry) : List ReadyEntry := q.filter fun e => !(e.handle = fibreHandle h)
  let s := s.modTile (hTile h) fun t => { t with backlog := t.backlog.filter fun n => !(n = (hSlot h).toNat) }
  { s with
      tiles := s.tiles.map fun t => (t.1, { t.2 with ready := out t.2.ready })
      cmems := s.cmems.map fun c => (c.1, { c.2 with queue := out c.2.queue })
      dies := s.dies.map fun d => { d with queue := out d.queue } }

/-- The ready entry of a fibre in a queue of another tile, a cluster or a die, if there is one. -/
def State.strayEntry (s : State) (h : Word) : Option ReadyEntry :=
  let mine (q : List ReadyEntry) : Option ReadyEntry := q.find? fun e => e.handle = fibreHandle h
  match s.tiles.findSome? fun t => if t.1 = (hTile h).toNat then none else mine t.2.ready with
  | some e => some e
  | none =>
    match s.cmems.findSome? fun c => mine c.2.queue with
    | some e => some e
    | none => s.dies.toList.findSome? fun d => mine d.queue

/-- The state in which the ready entry of a fibre that has come to keep a payload waits at its home tile, where alone
the fibre may run (R90): an entry that a spill or a steal has taken elsewhere comes back unchanged (DESIGN CHOICE,
log 55). -/
def State.bringHome (s : State) (h : Word) : State :=
  match s.strayEntry h with
  | none => s
  | some e =>
    (s.unqueue h).modTile (hTile h) fun t =>
      if t.ready.length < 64 then { t with ready := t.ready ++ [{ e with pin := (s.newEntry h).pin }], stealAt := 0 }
      else { t with backlog := insertNat t.backlog (hSlot h).toNat }

/-! The slot store of a tile: records, future objects and reference blocks as bytes (R60, R62, R69, R327). -/

/-- Entries that a fibre's reference blocks hold: its references and its binding (R327, R366). -/
def Fibre.blockEntries (f : Fibre) : List Word :=
  f.refs ++ match f.bound with
    | some b => [b.1]
    | none => []

/-- The reference blocks of a tile's slot store that no fibre holds. -/
def State.freeBlocks (s : State) (t : BitVec 10) : List Nat :=
  match mfind s.slotStores t.toNat with
  | none => []
  | some x => (List.range x.blocks).filter fun b =>
      !((s.tile t).slots.any fun y => match y.2.fibre with
        | some f => f.refBlocks.contains b
        | none => false)

/-- The state in which a reference block of a tile's slot store has been used. -/
def State.useBlock (s : State) (t : BitVec 10) (b : Nat) : State :=
  { s with slotStores := s.slotStores.map fun x =>
      if x.1 = t.toNat then (x.1, { x.2 with used := insertNat x.2.used b }) else x }

/-- The state in which a fibre's reference blocks have room for one entry more; none while its home tile has no free
block (R327). -/
def State.roomForRef (s : State) (h : Word) : Option State :=
  match s.fibre? h with
  | none => some s
  | some f =>
    if f.blockEntries.length < 7 * f.refBlocks.length then some s
    else match s.pick (s.freeBlocks (hTile h)) with
      | (some b, s) => some ((s.useBlock (hTile h) b).modFibre h fun f => { f with refBlocks := f.refBlocks ++ [b] })
      | (none, _) => none

/-- A fibre without the reference blocks that its entries no longer need (R327). -/
def Fibre.trim (f : Fibre) : Fibre := { f with refBlocks := f.refBlocks.take ((f.blockEntries.length + 6) / 7) }

/-- FSTATE as a number (R62). -/
def FState.code : FState → Nat
  | .waiting => 0
  | .ready => 1
  | .running => 2
  | .parked => 3
  | .ended => 4
  | .reclaiming => 5

/-- FSTAT as a number (R69). -/
def FStat.code : FStat → Nat
  | .pending => 0
  | .running => 1
  | .resolved => 2
  | .reclaimed => 3

/-- Word 0 of a fibre's record (R62). -/
def Fibre.word0 (f : Fibre) : Word :=
  wd (f.handler.toNat + f.fstate.code * 2 ^ 12 + nb f.conf * 2 ^ 15 + nb f.pin * 2 ^ 16 + nb f.cont * 2 ^ 17 +
    nb f.rclm * 2 ^ 18 + nb f.detach * 2 ^ 19 + f.conth.toNat * 2 ^ 20 + f.region.toNat * 2 ^ 32)

/-- The address of a reference block, by its number in the store. -/
def SlotStore.block (x : SlotStore) (b : Nat) : Nat := x.base + 128 * 4096 + 64 * b

/-- The 64 bytes of a fibre record (R62). The form of KEPT is not given (log 47). -/
def Fibre.bytes (x : SlotStore) (f : Fibre) : List Byte :=
  leBytes 8 f.word0.toNat ++ leBytes 8 f.parent.toNat ++ leBytes 8 f.depctr.toNat ++ leBytes 8 f.arg.toNat ++
  leBytes 8 (match f.refBlocks with
    | b :: _ => x.block b
    | [] => 0) ++
  leBytes 8 f.waitfut.toNat ++
  leBytes 8 (match f.kept with
    | some k => (Config.keptWord k.unit k.units k.len).toNat
    | none => 0) ++
  leBytes 8 f.spawnt.toNat

/-- The 64 bytes of a future object in a slot of a generation (R69). -/
def Future.bytes (gen : BitVec 24) (f : Future) : List Byte :=
  leBytes 8 (f.count + f.fstat.code * 2 ^ 24 + nb f.conf * 2 ^ 27 + nb f.group * 2 ^ 28 + gen.toNat * 2 ^ 32) ++
  leBytes 8 f.result.toNat ++ leBytes 8 f.fibre.toNat ++
  leBytes 8 (match f.waiters with
    | w :: _ => w.toNat
    | [] => 0) ++
  leBytes 8 f.gleft ++ leBytes 8 f.gscope.toNat ++ leBytes 16 0

/-- The 64 bytes of the i-th reference block of a fibre: seven handles and a link to the next block, 0 in the last
(R327). -/
def Fibre.blockBytes (x : SlotStore) (f : Fibre) (i : Nat) : List Byte :=
  (((f.blockEntries.drop (7 * i)).take 7).flatMap fun h => leBytes 8 h.toNat) ++
  leBytes (56 - 8 * ((f.blockEntries.drop (7 * i)).take 7).length) 0 ++
  leBytes 8 (match f.refBlocks[i + 1]? with
    | some b => x.block b
    | none => 0)

/-- Byte o of a tile's slot store as the slots hold it; none for a part that holds no record, object or block
now. -/
def State.slotStoreByte (s : State) (t : BitVec 10) (x : SlotStore) (o : Nat) : Option Byte :=
  if o < 128 * 4096 then
    let y := s.slot t (BitVec.ofNat 12 (o / 128))
    if o % 128 < 64 then y.fibre.bind fun f => (f.bytes x)[o % 128]?
    else y.future.bind fun f => (f.bytes y.gen)[o % 128 - 64]?
  else
    let b := (o - 128 * 4096) / 64
    (s.tile t).slots.findSome? fun y => y.2.fibre.bind fun f =>
      match f.refBlocks.findIdx? (fun k => k = b) with
      | some i => (f.blockBytes x i)[o % 64]?
      | none => none

/-- A slot or a reference block of a tile's store has been used since READY. -/
def State.slotUsed (s : State) (t : BitVec 10) (x : SlotStore) (o : Nat) : Bool :=
  if o < 128 * 4096 then (mfind (s.tile t).slots (o / 128)).isSome else x.used.contains ((o - 128 * 4096) / 64)

/-- The byte at a physical address, where it lies in a slot store: as the slots hold it, zero in a slot or a block that
nothing has used (R32), and open where a used one holds nothing there now (log 47). None outside every slot store. -/
def State.slotByte (s : State) (pa : Nat) : Option Byte :=
  s.slotStores.findSome? fun p =>
    let t : BitVec 10 := BitVec.ofNat 10 p.1
    let o := pa - p.2.base
    if p.2.base ≤ pa && pa < p.2.block p.2.blocks then
      some ((s.slotStoreByte t p.2 o).getD (if s.slotUsed t p.2 o then Config.freeByte pa else 0))
    else none

end Sys2Proof.Machine
end

