-- ==== Sys2Proof/Machine/StoreRoom.lean ====
section
/-! DEFINITION. The store rooms (R157 to R159): runs of 2^k blocks of 64 KiB, aligned to their size, with merging of
freed buddies; NEW and GROW allocations; batches borrowed from neighbouring dies. -/

namespace Sys2Proof.Machine

/-- Blocks in a list of runs. -/
def runBlocks (l : List Run) : Nat := l.foldl (fun n r => n + 2 ^ r.order) 0

/-- FREE of a store room: free blocks, own and borrowed (R159). -/
def Die.free (d : Die) : Nat := runBlocks d.freeRuns

/-- A run lies in a borrowed batch. -/
def Die.isBorrowed (d : Die) (r : Run) : Bool :=
  d.borrowed.any fun b => b.base ≤ r.first && r.first < b.base + 64

/-- Free runs of a die that can serve an order: own blocks before borrowed ones, which serve order 6 or below
(R158). -/
def Die.candidates (d : Die) (k : Nat) : List Run :=
  let own := d.freeRuns.filter fun r => k ≤ r.order && !d.isBorrowed r
  if own.isEmpty && k ≤ 6 then d.freeRuns.filter fun r => k ≤ r.order else own

/-- The upper halves that remain free when the lowest 2^k blocks of a run of a higher order are taken. -/
def splitRun (first k : Nat) : Nat → List Run
  | 0 => []
  | n + 1 => if n < k then [] else ⟨first + 2 ^ n, n⟩ :: splitRun first k n

/-- The state with a run of order k allocated by a die's store room, if a free run can serve it. -/
def State.takeRun (s : State) (d : BitVec 2) (k : Nat) : Option (Run × State) :=
  match s.pick ((s.die d).candidates k) with
  | (some r, s) =>
    let got : Run := ⟨r.first, k⟩
    some (got, s.modDie d fun x =>
      { x with freeRuns := (removeFirst (fun y => y = r) x.freeRuns) ++ splitRun r.first k r.order,
               allocated := x.allocated ++ [got] })
  | (none, _) => none

/-- Free runs with one run added and buddies merged, at most `n` times. -/
def mergeRun (l : List Run) : Nat → Run → List Run
  | 0, r => l ++ [r]
  | n + 1, r =>
    let size := 2 ^ r.order
    let buddy := if r.first / size % 2 = 0 then r.first + size else r.first - size
    if l.contains ⟨buddy, r.order⟩ then
      mergeRun (removeFirst (fun y => y = ⟨buddy, r.order⟩) l) n ⟨min r.first buddy, r.order + 1⟩
    else l ++ [r]

/-- The highest order to which a run may merge: batches are returned whole, so a borrowed run merges up to 6. -/
def Die.topOrder (d : Die) (r : Run) : Nat := if d.isBorrowed r then 6 else 16

/-- The state with a run returned to a die's store room (R157). -/
def State.giveRun (s : State) (d : BitVec 2) (r : Run) : State :=
  s.modDie d fun x =>
    { x with allocated := removeFirst (fun y => y = r) x.allocated,
             freeRuns := mergeRun x.freeRuns (x.topOrder r - r.order) r }

/-- The physical address of a run. -/
def Run.base (r : Run) : Nat := r.first * 65536

/-- The block after the last of a run. -/
def Run.top (r : Run) : Nat := r.first + 2 ^ r.order

/-- A run lies in another. -/
def Run.inside (r q : Run) : Bool := q.first ≤ r.first && r.first + 2 ^ r.order ≤ q.first + 2 ^ q.order

/-- What is still allocated of a run of a die: the run, or the parts that are left of it where a part has been returned
(R140). -/
def State.partsOf (s : State) (d : BitVec 2) (r : Run) : List Run := (s.die d).allocated.filter fun x => x.inside r

/-- The state with runs returned to their store rooms (R157). -/
def State.giveRuns (s : State) (l : List (BitVec 2 × Run)) : State := l.foldl (fun s x => s.giveRun x.1 x.2) s

/-- The allocated runs of the store rooms that the blocks from one to another meet (R140). -/
def State.runsAt (s : State) (lo hi : Nat) : List (BitVec 2 × Run) :=
  ((List.range 4).map (BitVec.ofNat 2)).flatMap fun d =>
    ((s.die d).allocated.filter fun r => r.first < hi && lo < r.top).map fun r => (d, r)

/-- An interval of blocks as aligned runs of order 16 or below, with the work that remains. -/
def alignedRuns : Nat → Nat → Nat → List Run
  | 0, _, _ => []
  | n + 1, first, count =>
    if count = 0 then []
    else
      let k := ((List.range 17).filter fun k => first % 2 ^ k = 0 && decide (2 ^ k ≤ count)).length - 1
      ⟨first, k⟩ :: alignedRuns n (first + 2 ^ k) (count - 2 ^ k)

/-- The state in which the blocks from one to another that an allocated run holds are returned to its die's store room;
the rest of the run stays allocated (R140). -/
def State.giveBlocks (s : State) (d : BitVec 2) (run : Run) (lo hi : Nat) : State :=
  let lo := max lo run.first
  let hi := min hi run.top
  let part (a b : Nat) : List Run := alignedRuns (b - a + 1) a (b - a)
  let s := s.modDie d fun x =>
    { x with allocated := removeFirst (fun y => y = run) x.allocated ++ part run.first lo ++ part lo hi ++
               part hi run.top }
  (part lo hi).foldl (fun s r => s.giveRun d r) s

/-- The dies that share an edge with a die (R25, R158): 0 and 3 lie diagonally, and so do 1 and 2. -/
def neighbours (d : BitVec 2) : List (BitVec 2) := if d = 0 ∨ d = 3 then [1, 2] else [0, 3]

/-- A die may lend a batch (R158). -/
def Die.mayLend (d : Die) : Bool :=
  !d.nolend && decide (d.reserve.toNat + 64 ≤ d.free) && d.freeRuns.any fun r => 6 ≤ r.order && !d.isBorrowed r

/-- The neighbours of a die in the order in which it asks them: most free blocks first, then the lower number. -/
def State.lenders (s : State) (d : BitVec 2) : List (BitVec 2) :=
  match neighbours d with
  | [a, b] => if (s.die a).free < (s.die b).free then [b, a] else [a, b]
  | l => l

/-- The state with one batch borrowed by a die, if it asks now and a neighbour may lend (R158). -/
def State.borrow (s : State) (d : BitVec 2) : Option State :=
  match (s.lenders d).find? fun n => decide ((s.die d).askAt ≤ s.cyc.toNat) && (s.die n).mayLend with
  | none => none
  | some n =>
    match s.pick ((s.die n).freeRuns.filter fun r => 6 ≤ r.order && !(s.die n).isBorrowed r) with
    | (none, _) => none
    | (some r, s) =>
      let s := s.modDie n fun x =>
        { x with freeRuns := (removeFirst (fun y => y = r) x.freeRuns) ++ splitRun r.first 6 r.order,
                 lent := x.lent ++ [⟨d, r.first⟩] }
      some (s.modDie d fun x =>
        { x with borrowed := x.borrowed ++ [⟨n, r.first⟩], freeRuns := x.freeRuns ++ [⟨r.first, 6⟩] })

/-- The state with a refusal counted (R159). -/
def State.refuseRun (s : State) (d : BitVec 2) : State := s.modDie d fun x => { x with refused := x.refused + 1 }

/-- A NEW allocation of 2^k blocks: refused if FREE - 2^k would fall below RESERVE (R157). -/
def State.allocNew (s : State) (d : BitVec 2) (k : Nat) : Option Run × State :=
  if (s.die d).free < (s.die d).reserve.toNat + 2 ^ k then (none, s.refuseRun d)
  else match s.takeRun d k with
    | some (r, s) => (some r, s)
    | none => (none, s.refuseRun d)

/-- Both neighbours have refused a batch, if the die asked for one now (R158). -/
def State.refusedBatch (s : State) (d : BitVec 2) : State :=
  if s.cyc.toNat < (s.die d).askAt then s else s.modDie d fun y => { y with askAt := s.cyc.toNat + 65536 }

/-- The state in which a die's store room has refused a GROW allocation, and counts it; both its neighbours have refused
it a batch (R158, R159). -/
def State.refuseGrow (s : State) (d : BitVec 2) : State := (s.refusedBatch d).refuseRun d

/-- A batch asked for because a GROW allocation cannot be met (R158). -/
def State.askBatch (s : State) (d : BitVec 2) : State :=
  match s.borrow d with
  | some s => s
  | none => s.refusedBatch d

/-- A GROW allocation of order 0 from the die's own blocks and reserve, and then from a borrowed batch (R157, R158). One
free block serves it, so no compaction helps. -/
def State.growDirect (s : State) (d : BitVec 2) : Option (Run × State) :=
  match s.takeRun d 0 with
  | some x => some x
  | none => (s.askBatch d).takeRun d 0

/-- The SRCTL register of a die (R159). -/
def Die.srctl (d : Die) : Word := wd (d.reserve.toNat + nb d.nolend * 2 ^ 22)

/-- The SRSTAT register of a die (R159). -/
def Die.srstat (d : Die) : Word :=
  wd (d.free % 2 ^ 22 + d.borrowed.length % 256 * 2 ^ 22 + d.lent.length % 256 * 2 ^ 30 + d.refused.toNat * 2 ^ 38)

end Sys2Proof.Machine
end

