-- ==== Sys2Proof/Machine/Tree.lean ====
section
/-! DEFINITION. Range entries as bytes (R128), and the range tree of a region as nodes in memory (R133, R134, R424):
its walk, its leaves, and the changes that `rset`, `rsplit`, `rmerge` and the device make. -/

namespace Sys2Proof.Machine

/-- Word i of a list of bytes. -/
def wordAt (bs : List Byte) (i : Nat) : Word := wd (leNat ((bs.drop (8 * i)).take 8))

/-- The range entry in 64 bytes (R128). -/
def entryOfBytes (bs : List Byte) : RangeEntry :=
  let w3 := wordAt bs 3
  { vbase := bits (wordAt bs 0) 55 0
    limit := bits (wordAt bs 1) 56 0
    offset := wordAt bs 2
    permR := bit w3 0
    permW := bit w3 1
    permX := bit w3 2
    priv := bit w3 3
    shared := bit w3 4
    cow := bit w3 5
    vol := bit w3 6
    tiered := bit w3 7
    forwarding := bit w3 8
    gen := BitVec.ofNat 24 (bits w3 39 16)
    fscope := BitVec.ofNat 4 (bits w3 43 40)
    rtag := BitVec.ofNat 16 (bits w3 63 48)
    owner := wordAt bs 4
    fbase := bits (wordAt bs 5) 56 0
    foff := wordAt bs 6
    btier := BitVec.ofNat 2 (bits (wordAt bs 7) 1 0)
    baddr := BitVec.ofNat 48 (bits (wordAt bs 7) 63 16) }

/-- Word 3 of a range entry. -/
def RangeEntry.word3 (e : RangeEntry) : Nat :=
  nb e.permR + 2 * nb e.permW + 4 * nb e.permX + 8 * nb e.priv + 16 * nb e.shared + 32 * nb e.cow + 64 * nb e.vol
    + 128 * nb e.tiered + 256 * nb e.forwarding + e.gen.toNat * 2 ^ 16 + e.fscope.toNat * 2 ^ 40
    + e.rtag.toNat * 2 ^ 48

/-- The 64 bytes of a range entry (R128). -/
def RangeEntry.bytes (e : RangeEntry) : List Byte :=
  leBytes 8 e.vbase ++ leBytes 8 e.limit ++ leBytes 8 e.offset.toNat ++ leBytes 8 e.word3 ++
  leBytes 8 e.owner.toNat ++ leBytes 8 e.fbase ++ leBytes 8 e.foff.toNat ++
  leBytes 8 (e.btier.toNat + e.baddr.toNat * 2 ^ 16)

/-- The entry covers a virtual address. -/
def RangeEntry.covers (e : RangeEntry) (va : Nat) : Bool := e.vbase ≤ va && va < e.limit

/-- Two entries overlap. -/
def RangeEntry.overlaps (e f : RangeEntry) : Bool := e.vbase < f.limit && f.vbase < e.limit

/-- The physical image of a virtual address under an offset (R128). -/
def imageOf (off : Word) (va : Nat) : Nat := (va + off.toNat) % 2 ^ 64

/-- The physical address of a virtual address, the forwarding pair considered (R131). -/
def RangeEntry.phys (e : RangeEntry) (va : Nat) : Nat :=
  if e.forwarding && va < e.fbase then imageOf e.foff va else imageOf e.offset va

/-- A child of an interior node: the lowest VBASE below it (0 for child 0, whose key is not held) and its address,
with bit 0 set for a leaf (R133). -/
structure Child where
  key : Nat
  ref : Nat
  deriving DecidableEq, Repr

/-- The child is a leaf. -/
def Child.isLeaf (c : Child) : Bool := c.ref % 2 = 1

/-- The address of the node or leaf. -/
def Child.addr (c : Child) : Nat := c.ref - c.ref % 2

/-- The number of children that word 0 of a node gives (R133). -/
def State.childCount (s : State) (node : Nat) : Nat := s.peekNat node 8 % 16 + 1

/-- The children of an interior node. -/
def State.children (s : State) (node : Nat) : List Child :=
  (List.range (s.childCount node)).map fun j =>
    ⟨if j = 0 then 0 else s.peekNat (node + 8 * j) 8, s.peekNat (node + 128 + 8 * j) 8⟩

/-- The child in which an address is looked for: the last whose key is not above it, or child 0. -/
def childFor (va : Nat) : List Child → Option Child
  | [] => none
  | c :: r => match childFor va r with
    | some d => if d.key ≤ va then some d else some c
    | none => some c

/-- What a walk reports (R134). -/
inductive Walk where
  | found (leaf : Nat) (e : RangeEntry)
  | absent
  | stop (c : Cause)
  deriving DecidableEq, Repr

/-- A walk from a node, with the levels that remain (R133, R134, R217: a node with fewer than two children, or a
15th level, is malformed; a poisoned node stops the access). -/
def State.walkFrom (s : State) (va : Nat) : Nat → Nat → Walk
  | 0, _ => .stop .treeMalformed
  | n + 1, node =>
    if poisoned s.poison node 256 then .stop .poison
    else if s.childCount node < 2 then .stop .treeMalformed
    else match childFor va (s.children node) with
      | none => .absent
      | some c =>
        if c.isLeaf then
          match n with
          | 0 => .stop .treeMalformed
          | _ + 1 =>
            if poisoned s.poison c.addr 128 then .stop .poison
            else
              let e := entryOfBytes (s.peek c.addr 64)
              if e.covers va then .found c.addr e else .absent
        else s.walkFrom va n c.addr

/-- The walk of a region's tree for a virtual address. -/
def State.walk (s : State) (r : BitVec 16) (va : Nat) : Walk := s.walkFrom va 14 (s.rangeRoot r)

/-- The state after the homes of the nodes and of the leaf that a walk reads have performed the reads (R134, R145). -/
def State.walkedFrom (s : State) (va : Nat) : Nat → Nat → State
  | 0, _ => s
  | n + 1, node =>
    let t := s.touch node 256 false
    if poisoned s.poison node 256 || s.childCount node < 2 then t
    else match childFor va (s.children node) with
      | none => t
      | some c => if c.isLeaf then t.touch c.addr 128 false else t.walkedFrom va n c.addr

/-- The state after the walk of a region's tree for a virtual address. -/
def State.walked (s : State) (r : BitVec 16) (va : Nat) : State := s.walkedFrom va 14 (s.rangeRoot r)

/-- A leaf that holds a range: its address and its entry. A filler leaf, all zero, holds none. -/
structure Leaf where
  addr : Nat
  entry : RangeEntry
  deriving DecidableEq, Repr

/-- The leaves below a node, in order, with the levels that remain. -/
def State.leavesFrom (s : State) : Nat → Nat → List Leaf
  | 0, _ => []
  | n + 1, node =>
    if s.childCount node < 2 then []
    else (s.children node).flatMap fun c =>
      if c.isLeaf then
        let e := entryOfBytes (s.peek c.addr 64)
        if e.vbase < e.limit then [⟨c.addr, e⟩] else []
      else s.leavesFrom n c.addr

/-- The ranges of a region. -/
def State.leaves (s : State) (r : BitVec 16) : List Leaf := s.leavesFrom 14 (s.rangeRoot r)

/-- The state with an entry written to a leaf, RTAG 0 as in the tree (R128). -/
def State.writeLeaf (s : State) (leaf : Nat) (e : RangeEntry) : State :=
  s.poke leaf (RangeEntry.bytes { e with rtag := 0 })

/-- The address of a leaf's residency bitmap (R133). -/
def State.bitmapOf (s : State) (leaf : Nat) : Nat := s.peekNat (leaf + 64) 8

/-! The node pool (R424). -/

/-- The die whose HBM holds a physical address. -/
def dieAt (pa : Nat) : BitVec 2 := BitVec.ofNat 2 (pa / dieBytes)

/-- The state with one block added to a region's pool, if the store room of RANGEROOT's die grants it. -/
def State.growPool (s : State) (r : BitVec 16) : Option State :=
  let d := dieAt (s.rangeRoot r)
  match s.growDirect d with
  | none => none
  | some (run, s) =>
    some (s.modRegion r fun x =>
      { x with pool := x.pool ++ [(d, run)],
               freeUnits := x.freeUnits ++ (List.range 256).map fun i => run.base + 256 * i })

/-- A free 256-byte unit of a region's pool (R424). -/
def State.takeUnit (s : State) (r : BitVec 16) : Option (Nat × State) :=
  let go (s : State) : Option (Nat × State) :=
    match s.region? r with
    | some x =>
      match x.freeUnits with
      | u :: us => some (u, s.modRegion r fun y => { y with freeUnits := us })
      | [] => none
    | none => none
  match go s with
  | some x => some x
  | none => match s.growPool r with
    | some s => go s
    | none => none

/-- A free aligned half unit of a region's pool, for a leaf (R424). -/
def State.takeHalf (s : State) (r : BitVec 16) : Option (Nat × State) :=
  match s.region? r with
  | none => none
  | some x =>
    match x.freeHalves with
    | h :: hs => some (h, s.modRegion r fun y => { y with freeHalves := hs })
    | [] =>
      match s.takeUnit r with
      | some (u, s) => some (u, s.modRegion r fun y => { y with freeHalves := y.freeHalves ++ [u + 128] })
      | none => none

/-- An address lies in a block of a region's pool. -/
def Region.pooled (x : Region) (a : Nat) : Bool :=
  x.pool.any fun p => p.2.base ≤ a && a < p.2.base + 65536

/-- The state with an interior node returned to the pool. A node that system software wrote is its memory and
returns nowhere. -/
def State.giveUnit (s : State) (r : BitVec 16) (a : Nat) : State :=
  s.modRegion r fun x => if x.pooled a then { x with freeUnits := x.freeUnits ++ [a] } else x

/-- The state with a leaf returned to the pool: two free halves of a unit are a free unit (R424). -/
def State.giveHalf (s : State) (r : BitVec 16) (a : Nat) : State :=
  let other := if a % 256 = 0 then a + 128 else a - 128
  s.modRegion r fun x =>
    if !x.pooled a then x
    else if x.freeHalves.contains other then
      { x with freeHalves := removeFirst (fun h => h = other) x.freeHalves, freeUnits := x.freeUnits ++ [min a other] }
    else { x with freeHalves := x.freeHalves ++ [a] }

/-- The state with the children of an interior node written (R133). -/
def State.writeNode (s : State) (node : Nat) (cs : List Child) : State :=
  let keys := (List.range 15).flatMap fun j => leBytes 8 (match cs[j + 1]? with | some c => c.key | none => 0)
  let refs := (List.range 16).flatMap fun j => leBytes 8 (match cs[j]? with | some c => c.ref | none => 0)
  s.poke node (leBytes 8 ((cs.length - 1) % 16) ++ keys ++ refs)

/-- A child is a filler leaf, which holds no range. -/
def State.isFiller (s : State) (c : Child) : Bool :=
  c.isLeaf && let e := entryOfBytes (s.peek c.addr 64); !(e.vbase < e.limit)

/-- The children of a node with a leaf for VBASE k inserted in order. Child 0 keeps no key, and a new first child
leaves the old one the key of its own lowest range. -/
def insertChild (k ref low0 : Nat) : List Child → List Child
  | [] => [⟨0, ref⟩]
  | c :: r =>
    if k < low0 then ⟨0, ref⟩ :: ⟨low0, c.ref⟩ :: r
    else c :: insertLater r
where
  insertLater : List Child → List Child
    | [] => [⟨k, ref⟩]
    | d :: r => if k < d.key then ⟨k, ref⟩ :: d :: r else d :: insertLater r

/-- The lowest VBASE below a child, with the levels that remain. -/
def State.lowest (s : State) : Nat → Child → Nat
  | 0, c => c.key
  | n + 1, c =>
    if c.isLeaf then (entryOfBytes (s.peek c.addr 64)).vbase
    else match s.children c.addr with
      | [] => c.key
      | d :: _ => s.lowest n d

/-- Insertion of a leaf below a node. The answer gives the state and, where the node has been divided, the key and
the address of its new right half; none where a node cannot be had. -/
def State.insertLeafAt (s : State) (r : BitVec 16) (k ref : Nat) : Nat → Nat → Option (State × Option (Nat × Nat))
  | 0, _ => none
  | n + 1, node =>
    let cs := (s.children node).filter fun c => !s.isFiller c
    match childFor k cs with
    | none =>
      let filler : Nat := match (s.children node).find? s.isFiller with
        | some c => c.ref
        | none => ref
      some (s.writeNode node [⟨0, ref⟩, ⟨2 ^ 56, filler⟩], none)
    | some c =>
      let put (s : State) (cs : List Child) : Option (State × Option (Nat × Nat)) :=
        if cs.length ≤ 16 then some (s.writeNode node cs, none)
        else match s.takeUnit r with
          | none => none
          | some (u, s) =>
            match cs.drop 9 with
            | [] => none
            | h :: t => some ((s.writeNode node (cs.take 9)).writeNode u (⟨0, h.ref⟩ :: t), some (h.key, u))
      if c.isLeaf then put s (insertChild k ref (match cs with | d :: _ => s.lowest 14 d | [] => 0) cs)
      else match s.insertLeafAt r k ref n c.addr with
        | none => none
        | some (s, none) => some (s, none)
        | some (s, some (k', u)) => put s (insertChild k' u 0 cs)

/-- The filler leaves of a root node. -/
def State.fillers (s : State) (root : Nat) : List Nat :=
  ((s.children root).filter s.isFiller).foldl (fun l c => insertNat l c.addr) []

/-- The state in which the filler leaves that a change has removed from a root node return to the pool (R424). -/
def State.giveFillers (s : State) (r : BitVec 16) (root : Nat) (l : List Nat) : State :=
  (l.filter fun a => !((s.children root).any fun c => c.isLeaf && c.addr = a)).foldl (fun s a => s.giveHalf r a) s

/-- The state with a new leaf for an entry in a region's tree; none where a node cannot be had (R424). The root
keeps its address, so a divided root's halves move to nodes below it. -/
def State.addRange (s : State) (r : BitVec 16) (e : RangeEntry) (bitmap : Nat) : Option State :=
  let r := s.treeOf r
  match s.takeHalf r with
  | none => none
  | some (h, s) =>
    let s := (s.writeLeaf h e).poke (h + 64) (leBytes 8 bitmap ++ leBytes 56 0)
    let root := s.rangeRoot r
    let fillers := s.fillers root
    match s.insertLeafAt r e.vbase (h + 1) 14 root with
    | none => none
    | some (s, none) => some (s.giveFillers r root fillers)
    | some (s, some (k, u)) =>
      match s.takeUnit r with
      | none => none
      | some (l, s) =>
        some (((s.writeNode l (s.children root)).writeNode root [⟨0, l⟩, ⟨k, u⟩]).giveFillers r root fillers)

/-- Removal of a leaf below a node: the state, and the children that remain of the node. The key of a child that has
lost its lowest leaf becomes the VBASE of the leaf that is the lowest now (R133). -/
def State.removeLeafAt (s : State) (r : BitVec 16) (k leaf : Nat) : Nat → Nat → State × List Child
  | 0, node => (s, s.children node)
  | n + 1, node =>
    let cs := s.children node
    match childFor k cs with
    | none => (s, cs)
    | some c =>
      if c.isLeaf then
        if c.addr = leaf then (s, cs.filter fun d => d.ref ≠ c.ref) else (s, cs)
      else
        let (s, below) := s.removeLeafAt r k leaf n c.addr
        match below with
        | [] => (s.giveUnit r c.addr, cs.filter fun d => d.ref ≠ c.ref)
        | [d] => (s.giveUnit r c.addr, cs.map fun x => if x.ref = c.ref then ⟨s.lowest 14 d, d.ref⟩ else x)
        | d :: _ =>
          (s.writeNode c.addr below, cs.map fun x => if x.ref = c.ref then { x with key := s.lowest 14 d } else x)

/-- The state without a leaf in a region's tree. A root that would have fewer than two children keeps the removed
leaf, zeroed, as a filler that covers no address (DESIGN CHOICE, log 7). -/
def State.dropRange (s : State) (r : BitVec 16) (l : Leaf) : State :=
  let r := s.treeOf r
  let root := s.rangeRoot r
  let (s, cs) := s.removeLeafAt r l.entry.vbase l.addr 14 root
  match cs with
  | [] => (s.poke l.addr (leBytes 128 0)).writeNode root [⟨0, l.addr + 1⟩, ⟨2 ^ 56, l.addr + 1⟩]
  | [c] =>
    if c.isLeaf then (s.poke l.addr (leBytes 128 0)).writeNode root [⟨0, c.ref⟩, ⟨2 ^ 56, l.addr + 1⟩]
    else
      ((s.writeNode root (s.children c.addr)).giveUnit r c.addr).giveHalf r l.addr
  | _ => (s.writeNode root cs).giveHalf r l.addr

/-- The leaf of a region that covers an address, by the tree as it stands. -/
def State.leafAt (s : State) (r : BitVec 16) (va : Nat) : Option Leaf :=
  (s.leaves r).find? fun l => l.entry.covers va

end Sys2Proof.Machine
end

