-- ==== Sys2Proof/Machine/Messages.lean ====
section
/-! DEFINITION. Messages, message ids and dead letters (R82, R83, R312 to R314), fault records and debug records on
their way to system handlers (R213, R214, R217, R421). -/

namespace Sys2Proof.Machine

/-- A message id (R314). -/
def mkMsgId (seq : BitVec 46) (src : BitVec 10) (dev : BitVec 8) : Word :=
  wd (seq.toNat + src.toNat * 2 ^ 46 + dev.toNat * 2 ^ 56)

/-- HANDLER of a destination word (R312). -/
def dHandler (d : Word) : BitVec 12 := BitVec.ofNat 12 (bits d 11 0)
/-- CLASS of a destination word. -/
def dClass (d : Word) : BitVec 2 := BitVec.ofNat 2 (bits d 13 12)
/-- MODE of a destination word. -/
def dMode (d : Word) : Nat := bits d 15 14
/-- TILE of a destination word. -/
def dTile (d : Word) : BitVec 10 := BitVec.ofNat 10 (bits d 25 16)
/-- DEV of a destination word of MODE 0. -/
def dDev (d : Word) : BitVec 8 := BitVec.ofNat 8 (bits d 33 26)
/-- PEER of a destination word of MODE 0. -/
def dPeer (d : Word) : Bool := bit d 34
/-- PREGION of a destination word of MODE 0. -/
def dPregion (d : Word) : BitVec 16 := BitVec.ofNat 16 (bits d 50 35)
/-- The fibre that a destination word of MODE 1 names. -/
def dFibre (d : Word) : Word :=
  mkHandle (dTile d) (BitVec.ofNat 12 (bits d 37 26)) (BitVec.ofNat 24 (bits d 61 38)) 1

/-- A message is a sum-into (R122, R124). -/
def Message.sums (m : Message) : Bool := m.kind = .plain && bits m.xform 3 0 = 5

/-- The destination word of a message to a handler of this device (R312). -/
def handlerDest (h : BitVec 12) (cls : Nat) (tile : BitVec 10) : Word :=
  wd (h.toNat + cls * 2 ^ 12 + tile.toNat * 2 ^ 16)

/-- The next message id of a tile, and the state in which it has been given (R314). -/
def State.tileId (s : State) (t : BitVec 10) : Word × State :=
  (mkMsgId (s.tile t).seq t s.hub.devnum, s.modTile t fun x => { x with seq := x.seq + 1 })

/-- The next message id of the hub (R314). -/
def State.hubId (s : State) : Word × State :=
  (mkMsgId s.hub.seq 0x3FF s.hub.devnum, { s with hub := { s.hub with seq := s.hub.seq + 1 } })

/-- The state with a message entered in the network under a new identity. -/
def State.post (s : State) (m : Message) : State :=
  { s with net := s.net ++ [{ m with uid := s.uids }], uids := s.uids + 1 }

/-- The sets of `sc14` (R167): all tiles, all cluster memories and all arrays of the device. -/
def setsDevice : Sets :=
  ⟨14, 0, none, BitVec.allOnes 1024, BitVec.allOnes 64, BitVec.allOnes 1024, false⟩

/-- The sets of `sc15` on this device (R167): those of `sc14` and the host. -/
def setsSystem : Sets := { setsDevice with index := 15, host := true }

/-- The bytes of a fault record (R213). -/
def FaultRec.bytes (f : FaultRec) : List Byte :=
  leBytes 8 (f.cause.toNat + f.tile.toNat * 2 ^ 8 + f.thread.toNat * 2 ^ 18 + f.fate.toNat * 2 ^ 21
    + f.region.toNat * 2 ^ 24 + nb f.step * 2 ^ 40) ++
  leBytes 8 f.msgid.toNat ++ leBytes 8 f.fibre.toNat ++ leBytes 8 (bits f.pc 55 0) ++
  leBytes 8 f.insn.toNat ++ leBytes 8 f.addr.toNat ++ leBytes 8 f.info.toNat ++ leBytes 8 f.cyc.toNat

/-- The state with a fault record sent to its region's system handler: a class 3 message of the tile, with the record
as its payload and the cause in `g6` (R214). -/
def State.sendRecord (s : State) (f : FaultRec) : State :=
  let (id, s) := s.tileId f.tile
  let colour := (s.cut f.tile f.region).colour
  let s := s.modCut f.tile f.region fun c => c.send colour
  s.post
    { uid := 0, kind := .system, msgid := id, dest := handlerDest (s.sysh f.region) 3 (s.sysTile f.region),
      arg := f.cause.setWidth 64, cls := 3, region := f.region, len := 64, payload := f.bytes, xform := 0,
      sets := some setsDevice, colour := some colour }

/-- The nearest ancestor of a region outside a group of regions (R217). -/
def State.outerRegion (s : State) (group : List (BitVec 16)) (r : BitVec 16) : Option (BitVec 16) :=
  ((s.rcbPath 8 (s.rcbOf r)).drop 1).findSome? fun a =>
    match s.regionAt a with
    | some q => if group.contains q then none else some q
    | none => none

/-- The next message id of a sender: a tile, or the hub for a home that is no tile (log 9). -/
def State.senderId (s : State) (t : Option (BitVec 10)) : Word × State :=
  match t with
  | some t => s.tileId t
  | none => s.hubId

/-- The state with a debug record sent to the system handler of the nearest ancestor outside the frozen group, or
kept by the attic (R217, R421). It carries no colour. The attic keeps every record, also beyond the bytes that READBACK
class 15 shows (DESIGN CHOICE, log 57). -/
def State.sendDebug (s : State) (sender : Option (BitVec 10)) (f : FaultRec) : State :=
  match s.outerRegion (s.group f.region) f.region with
  | none => { s with hub := { s.hub with debugs := s.hub.debugs ++ [f.bytes] } }
  | some q =>
    let (id, s) := s.senderId sender
    s.post
      { uid := 0, kind := .debug, msgid := id, dest := handlerDest (s.sysh q) 3 (s.sysTile q),
        arg := f.cause.setWidth 64, cls := 3, region := q, len := 64, payload := f.bytes, xform := 0,
        sets := some setsDevice, colour := none }

/-- The bytes of a dead letter (R82). -/
def letterBytes (reason : Nat) (m : Message) (time : Word) : Letter :=
  leBytes 8 (reason + bits m.msgid 55 46 * 2 ^ 8 + bits m.msgid 63 56 * 2 ^ 18) ++
  leBytes 8 m.msgid.toNat ++ leBytes 8 m.dest.toNat ++ leBytes 8 m.arg.toNat ++ leBytes 8 m.len ++
  leBytes 8 time.toNat ++ ((m.payload.take 16) ++ leBytes 16 0).take 16

/-- The state with the DEAD_LETTER message of a region's queue sent by the hub (R82). -/
def State.sendDeadLetter (s : State) (r : BitVec 16) : State :=
  let (id, s) := s.hubId
  s.post
    { uid := 0, kind := .system, msgid := id, dest := handlerDest (s.sysh r) 3 (s.sysTile r), arg := 0x42, cls := 3,
      region := r, len := 0, payload := [], xform := 0, sets := some setsDevice, colour := none }

/-- The state with a message written as a dead letter of a loaded region, or of the device where the region is not
loaded (R82, R83). The device's own queue is 65,536 bytes (R225), and a letter that finds it full is dropped
(DESIGN CHOICE, log 57). -/
def State.deadLetter (s : State) (r : BitVec 16) (reason : Nat) (m : Message) : State :=
  match s.region? r with
  | none =>
    if s.hub.letters.length < 1024 then
      { s with hub := { s.hub with letters := s.hub.letters ++ [letterBytes reason m s.time] } }
    else s
  | some _ =>
    let q := s.dlqRcb r
    let head := s.rcbField q 8 31 0
    let tail := s.rcbField q 8 63 32
    let cap := 2 ^ s.dlqLog r
    if (tail + 2 ^ 32 - head) % 2 ^ 32 = cap then s.setRcbField q 11 31 0 (s.rcbField q 11 31 0 + 1)
    else
      let s' := (s.poke (s.dlqBase r + 64 * (tail % cap)) (letterBytes reason m s.time)).setRcbField q 8 63 32 (tail + 1)
      if tail = head then s'.sendDeadLetter r else s'

end Sys2Proof.Machine
end

