-- ==== Sys2Proof/Machine/Stores.lean ====
section
/-! DEFINITION. Stores performed at their homes (R160, R161, R165, R172): watchpoints (R226, R227), forward records (R140),
use-once lines (R156), and the stores on their way. -/

namespace Sys2Proof.Machine

/-- The kinds of access that a watch pair selects (R226). -/
inductive WKind where
  | rd | wr | amo | eng
  deriving DecidableEq, Repr

/-- What an access request carries about its issuer (R227). -/
structure Issuer where
  tile : BitVec 10
  thread : BitVec 3
  icnt : Word
  msgid : Word
  fibre : Word
  deriving DecidableEq, Repr

/-- The current thread as an issuer. -/
def State.issuer (s : State) : Issuer :=
  let t := s.self
  ⟨s.cur.tile, s.cur.thread, t.icnt, t.msgid, t.fibre⟩

/-- A pair watches an access of a kind to n bytes at a physical address (R226, R227). -/
def WatchPair.hit (w : WatchPair) (k : WKind) (pa n : Nat) : Bool :=
  w.en && decide (w.addr.toNat < pa + n) && decide (pa < w.addr.toNat + 2 ^ w.sz.toNat) &&
    match k with
    | .rd => w.rd
    | .wr => w.wr
    | .amo => w.amo
    | .eng => w.eng

/-- The watch pairs of a home. -/
def State.pairs (s : State) (pa : Nat) : Vector WatchPair 4 :=
  match home? pa with
  | some (.tile i) => (s.tile (BitVec.ofNat 10 i)).watch
  | some (.cmem c) => (s.cmem c).watch
  | _ => Vector.replicate 4 WatchPair.reset

/-- The state with the watch pairs of a home replaced. -/
def State.setPairs (s : State) (pa : Nat) (w : Vector WatchPair 4) : State :=
  match home? pa with
  | some (.tile i) => s.modTile (BitVec.ofNat 10 i) fun t => { t with watch := w }
  | some (.cmem c) => s.modCmem c fun m => { m with watch := w }
  | _ => s

/-- A hit of one pair: a debug record, EN cleared, and a freeze of the pair's region (R227, R423). -/
def State.takeHit (s : State) (x : Issuer) (pa : Nat) (i : Fin 4) : State :=
  let w := s.pairs pa
  let f : FaultRec :=
    { cause := causeCode .watchHit, tile := x.tile, thread := x.thread, fate := fateCode .d, region := w[i].region,
      step := false, msgid := x.msgid, fibre := x.fibre, pc := 0, insn := x.icnt.setWidth 32, addr := 0,
      info := w[i].addr.setWidth 64, cyc := s.cyc }
  let home := match home? pa with
    | some (.tile i) => some (BitVec.ofNat 10 i)
    | _ => none
  let s := (s.sendDebug home f).setPairs pa (w.set i { w[i] with en := false })
  s.askFreeze w[i].region

/-- The pieces of n bytes that lie in one line each: address and length (R162). -/
def linePieces (va n : Nat) : List (Nat × Nat) :=
  if n = 0 then []
  else (List.range ((va + n - 1) / 128 + 1 - va / 128)).map fun i =>
    let lo := max va ((va / 128 + i) * 128)
    let hi := min (va + n) ((va / 128 + i + 1) * 128)
    (lo, hi - lo)

/-- The watch pairs of the home of n bytes have seen an access to them (R226, R227). -/
def State.seen (s : State) (x : Issuer) (k : WKind) (pa n : Nat) : State :=
  (List.range 4).foldl (fun s i =>
    if h : i < 4 then if (s.pairs pa)[i].hit k pa n then s.takeHit x pa ⟨i, h⟩ else s else s) s

/-- The state after homes have performed an access: its lines have been used (R145), and the watch pairs of each line's
home have seen the bytes of that line (R226, R227). -/
def State.watched (s : State) (x : Issuer) (k : WKind) (pa n : Nat) : State :=
  (linePieces pa n).foldl (fun s q => s.seen x k q.1 q.2) (s.touch pa n false)

/-- A use-once line of a cluster memory. -/
def Cmem.once? (m : Cmem) (line : Nat) : Option OnceLine := m.useOnce.find? fun o => o.base = line

/-- The cluster memory without a use-once line. -/
def Cmem.dropOnce (m : Cmem) (line : Nat) : Cmem := { m with useOnce := m.useOnce.filter fun o => !(o.base = line) }

/-- The use-once lines that n bytes touch leave their cluster memories without write-back, and HBM holds again what it
held before (R156). -/
def State.consumeOnce (s : State) (pa n : Nat) : State :=
  (hbmLines pa n).foldl (fun s l =>
    match (s.cmem (hbmHome l)).once? l with
    | some o =>
      let s := (s.poke l (leBytes 128 o.below.toNat)).modCmem (hbmHome l) fun m => m.dropOnce l
      if o.poisoned then s.mark l 128 else s
    | none => s) s

/-- The blocks of TIERED ranges that a write of n bytes reaches are DIRTY (R153). -/
def State.dirtyAt (s : State) (pa n : Nat) : State :=
  if n = 0 then s
  else (List.range ((pa + n - 1) / 65536 + 1 - pa / 65536)).foldl (fun s i =>
    let b := (pa / 65536 + i) * 65536
    match mfind s.blocks b with
    | some x => if x.state = .resident then { s with blocks := mset s.blocks b { x with dirty := true } } else s
    | none => s) s

/-- The lines of host memory that n bytes touch and that count as poisoned for one access. -/
def State.unansweredAt (s : State) (pa n : Nat) : List Nat := s.unanswered.filter fun l => l < pa + n && pa < l + 128

/-- The access that the host did not answer has been made: the line is as it was (R149). -/
def State.answered (s : State) (pa n : Nat) : State :=
  let l := s.unansweredAt pa n
  if l.isEmpty then s
  else { s with
    poison := s.poison.filter fun u => !(l.contains u)
    unanswered := s.unanswered.filter fun u => !(l.contains u) }

/-- The state in which homes are about to take a write of n bytes (`State.poke`): use-once lines are normal ones, and the
blocks are DIRTY (R153, R156). -/
def State.normalise (s : State) (pa n : Nat) : State :=
  (hbmLines pa n).foldl (fun s l => s.modCmem (hbmHome l) fun m => m.dropOnce l) ((s.answered pa n).dirtyAt pa n)

/-- The forward records of the home of an address (R140). -/
def State.recordsAt (s : State) (pa : Nat) : List ForwardRec :=
  match home? pa with
  | some (.cmem c) => (s.cmem c).forward
  | _ => s.forward

/-- Where a home sends an access that reaches an old line of a move: to the new image, if a forward record covers the
line (R140). -/
def State.forwarded (s : State) (va pa : Nat) : Nat :=
  match (s.recordsAt pa).find? fun f => f.lo ≤ pa && pa < f.hi with
  | some f => imageOf f.foff va
  | none => pa

/-- A store performed at a physical address (R160). -/
def State.performAt (s : State) (x : Issuer) (k : WKind) (pa : Nat) (bs : List Byte) : State :=
  ((s.normalise pa bs.length).poke pa bs).watched x k pa bs.length

/-- A store performed at its home (R160), where forward records send it (R140). -/
def State.performStore (s : State) (x : Issuer) (k : WKind) (va pa : Nat) (bs : List Byte) : State :=
  s.performAt x k (s.forwarded va pa) bs

/-- The step of 64 KiB of a move that a physical address lies in, of the old image or of the new one (R140). -/
def Move.stepOf (m : Move) (pa : Nat) : Option Nat :=
  let inside (off : Word) : Bool := imageOf off m.vbase ≤ pa && pa < imageOf off m.vbase + (m.limit - m.vbase)
  if inside m.oldOff then some ((pa - imageOf m.oldOff m.vbase) / 65536)
  else if inside m.newOff then some ((pa - imageOf m.newOff m.vbase) / 65536)
  else none

/-- Two physical addresses lie in one step of a FORWARDING range (R141). -/
def State.sameStep (s : State) (pa qa : Nat) : Bool :=
  s.moves.any fun m => (m.stepOf pa).isSome && m.stepOf pa = m.stepOf qa

/-- Where a store on its way is performed: at its address, or where the forward records send it (R140). -/
def State.landsAt (s : State) (a : Access) : Nat := s.forwarded a.va a.pa

/-- Two stores on their way keep the order of their issue: they are of one thread, the same home performs both, and for the
host they are to one line (R148, R161). -/
def State.ordered (s : State) (a b : Access) : Bool :=
  a.tile = b.tile && a.thread = b.thread && home? (s.landsAt a) = home? (s.landsAt b) &&
    (home? (s.landsAt a) ≠ some .host || s.landsAt a / 128 = s.landsAt b / 128)

/-- Two stores on their way keep the order of their issue in a state: as above, or two volatile ones of one thread
(R166), or two of one tile to one step of a FORWARDING range (R141). -/
def State.keptOrder (s : State) (a b : Access) : Bool :=
  s.ordered a b || (a.tile = b.tile && a.thread = b.thread && a.vol && b.vol) || (a.tile = b.tile && s.sameStep a.pa b.pa)

/-- The tile's L1 without the line of an address (R110). -/
def State.dropLine (s : State) (t : BitVec 10) (pa : Nat) : State :=
  s.modTile t fun x => { x with l1 := x.l1.filter fun c => !(c.line = pa / 128) }

/-- The tile's L1 without the line to which a forward record sends an access, where one does (R110, R140). -/
def State.dropForwarded (s : State) (t : BitVec 10) (va pa : Nat) : State :=
  if s.forwarded va pa = pa then s else s.dropLine t (s.forwarded va pa)

/-- A store on its way performed at its home (R160). Where a forward record sends it to another line, its tile keeps no copy
of that line without it (R110, R163). -/
def State.performFlight (s : State) (a : Access) : State :=
  (s.dropForwarded a.tile a.va a.pa).performStore ⟨a.tile, a.thread, a.icnt, a.msgid, a.fibre⟩ .wr a.va a.pa a.data

/-- The stores on their way that a test selects, with the earlier ones that keep their order, and the others (R161). -/
def Access.select (kept : Access → Access → Bool) (p : Access → Bool) : List Access → List Access × List Access
  | [] => ([], [])
  | a :: r =>
    let (x, y) := Access.select kept p r
    if p a || x.any (kept a) then (a :: x, y) else (x, a :: y)

/-- The stores on their way that a test selects are performed, in the order of issue, after the earlier ones that keep
their order (R141, R161, R166). -/
def State.performThose (s : State) (p : Access → Bool) : State :=
  let (now, later) := Access.select s.keptOrder p s.inflight
  now.foldl State.performFlight { s with inflight := later }

/-- Stores on their way that a thread issued and that a home performs which a test selects are performed, in the order of
issue (R140, R161, R172). -/
def State.drain (s : State) (x : ThreadId) (sel : Home → Bool) : State :=
  s.performThose fun a => a.tile = x.tile && a.thread = x.thread && match home? (s.landsAt a) with
    | some h => sel h
    | none => true

/-- The volatile stores of a thread that are on their way are performed: it issues no volatile access before (R166). -/
def State.drainVol (s : State) : State :=
  s.performThose fun a => a.tile = s.cur.tile && a.thread = s.cur.thread && a.vol

/-- The release at `sc14` of a fibre whose activation is over (R70): the stores that it issued are performed. -/
def State.drainFibre (s : State) (h : Word) : State := s.performThose fun a => a.fibre = h

/-- The current thread's earlier stores that the home of an address performs are performed (R161), and those of its tile to
the same step of a FORWARDING range (R141). -/
def State.drainHome (s : State) (pa : Nat) : State :=
  s.performThose fun a =>
    (a.tile = s.cur.tile && a.thread = s.cur.thread && home? (s.landsAt a) = home? pa) ||
      (a.tile = s.cur.tile && s.sameStep a.pa pa)

/-- The same before an access at a virtual address, for the home that performs it: forward records are followed (R140,
R161). -/
def State.drainAt (s : State) (va pa : Nat) : State := s.drainHome (s.forwarded va pa)

/-- The stores on their way from a tile to the step of a FORWARDING range that n bytes lie in are performed: an access of
the tile to the step passes none of them (R141). -/
def State.drainStep (s : State) (t : BitVec 10) (pa n : Nat) : State :=
  s.performThose fun a => a.tile = t && (s.sameStep a.pa pa || s.sameStep a.pa (pa + n - 1))

/-- A release at a scope (R172): the thread's earlier stores to homes of the set are performed. -/
def State.release (s : State) (x : Sets) : State := s.drain s.cur fun h => h.mem x

/-- Every earlier access of the thread is performed, at every home: the release to an engine (R180). -/
def State.releaseAll (s : State) : State := s.drain s.cur fun _ => true

end Sys2Proof.Machine
end

