-- ==== Sys2Proof/Machine/Contexts.lean ====
section
/-! DEFINITION. Contexts as bytes of a scratchpad (R187, R189): the fields of the CXD and the frame records by the
CXD's physical address, invalidation of range tables, and the freeing of a context (R188). -/

namespace Sys2Proof.Machine

/-- Bits h down to l of word i of a CXD or of the frame table behind it. -/
def State.cx (s : State) (cxd i h l : Nat) : Nat := bits (s.peekWord (cxd + 8 * i)) h l

/-- The state with bits h down to l of word i of a CXD replaced. -/
def State.setCx (s : State) (cxd i h l v : Nat) : State :=
  s.pokeNat (cxd + 8 * i) 8 (setBits (s.peekNat (cxd + 8 * i) 8) h l v)

/-- CSTATE. -/
def State.cstate (s : State) (c : Nat) : Nat := s.cx c 0 1 0
/-- DEPTH. -/
def State.cdepth (s : State) (c : Nat) : Nat := s.cx c 0 6 2
/-- CAPLOG. -/
def State.caplog (s : State) (c : Nat) : Nat := s.cx c 0 11 7
/-- EPOCH. -/
def State.epoch (s : State) (c : Nat) : Nat := s.cx c 0 12 12
/-- SEALD. -/
def State.seald (s : State) (c : Nat) : Nat := s.cx c 0 17 13
/-- LAYERS, the number of layers minus 1. -/
def State.clayers (s : State) (c : Nat) : Nat := s.cx c 0 24 18
/-- KVH, the number of key-value heads minus 1. -/
def State.kvh (s : State) (c : Nat) : Nat := s.cx c 0 30 25
/-- The head dimension D. -/
def State.cdim (s : State) (c : Nat) : Nat := 16 * (s.cx c 0 34 31 + 1)
/-- KTAG. -/
def State.ktag (s : State) (c : Nat) : Nat := s.cx c 0 38 35
/-- VTAG. -/
def State.cvtag (s : State) (c : Nat) : Nat := s.cx c 0 42 39
/-- RGPEND. -/
def State.rgpend (s : State) (c : Nat) : Nat := s.cx c 0 43 43
/-- CHAIN. -/
def State.chain (s : State) (c : Nat) : Nat := s.cx c 0 47 44
/-- NSER. -/
def State.nser (s : State) (c : Nat) : Nat := s.cx c 0 63 48
/-- SLAB. -/
def State.slab (s : State) (c : Nat) : Nat := s.cx c 1 55 0
/-- VALID. -/
def State.cvalid (s : State) (c : Nat) : Nat := s.cx c 2 31 0
/-- CURSOR. -/
def State.ccursor (s : State) (c : Nat) : Nat := s.cx c 3 31 0
/-- OLDLEN. -/
def State.oldlen (s : State) (c : Nat) : Nat := s.cx c 3 63 32
/-- READ0 or READ1. -/
def State.creaders (s : State) (c e : Nat) : Nat := if e = 0 then s.cx c 4 31 0 else s.cx c 4 63 32
/-- PARENTCX. -/
def State.parentcx (s : State) (c : Nat) : Word := s.peekWord (c + 40)
/-- BASEPOS. -/
def State.basepos (s : State) (c : Nat) : Nat := s.cx c 6 31 0
/-- FORKS. -/
def State.cforks (s : State) (c : Nat) : Nat := s.cx c 6 47 32
/-- BINDS. -/
def State.binds (s : State) (c : Nat) : Nat := s.cx c 6 63 48
/-- OWNER. -/
def State.cowner (s : State) (c : Nat) : Word := s.peekWord (c + 56)
/-- CGEN. -/
def State.cgen (s : State) (c : Nat) : Nat := s.cx c 8 7 0

/-- The state with READ0 or READ1 set. -/
def State.setReaders (s : State) (c e n : Nat) : State := if e = 0 then s.setCx c 4 31 0 n else s.setCx c 4 63 32 n

/-- Word i of frame record k, as a word of the CXD's table (R189). -/
def frameWord (k i : Nat) : Nat := 32 + 8 * k + i

/-- START of frame k. -/
def State.fstart (s : State) (c k : Nat) : Nat := s.cx c (frameWord k 0) 31 0
/-- PROLEN of frame k. -/
def State.fprolen (s : State) (c k : Nat) : Nat := s.cx c (frameWord k 0) 47 32
/-- FSER of frame k. -/
def State.fser (s : State) (c k : Nat) : Nat := s.cx c (frameWord k 0) 63 48
/-- NARG of frame k. -/
def State.fnarg (s : State) (c k : Nat) : Nat := s.cx c (frameWord k 1) 2 0
/-- SEAL of frame k. -/
def State.fseal (s : State) (c k : Nat) : Nat := s.cx c (frameWord k 1) 3 3
/-- PROSET of frame k. -/
def State.fproset (s : State) (c k : Nat) : Nat := s.cx c (frameWord k 1) 4 4
/-- FID of frame k. -/
def State.ffid (s : State) (c k : Nat) : Word := s.peekWord (c + 8 * frameWord k 7)

/-- The state in which no tile holds an entry of a region that overlaps an interval of its virtual space, and every
store to the interval has been performed (R138). -/
def State.invalidate (s : State) (r : BitVec 16) (lo hi : Nat) : State :=
  let q := s.treeOf r
  let s := s.performThose fun a => s.treeOf a.region = q && lo ≤ a.va && a.va < hi
  { s with tiles := s.tiles.map fun x =>
      (x.1, { x.2 with rtable := x.2.rtable.filter fun e => !(e.rtag = q && e.vbase < hi && lo < e.limit) }) }

/-- The state with the range of a leaf removed from a region's tree and from every table (R415). -/
def State.removeRange (s : State) (r : BitVec 16) (l : Leaf) : State :=
  (s.invalidate r l.entry.vbase l.entry.limit).dropRange r l

/-- The contexts of the device with the regions that declared or forked them. Those of a region that is switched out
lie in no scratchpad. -/
def State.ctxList (s : State) : List (BitVec 16 × CtxSlot) :=
  s.regions.flatMap fun x =>
    if x.2.saved.isNone then x.2.ctxs.map fun c => (BitVec.ofNat 16 x.1, c) else []

/-- The record of a context, in whichever region declared or forked it: regions may share a tree (R58). -/
def State.ctxSlot? (s : State) (cxd : Nat) : Option CtxSlot := (s.ctxList.find? fun x => x.2.cxd = cxd).map (·.2)

/-- The region whose context lies at a physical address: the one that declared or forked it. -/
def State.ctxRegion (s : State) (cxd : Nat) : BitVec 16 :=
  match s.ctxList.find? fun x => x.2.cxd = cxd with
  | some x => x.1
  | none => s.self.region

/-- The state with a context's record changed. -/
def State.modCtxSlot (s : State) (cxd : Nat) (f : CtxSlot → CtxSlot) : State :=
  s.modRegion (s.ctxRegion cxd) fun x => { x with ctxs := replaceFirst (fun c => c.cxd = cxd) f x.ctxs }

/-- The home tile of a context. -/
def ctxHome (cxd : Nat) : BitVec 10 := BitVec.ofNat 10 ((cxd - arrayBase) / 0x400000)

/-! The slab (R191). -/

/-- The bytes of an element of a key or value format. -/
def kvBytes (tag : Nat) : Nat := if tag = 1 then 4 else if tag = 2 then 2 else 1

/-- row_k. -/
def State.rowK (s : State) (c : Nat) : Nat := (s.kvh c + 1) * s.cdim c * kvBytes (s.ktag c)
/-- row_v. -/
def State.rowV (s : State) (c : Nat) : Nat := (s.kvh c + 1) * s.cdim c * kvBytes (s.cvtag c)
/-- CB. -/
def State.chunkBytes (s : State) (c : Nat) : Nat := 2048 + 256 * (s.clayers c + 1) * (s.rowK c + s.rowV c)

/-- The order of the run that a number of bytes takes: blocks of 64 KiB, rounded up to a power of two. -/
def runOrder (bytes : Nat) : Nat :=
  let n := (bytes + 65535) / 65536
  if n ≤ 1 then 0 else Nat.log2 (n - 1) + 1

/-- The order of the run of a slab of 2^log tokens (R191). -/
def State.slabOrder (s : State) (c log : Nat) : Nat := runOrder (2 ^ log / 256 * s.chunkBytes c)

/-- The bytes of a slab as its capacity stands. -/
def State.slabSize (s : State) (c : Nat) : Nat := 2 ^ s.slabOrder c (s.caplog c) * 65536

/-- A virtual address lies in a context's slab. -/
def State.inSlab (s : State) (c va : Nat) : Bool := s.slab c ≤ va && va < s.slab c + s.slabSize c

/-- The ranges that a context's slab is made of: one, unless `rsplit` has divided it (R135). -/
def State.slabLeaves (s : State) (c : Nat) : List Leaf := (s.leaves (s.ctxRegion c)).filter fun l => s.inSlab c l.entry.vbase

/-- A context may be freed (R188): it is live, its owner has ended (or the region is unloading, for a loader
context), and no fork, binding or reader counts on it. -/
def State.ctxFreeable (s : State) (x : CtxSlot) : Bool :=
  let c := x.cxd
  s.cstate c ≠ 0 && s.cforks c = 0 && s.binds c = 0 && s.creaders c 0 = 0 && s.creaders c 1 = 0 &&
    s.cowner c = 0 && (!x.loader || match s.region? (s.ctxRegion c) with | some y => y.unloading | none => true)

/-- The state with a context freed if it may be (R188). Its slab is removed, its run returned and its parent's FORKS
lowered once the commands of the owner that has ended have finished: such an `attn` still reads the slab, and the parent's
(R415; DEDUCED, log 74). -/
def State.releaseCtx (s : State) (cxd : Nat) : State :=
  match s.ctxSlot? cxd with
  | none => s
  | some x =>
    if s.ctxFreeable x then
      let s : State := { s with releases := s.releases ++ [⟨s.ctxRegion cxd, s.slab cxd, x.ended, 0, true, some cxd⟩] }
      (s.setCx cxd 0 1 0 0).setCx cxd 8 7 0 (if s.cgen cxd = 255 then 1 else s.cgen cxd + 1)
    else s

/-- The state with a thread's reader memberships left (R198). -/
def State.leaveEpochs (s : State) (x : ThreadId) : State :=
  let t := s.thread x
  let s := t.readers.foldl (fun s c =>
    (s.setReaders c.1 (nb c.2) (s.creaders c.1 (nb c.2) - 1)).releaseCtx c.1) s
  s.modThread x fun t => { t with readers := [] }

end Sys2Proof.Machine
end

