-- ==== Sys2Proof/Machine/Lifecycle.lean ====
section
/-! DEFINITION. The lives of fibres and futures: references and counts (R70 to R72), resolution (R70, R79), the end of
a fibre (R65), reclamation (R73 to R77), and the abort of an activation (R211). -/

namespace Sys2Proof.Machine

/-- An engine command that a reclaimed fibre had issued has not stopped yet (R75). -/
def State.cancelling (s : State) (h : Word) : Bool :=
  s.tiles.any fun t => t.2.cmds.any fun c => c.cancelled && c.fibre = fibreHandle h

/-- The slot of a future is freed once the future is resolved or reclaimed, its count is zero, its fibre is gone, the
commands that its reclamation has cancelled have stopped, and every PRIVATE range of the fibre has been passed on or
removed (R69, R75, R415). -/
def State.tryFree (s : State) (h : Word) : State :=
  match s.future? h with
  | none => s
  | some f =>
    let x := s.slot (hTile h) (hSlot h)
    let settled := match f.fstat with
      | .resolved => true
      | .reclaimed => true
      | _ => false
    if settled && f.count = 0 && x.fibre.isNone && !s.cancelling h &&
        !(s.releases.any fun r => r.owner = fibreHandle h) then
      s.modSlot (hTile h) (hSlot h) fun y => { gen := nextGen y.gen, fibre := none, future := none }
    else s

/-- A fibre waits with nothing else under way but a message that may start: it may be made ready. -/
def Fibre.idle (f : Fibre) : Bool :=
  (f.fstate = .waiting || f.fstate = .ready) && f.pending.isNone && f.fault.isNone && f.runsOn.isNone && !f.rclm

/-- The state with a fibre's continuation made ready, if its future has settled and the fibre waits (R332). A fibre that
stands is made ready at THAW (R220). -/
def State.wakeCont (s : State) (w : Word) : State :=
  match s.fibre? w with
  | some f =>
    match f.settled with
    | some (g1, g6) =>
      if f.cont && f.idle && !s.fibreStands w then s.makeReady w ⟨.continuation, f.conth, g1, g6, f.waitfut⟩ else s
    | none => s
  | none => s

/-- The state in which a fibre's registered continuation knows that its future has resolved or been reclaimed: `g1`
is 0 or 1 and `g6` the result or 0 (R332). It is made ready now, or when the activation that runs has ended. -/
def State.wakeWaiter (s : State) (fut : Word) (w : Word) : State :=
  match s.future? fut with
  | some x =>
    let done := x.fstat = .resolved
    (s.modFibre w fun f =>
      if f.cont && f.waitfut = fut then
        { f with settled := some (if done then 0 else 1, if done then x.result else 0) }
      else f).wakeCont w
  | none => s

/-- The state with the continuations that wait for a future made ready. -/
def State.wakeWaiters (s : State) (fut : Word) : State :=
  match s.future? fut with
  | none => s
  | some x => (x.waiters.foldl (fun s w => s.wakeWaiter fut w) s).modFuture fut fun x => { x with waiters := [] }

/-- The state with a future resolved (R70): RESULT is set and the continuations are made ready. -/
def State.resolve (s : State) (fut : Word) (result : Word) : State :=
  (s.modFuture fut fun x => { x with fstat := .resolved, result := result }).wakeWaiters fut

/-- The thread of a fibre whose RCLM is set: its latch is set (R185), and a wait in `bar.wait` tests again (R307). -/
def Thread.alert (t : Thread) : Thread :=
  { t with latch := true, hold := match t.hold with
      | .barrier _ => .retest
      | .pause c => if t.polls = 0 then .pause c else .retest
      | h => h }

/-- The state in which a fibre whose RCLM is set and which runs no activation is to be reclaimed without running again
(R74): it is no longer parked, and a fault that waits for a disposition is dropped (R212). -/
def State.queueReclaim (s : State) (h : Word) : State :=
  match s.fibre? h with
  | none => s
  | some f =>
    if !f.rclm || f.runsOn.isSome || s.reclaims.contains (fibreHandle h) then s
    else
      { (s.modFibre h fun f => { f with fstate := .reclaiming, park := none, fault := none, kvFault := none }) with
        reclaims := s.reclaims ++ [fibreHandle h] }

/-- The state with RCLM set on a fibre (R73, R74): one that runs stops at its next reclamation point and its
thread's latch is set (R185); any other is reclaimed without running again. -/
def State.setRclm (s : State) (h : Word) : State :=
  match s.fibre? h with
  | none => s
  | some f =>
    if f.rclm then s
    else
      let s := s.modFibre h fun f => { f with rclm := true }
      match f.runsOn with
      | some x => s.modThread x Thread.alert
      | none => s.queueReclaim h

/-- COUNT of a fibre's future lowered by 1, and what follows at zero (R70). -/
def State.dropCount (s : State) (h : Word) : State :=
  match s.future? h with
  | none => s
  | some x =>
    if x.count = 0 then s
    else
      let s := s.modFuture h fun x => { x with count := x.count - 1 }
      if x.count = 1 then
        match x.fstat with
        | .pending => ((s.modFuture h fun x => { x with fstat := .reclaimed }).wakeWaiters h |>.setRclm h).tryFree h
        | .running => ((s.modFuture h fun x => { x with fstat := .reclaimed }).wakeWaiters h |>.setRclm h).tryFree h
        | .resolved => ((s.modFuture h fun x => { x with result := 0 }).setRclm h).tryFree h
        | .reclaimed => s.tryFree h
      else s

/-- One reference to a future ended at its home (R71, R328): a completion future whose count reaches zero ends the
references that it holds on its members. -/
def State.dropRef (s : State) (h : Word) : State :=
  match s.future? h with
  | none => s
  | some x =>
    let s := s.dropCount h
    if x.group && x.count = 1 then x.members.foldl (fun s m => s.dropCount m) s else s

/-- The state with one reference of a holder to a future removed and dropped. -/
def State.endRef (s : State) (holder fut : Word) : State :=
  match s.fibre? holder with
  | some f =>
    if f.refs.contains fut then
      (s.modFibre holder fun f => Fibre.trim { f with refs := removeFirst (fun x => x = fut) f.refs }).dropRef fut
    else s
  | none => s

/-- GLEFT of a group lowered as a member ends or is reclaimed; the completion future resolves when it is zero and the
counter is zero (R79). -/
def State.groupEnd (s : State) (g : Word) : State :=
  match s.future? g with
  | none => s
  | some x =>
    let s := s.modFuture g fun x => { x with gleft := x.gleft - 1 }
    let counted := match x.counter with
      | some pa => s.peekNat pa 8 = 0
      | none => true
    if x.gleft = 1 && counted && x.fstat = .pending then
      let s := (s.resolve g 0)
      let s := if x.detach then s.dropRef g else s
      s.tryFree g
    else s

/-- The PRIVATE ranges of a fibre, entered for release (R65, R75, R415): passed to an heir, or freed where it is null,
and a slab of a context only made not PRIVATE (R188). -/
def State.releaseRanges (s : State) (h heir : Word) (r : BitVec 16) : State :=
  let mine := (s.leaves r).filter fun l => l.entry.priv && l.entry.owner = fibreHandle h
  let isSlab (va : Nat) : Bool := s.ctxList.any fun x =>
    s.treeOf x.1 = s.treeOf r && s.cstate x.2.cxd ≠ 0 && s.inSlab x.2.cxd va
  { s with releases :=
      s.releases ++ mine.map fun l => ⟨r, l.entry.vbase, fibreHandle h, heir, isSlab l.entry.vbase, none⟩ }

/-- The state with the contexts that a fibre owns left without owner, and freed where nothing counts on them
(R188). A fibre may own contexts of any region whose tree it shares (R58). -/
def State.disown (s : State) (h : Word) : State :=
  (s.ctxList.map (·.2)).foldl (fun s c =>
      if s.cstate c.cxd ≠ 0 && s.cowner c.cxd = fibreHandle h then
        ((s.pokeNat (c.cxd + 56) 8 0).modCtxSlot c.cxd fun y => { y with ended := fibreHandle h }).releaseCtx c.cxd
      else s) s

/-- The state with a fibre's context unbound (R366). -/
def State.unbind (s : State) (h : Word) : State :=
  match s.fibre? h with
  | some f =>
    match f.bound with
    | some (_, c) =>
      ((s.setCx c 6 63 48 (s.binds c - 1)).modFibre h fun f => Fibre.trim { f with bound := none }).releaseCtx c
    | none => s
  | none => s

/-- The future that a fibre's registered continuation awaits no longer names the fibre (R75, R211). -/
def State.unlinkWaiter (s : State) (h : Word) : State :=
  match s.fibre? h with
  | some f => s.modFuture f.waitfut fun y => { y with waiters := removeFirst (fun w => w = fibreHandle h) y.waiters }
  | none => s

/-- What ends with a fibre, whether it ended or was reclaimed: its continuation, its references, its PRIVATE ranges, its
binding, its contexts, its kept payload, LIVE, its record, and its place in its group (R65, R75). -/
def State.buryFibre (s : State) (h heir : Word) : State :=
  match s.fibre? h with
  | none => s
  | some f =>
    let s := f.refs.foldl (fun s x => s.dropRef x) ((s.unlinkWaiter h).modFibre h fun f => { f with refs := [] })
    let s := s.releaseRanges h heir f.region
    let s := (s.unbind h).disown h
    let s := s.modTile (hTile h) fun t => { t with backlog := t.backlog.filter fun n => !(n = (hSlot h).toNat) }
    let s := s.dropLive f.region
    let s := s.modSlot (hTile h) (hSlot h) fun x => { x with fibre := none }
    let s := if f.group = 0 then s else s.groupEnd f.group
    let s := if f.detach then s.dropRef (futureHandle h) else s
    s.tryFree (futureHandle h)

/-- The heir of an ending fibre's PRIVATE ranges: its parent if that is live (R65). -/
def State.heirOf (s : State) (h : Word) : Word :=
  match s.fibre? h with
  | some f => if (s.fibre? f.parent).isSome then fibreHandle f.parent else 0
  | none => 0

/-- An `fref` that waits has a record in place with this holder (R327). -/
def State.recordsFor (s : State) (h : Word) : Bool :=
  s.tiles.any fun t => t.2.threads.any fun x => x.recording.any fun r => fibreHandle r.1 = fibreHandle h

/-- A fibre ends (R65): its future resolves with 0 if `fput` has not resolved it, and the rest follows. The end waits for
every `fref` whose record is in place with it (R327). -/
def State.endFibre (s : State) (h : Word) : State :=
  if s.recordsFor h then s.modFibre h fun f => { f with fstate := .ended }
  else
    let fut := futureHandle h
    let s := match s.future? fut with
      | some x => if x.fstat = FStat.running then s.resolve fut 0 else s
      | none => s
    s.buryFibre h (s.heirOf h)

/-- A holder whose end has waited for an `fref` ends, if it waits no longer (R327). -/
def State.endLate (s : State) (holder : Word) : State :=
  match s.fibre? holder with
  | some f => if f.fstate = .ended then s.endFibre holder else s
  | none => s

/-- The record of an `fref` that stops is removed from its holder (R327). -/
def State.unrecord (s : State) (x : ThreadId) : State :=
  match (s.thread x).recording with
  | none => s
  | some (holder, fut) =>
    (((s.modThread x fun t => { t with recording := none }).modFibre holder fun f =>
      Fibre.trim { f with refs := removeFirst (fun r => r = fut) f.refs })).endLate holder

/-- A message of an inbound queue is for a fibre: its destination word names it, or the fibre holds it (R75). -/
def Inbound.isFor (m : Inbound) (h : Word) : Bool :=
  (dMode m.msg.dest = 1 && dFibre m.msg.dest = fibreHandle h && m.msg.kind = .plain && !m.msg.sums) ||
    m.holder = fibreHandle h

/-- A message that a fibre holds lies in an inbound queue and is not startable. -/
def State.holdsMessage (s : State) (h : Word) : Bool :=
  s.tiles.any fun x => x.2.inbound.any fun q => q.any fun m => m.holder = fibreHandle h && m.held

/-- A fibre that is parked, or whose fault has been settled, runs again: the message that it holds becomes startable,
or else its pending activation gets a new ready entry (R99, R214). A ready entry that waited while a message's
activation ran keeps its place (R95). A fibre that is to be reclaimed does not run again (R74). One that stands stays
parked, for nothing but THAW, and so does one whose fault is answered with RETRY while it stands (R220; DEDUCED, log 36). -/
def State.unpark (s : State) (h : Word) : State :=
  match s.fibre? h with
  | none => s
  | some f =>
    if f.rclm then s
    else if s.fibreStands h then s.modFibre h fun f => { f with fstate := .parked, park := none }
    else if s.holdsMessage h then
      let s := s.modFibre h fun f => { f with fstate := .ready, park := none }
      { s with tiles := s.tiles.map fun x =>
          (x.1, { x.2 with inbound := x.2.inbound.map fun q => q.map fun m =>
            if m.holder = fibreHandle h then { m with held := false } else m }) }
    else match f.pending with
      | some p => s.makeReady h p
      | none => s.modFibre h fun f => { f with fstate := .waiting, park := none }

/-- The fibres of the device that satisfy a test. -/
def State.fibresWhere (s : State) (p : Fibre → Bool) : List Word :=
  s.tiles.flatMap fun t => t.2.slots.filterMap fun x =>
    match x.2.fibre with
    | some f => if p f then some (mkHandle (BitVec.ofNat 10 t.1) (BitVec.ofNat 12 x.1) x.2.gen 1) else none
    | none => none

/-- The state with RGPEND of a context cleared, where every stop that waits for the regeneration knows how it has
ended (R207). -/
def State.regenOver (s : State) (cxd : Nat) (how : RegenFate) : State :=
  let s := s.setCx cxd 0 43 43 0
  { s with tiles := s.tiles.map fun x =>
      (x.1, { x.2 with threads := x.2.threads.map fun t =>
        { t with deferred := t.deferred.map fun d =>
            if d.cxd = cxd && d.regen = .waiting then { d with regen := how } else d } }) }

/-- The regeneration activation of a context has ended: RGPEND is cleared, and the fibres that wait for it are made
ready (R207). -/
def State.endRegen (s : State) (cxd : Nat) : State :=
  (s.fibresWhere fun f => f.park = some (.regeneration cxd)).foldl (fun s h => s.unpark h) (s.regenOver cxd .ended)

/-- The fibre of an aborted activation waits for a disposition of its fault, and the record goes to the system handler
(R214). A fibre that is to be reclaimed waits for none (R212). -/
def State.pendFault (s : State) (h : Word) (f : FaultRec) : State :=
  (s.modFibre h fun y => if y.rclm then y else { y with fault := some f }).sendRecord f

/-- The fault of a fibre whose regeneration request became a dead letter: fate S (R207). -/
def State.retryFails (s : State) (h : Word) : State :=
  match s.fibre? h with
  | none => s
  | some f =>
    let s := s.modFibre h fun f =>
      { f with park := none, kvFault := none, fstate := if f.pending.isSome then .ready else .waiting }
    match f.kvFault with
    | some r => s.pendFault h { r with fate := 0 }
    | none => s

/-- The state with an undelivered message written as a dead letter (R82, R83). That of a regeneration request clears
RGPEND, and the fibres that wait for it take fate S (R207). -/
def State.bury (s : State) (reason : Nat) (m : Message) : State :=
  let s := s.deadLetter m.region reason m
  match m.kind with
  | .regen cxd =>
    let waiting := s.fibresWhere fun f => f.park = some (.regeneration cxd)
    waiting.foldl (fun s h => s.retryFails h) (s.regenOver cxd .lettered)
  | _ => s

/-- The state without an inbound message whose activation is over. -/
def State.freeMessage (s : State) (t : BitVec 10) (cls : BitVec 2) (uid : Nat) : State :=
  let m := ((s.tile t).queue cls).find? fun m => m.msg.uid = uid
  let s := s.modTile t fun x => x.setQueue cls (removeFirst (fun m => m.msg.uid = uid) (x.queue cls))
  match m with
  | some x => match x.msg.kind with
    | .regen cxd => s.endRegen cxd
    | _ => s
  | none => s

/-- The state with an inbound message changed. -/
def State.modMessage (s : State) (t : BitVec 10) (cls : BitVec 2) (uid : Nat) (f : Inbound → Inbound) : State :=
  s.modTile t fun x => x.setQueue cls (replaceFirst (fun m => m.msg.uid = uid) f (x.queue cls))

/-- The four inbound classes (R47). -/
def classes : List (BitVec 2) := [0, 1, 2, 3]

/-- The state with the inbound messages of a tile that are for a fibre written as dead letters of reason 1 (R75). -/
def State.deadLetterFor (s : State) (h : Word) (t : BitVec 10) : State :=
  classes.foldl (fun s c =>
    let q := (s.tile t).queue c
    let s := s.modTile t fun x => x.setQueue c (q.filter fun m => !m.isFor h)
    (q.filter fun m => m.isFor h).foldl (fun s m => s.bury 1 m.msg) s) s

/-- The engine commands of a tile that a fibre issued: those not started finish cancelled at once, the others stop at
their next boundary (R75). A move is not cancelled (R142). -/
def cancelCmds (h : Word) (l : List Cmd) : List Cmd :=
  l.map fun c => match c.insn with
    | .rmove _ _ _ => c
    | _ => if c.fibre = fibreHandle h then { c with cancelled := true } else c

/-- Where the message lies whose activation a fibre's fault or park has stopped: its tile, class and identity. A message
that has become startable again is not held. -/
def State.heldMessage (s : State) (h : Word) : Option (BitVec 10 × BitVec 2 × Nat) :=
  s.tiles.findSome? fun x =>
    classes.findSome? fun c =>
      match (x.2.queue c).find? fun m => m.holder = fibreHandle h && m.held with
      | some m => some (BitVec.ofNat 10 x.1, c, m.msg.uid)
      | none => none

/-- The fibre whose fault a message's payload records, where the message activates a system handler with it, if that
fault still waits (R214). A later fault of the fibre has a record of its own. -/
def State.recordOf (s : State) (t : BitVec 10) (cls : BitVec 2) (uid : Nat) : Option Word :=
  match ((s.tile t).queue cls).find? fun m => m.msg.uid = uid with
  | some m => match m.msg.kind with
    | .system =>
      let h := wordAt m.msg.payload 2
      match s.fibre? h with
      | some f => if f.fault.any fun r => r.bytes = m.msg.payload then some h else none
      | none => none
    | _ => none
  | none => none

/-- The fibre whose fault the message records that a fibre holds. -/
def State.heldRecord (s : State) (h : Word) : Option Word :=
  match s.heldMessage h with
  | some (t, c, uid) => s.recordOf t c uid
  | none => none

/-- Disposition 3 of a fibre's pending fault: its group freezes, and the fault stays pending (R214). A fibre that is to be
reclaimed has none (R212). -/
def State.freezeFor (s : State) (h : Word) : State :=
  match s.fibre? h with
  | some f => if f.rclm then s else s.askFreeze f.region
  | none => s

/-- What follows where a system handler has ended, and with it the record of a fault that it left unsettled: disposition 3
(R214). It may have ended by `done`, by disposition 1 or by its reclamation. -/
def State.leftUnsettled (s : State) (unsettled : Option Word) : State :=
  match unsettled with
  | some h => s.freezeFor h
  | none => s

/-- The fibre of a handle is reclaimed (R75). Its activation has stopped. -/
def State.reclaimFibre (s : State) (h : Word) : State :=
  match s.fibre? h with
  | none => s
  | some _ =>
    let fut := futureHandle h
    let unsettled := s.heldRecord h
    let s : State := { s with tiles := s.tiles.map fun x => (x.1, { x.2 with cmds := cancelCmds h x.2.cmds }) }
    let s : State := (s.tiles.map fun x => BitVec.ofNat 10 x.1).foldl (fun s t => s.deadLetterFor h t) s
    let s := match s.future? fut with
      | some x =>
        match x.fstat with
        | .resolved => s
        | .reclaimed => s
        | _ => (s.modFuture fut fun x => { x with fstat := .reclaimed }).wakeWaiters fut
      | none => s
    (s.buryFibre h 0).leftUnsettled unsettled

/-- The thread holds no activation. -/
def Thread.idle (t : Thread) : Thread :=
  { t with active := false, suspended := false, hold := .free, counted := false, polls := 0, keeps := false,
           fons := false, made := [], sends := [], readers := [], deferred := [], latch := false, pend := none,
           captured := none, stepFault := none, recording := none }

/-- The engine commands of a thread whose activation is over: none leaves a value in `v` or `p7` of the next one, while what
it writes into tile registers and accumulators stays a write of its footprint (R117; DESIGN CHOICE, log 89). -/
def disownCmds (h : BitVec 3) (l : List Cmd) : List Cmd :=
  l.map fun c => if c.thr = h then { c with owned := false } else c

/-- The activation of a thread is over; the fibre no longer runs. -/
def State.vacate (s : State) (x : ThreadId) : State :=
  ((s.modFibre (s.thread x).fibre fun f => { f with runsOn := none }).modThread x Thread.idle).modTile x.tile
    fun t => { t with cmds := disownCmds x.thread t.cmds }

/-- The future of a fibre whose activation has ended while the fibre lives (R70). -/
def State.futurePending (s : State) (h : Word) : State :=
  s.modFuture (futureHandle h) fun x => if x.fstat = .running then { x with fstat := .pending } else x

/-- The message that started a thread's activation, returned to the head of its class queue and held or not (R211).
It is moved before every other message of the queue. -/
def State.returnMessage (s : State) (x : ThreadId) (held : Bool) : State :=
  match (s.thread x).start with
  | .message cls uid =>
    s.modTile x.tile fun t =>
      let q := t.queue cls
      t.setQueue cls
        (((q.filter fun m => m.msg.uid = uid).map fun m => { m with running := false, held := held })
          ++ q.filter fun m => !(m.msg.uid = uid))
  | _ => s

/-- A fibre without a registered continuation (R211, R332). -/
def Fibre.noCont (f : Fibre) : Fibre := { f with cont := false, waitfut := 0, conth := 0, settled := none }

/-- The fibre as its pending activation starts. -/
def Fibre.take (f : Fibre) (p : Pending) : Fibre :=
  match p.start with
  | .continuation => { f.noCont with pending := none }
  | _ => { f with pending := none, waitsCounter := false }

/-- The fibre whose pending activation is kept once it has been aborted (R211): the continuation that it runs is
registered still, so that an activation between the two finds it so (R323, R332). -/
def Fibre.untake (f : Fibre) (p : Pending) : Fibre :=
  match p.start with
  | .continuation => { f with cont := true, conth := p.handler, waitfut := p.waitfut, settled := some (p.g1, p.g6) }
  | _ => f

/-- The activation of a thread is aborted (R211). The message returns to the head of its queue, or the pending
activation is kept in the slot. -/
def State.abort (s : State) (x : ThreadId) (held : Bool) : State :=
  let t := s.thread x
  let s := (s.leaveEpochs x).unrecord x
  let s := t.made.foldl (fun s r => s.endRef r.1 r.2) s
  let s := if t.fons then (s.unlinkWaiter t.fibre).modFibre t.fibre Fibre.noCont else s
  let s := (s.returnMessage x held).futurePending t.fibre
  let s := s.modFibre t.fibre fun f =>
    { f with fstate := if f.pending.isSome then .ready else .waiting,
             pending := if t.pend.isSome then t.pend else f.pending }
  let s := match t.pend with
    | some p => s.modFibre t.fibre fun f => f.untake p
    | none => s
  (s.vacate x).queueReclaim t.fibre

/-- A running fibre stops at a reclamation point because RCLM is set (R73, R75): its activation ends, its buffered
sends are discarded, and its reclamation follows. The message that started the activation is freed, and no letter is
written for it: the rule names the messages that are still in inbound queues, and the model takes them to be those
whose activation does not run (DESIGN CHOICE, log 56). -/
def State.reclaimRunning (s : State) (x : ThreadId) : State :=
  let t := s.thread x
  let s := (s.leaveEpochs x).unrecord x
  let unsettled := match t.start with
    | .message cls uid => s.recordOf x.tile cls uid
    | _ => none
  let s := match t.start with
    | .message cls uid => s.freeMessage x.tile cls uid
    | _ => s
  let s := (s.modFibre t.fibre fun f => { f with fstate := .reclaiming }).vacate x
  ({ s with reclaims := s.reclaims ++ [fibreHandle t.fibre] }).leftUnsettled unsettled

end Sys2Proof.Machine
end

