-- ==== Sys2Proof/Machine/Ops.lean ====
section
/-! DEFINITION. How an instruction ends: its effect, a wait, a stop with a cause, or the reclamation of its fibre;
taking a stop, as one shared operation (R210 to R217); and settling a fault (R214, R407). -/

namespace Sys2Proof.Machine

/-- How the body of an instruction ends where it does not complete. Each carries the state in which it ends. -/
inductive Stop where
  /-- It stops with a cause, a faulting address and the record's INFO (R213). -/
  | fault (c : Cause) (addr info : Word) (s : State)
  /-- It stops with a cause that parks the fibre (R99). -/
  | park (c : Cause) (p : Park) (addr : Word) (s : State)
  /-- It stops with KV_RETRY over a context, given by the physical address of its CXD (R207). -/
  | kvRetry (cxd : Nat) (addr : Word) (s : State)
  /-- It waits. -/
  | wait (h : Hold) (s : State)
  /-- The fibre is reclaimed at this reclamation point (R73). -/
  | reclaim (s : State)
  /-- It accesses a physical address that has no memory (R126). -/
  | hole (pa : Nat)
  deriving DecidableEq, Repr

/-- The body of an instruction. -/
abbrev Body := Except Stop State

/-- A stop with a cause and nothing more. -/
def stopWith {α : Type} (s : State) (c : Cause) : Except Stop α := .error (.fault c 0 0 s)

/-- A stop with a cause at an address. -/
def stopAt {α : Type} (s : State) (c : Cause) (addr : Word) : Except Stop α := .error (.fault c addr 0 s)

/-- Stop with a cause unless a condition holds. -/
def need (s : State) (b : Bool) (c : Cause) : Except Stop Unit := if b then .ok () else stopWith s c

/-- The fault record of a stop of a thread's activation (R213). -/
def State.faultRec (s : State) (x : ThreadId) (c : Cause) (fate : Fate) (addr info : Word) : FaultRec :=
  let t := s.thread x
  { cause := causeCode c, tile := x.tile, thread := x.thread, fate := fateCode fate, region := t.region, step := false,
    msgid := t.msgid, fibre := t.fibre, pc := t.pc, insn := t.insn, addr := addr, info := info, cyc := s.cyc }

/-- The state with a record kept as a thread's last one (R213). -/
def State.keepRecord (s : State) (x : ThreadId) (f : FaultRec) : State :=
  s.modThread x fun t => { t with record := f }

/-- A thread's activation is aborted and its fibre parked (R99), unless it is to be reclaimed (R74). -/
def State.parkFibre (s : State) (x : ThreadId) (p : Park) : State :=
  let h := (s.thread x).fibre
  (s.abort x true).modFibre h fun f => if f.rclm then f else { f with fstate := .parked, park := some p }

/-- A record as a single step raised it: STEP is 1, and CYC is that of the step (R213, R229). -/
def FaultRec.asStepped (f : FaultRec) (cyc : Option Word) : FaultRec :=
  match cyc with
  | some c => { f with step := true, cyc := c }
  | none => f

/-- The cause and the INFO of a stop of a thread's activation (R213, R215): a system handler that stops with any fate but P
stops with DOUBLE_FAULT, which has no INFO. -/
def State.stopAs (s : State) (x : ThreadId) (c : Cause) (info : Word) : Cause × Word :=
  let t := s.thread x
  if s.isSystem t.region x.tile t.handler && causeFate c ≠ .p then (.doubleFault, 0) else (c, info)

/-- The fate of a stop of a thread's activation under the effective values that now act, which are its own; a single step
raised it at a cycle, if one did. A DOUBLE_FAULT leaves the fibre a pending fault, as the spec does not say that it leaves
none: the message stays held until an outer system handler settles it by `eret` (DESIGN CHOICE, log 90). -/
def State.takeFate (s : State) (x : ThreadId) (stepped : Option Word) (c : Cause) (addr info : Word) : State :=
  let t := s.thread x
  let c' := s.stopAs x c info
  let fate := causeFate c'.1
  let f := (s.faultRec x c'.1 fate addr c'.2).asStepped stepped
  match fate with
  | .p => s.parkFibre x (if c = .specHold then .speculation else .residency [])
  | .d =>
    let s := s.modThread x fun t => { t with suspended := true, pc := t.pc + 4, hold := .free, counted := false }
    (s.sendDebug (some x.tile) f).askFreeze t.region
  | .f =>
    ((((s.keepRecord x f).abort x true).modFibre t.fibre fun y => if y.rclm then y else { y with fault := some f }).sendDebug
      (some x.tile) f).askFreeze t.region
  | .n => s
  | .w =>
    let rclm := match s.fibre? t.fibre with
      | some y => y.rclm
      | none => false
    if rclm then s.reclaimRunning x else ((s.keepRecord x f).abort x true).pendFault t.fibre f
  | .k => ((s.keepRecord x { f with fate := 0 }).abort x true).pendFault t.fibre { f with fate := 0 }
  | .s => ((s.keepRecord x f).abort x true).pendFault t.fibre f

/-- A stop of a thread's activation takes its fate under the effective values of that activation (R58); what acts afterwards
is what acted before. -/
def State.takeStepped (s : State) (x : ThreadId) (stepped : Option Word) (c : Cause) (addr info : Word) : State :=
  ((s.actsFor (some (s.thread x).eff)).takeFate x stepped c addr info).actsFor s.acting

/-- TAKING A STOP (R210 to R217). The activation of a thread stops with a cause. An activation of a system handler
that stops with any fate but P stops with DOUBLE_FAULT instead (R215). -/
def State.takeFault (s : State) (x : ThreadId) (c : Cause) (addr info : Word) : State := s.takeStepped x none c addr info

/-- How the regeneration of a context that an activation's command asked for stands, for its first stop over that
context (R207). -/
def Thread.regenFate (t : Thread) (cxd : Nat) : RegenFate :=
  match t.deferred.find? fun d => d.cause = .kvRetry && d.cxd = cxd with
  | some d => d.regen
  | none => .ended

/-- A KV_RETRY stop (R207): in a region with a regeneration handler the fibre parks until the regeneration of the
context that was asked for ends, or is made ready at once if that has ended; where the regeneration message became a
dead letter, and in any other region, the stop has fate S. KVRETRY is incremented. The region that R207 speaks of is for the
stop that of the activation, and for the run and the message that of the context, where the two differ (DESIGN CHOICE, log
91). -/
def State.takeRetry (s : State) (x : ThreadId) (stepped : Option Word) (cxd : Nat) (addr : Word) : State :=
  let t := s.thread x
  let s := s.setCx cxd 10 31 0 (s.cx cxd 10 31 0 + 1)
  let fate := t.regenFate cxd
  if (s.regen? t.region).isSome && !(s.isSystem t.region x.tile t.handler) && fate ≠ .lettered then
    let f := (s.faultRec x .kvRetry .k addr 0).asStepped stepped
    let s := ((s.keepRecord x f).parkFibre x (.regeneration cxd)).modFibre t.fibre fun y =>
      if y.rclm then y else { y with kvFault := some f }
    if fate = .waiting && s.rgpend cxd = 1 then s else s.unpark t.fibre
  else s.takeFate x stepped .kvRetry addr 0

/-- A KV_RETRY stop under the effective values of the activation that stops (R58). -/
def State.takeKvRetry (s : State) (x : ThreadId) (stepped : Option Word) (cxd : Nat) (addr : Word) : State :=
  ((s.actsFor (some (s.thread x).eff)).takeRetry x stepped cxd addr).actsFor s.acting

/-- What a fibre parks for has come already (R99): its blocks are RESIDENT, its context has returned to CSTATE 1, or it is
confirmed. A stop that a single step raised takes its fate only at THAW. -/
def State.parkOver (s : State) (h : Word) (p : Park) : Bool :=
  match p with
  | .residency l => l.all fun pa => match mfind s.blocks pa with
    | some b => b.state = .resident
    | none => false
  | .context cxd => s.cstate cxd = 1
  | .speculation => match s.fibre? h with
    | some f => f.conf
    | none => false
  | .regeneration _ => false

/-- A thread's fibre parks (R99). Where what it waits for came between the single step that stopped it and the THAW, it is
ready again at once (R229). -/
def State.parkStepped (s : State) (x : ThreadId) (p : Park) (stepped : Bool) : State :=
  let h := (s.thread x).fibre
  let s := s.parkFibre x p
  if stepped && s.parkOver h p then s.unpark h else s

/-- TAKING A STOP of any kind: a park, a KV_RETRY or a fault. -/
def State.takeStop (s : State) (x : ThreadId) (f : StepStop) : State :=
  match f.park with
  | some (.regeneration cxd) => s.takeKvRetry x f.stepped cxd f.addr
  | some p => s.parkStepped x p f.stepped.isSome
  | none => s.takeStepped x f.stepped f.cause f.addr f.info

/-- A stop of a single step is recorded with STEP = 1 and stays pending; the activation stays suspended at the
instruction (R229). -/
def State.holdStop (s : State) (x : ThreadId) (f : StepStop) : State :=
  let c := (s.actsFor (some (s.thread x).eff)).stopAs x f.cause f.info
  let r := s.faultRec x c.1 (causeFate c.1) f.addr c.2
  s.modThread x fun t =>
    { t with record := { r with step := true }, stepFault := some { f with stepped := some s.cyc }, hold := .free,
             counted := false, captured := none }

/-- A stop of the current thread: held in a single step, which runs on a suspended thread, else taken. -/
def State.stop (s : State) (f : StepStop) : State :=
  if s.self.suspended then s.holdStop s.cur f else s.takeStop s.cur f

/-- A thread waits with its instruction (R422). -/
def State.holdThread (s : State) (x : ThreadId) (h : Hold) : State :=
  s.modThread x fun t => { t with hold := h, counted := true }

/-- What an instruction's body has come to, as the outcome of the step. -/
def settle (b : Body) : Host.Outcome State Fault Refusal :=
  match b with
  | .ok s => .next s
  | .error (.fault c addr info s) => .next (s.stop ⟨c, addr, info, none, none⟩)
  | .error (.park c p addr s) => .next (s.stop ⟨c, addr, 0, some p, none⟩)
  | .error (.kvRetry cxd addr s) => .next (s.stop ⟨.kvRetry, addr, 0, some (.regeneration cxd), none⟩)
  | .error (.wait h s) => .next (s.holdThread s.cur h)
  | .error (.reclaim s) => .next (s.reclaimRunning s.cur)
  | .error (.hole pa) => .fault (.noMemory pa)

/-- Reclamation point (R73): a fibre whose RCLM is set stops here. -/
def reclaimPoint (s : State) : Except Stop Unit :=
  match s.fibre? s.me with
  | some f => if f.rclm then .error (.reclaim s) else .ok ()
  | none => .ok ()

/-- The dependence counter that holds a fibre's first activation back is zero: its own, or that of its group (R65,
R79). -/
def State.counterZero (s : State) (f : Fibre) : Bool :=
  if f.depctr ≠ 0 then s.peekNat f.depctr.toNat 8 = 0
  else match s.future? f.group with
    | some g => g.released
    | none => true

/-- The state with a fibre's first activation made ready, if its counter is zero and the fibre waits (R67, R79). -/
def State.wakeCounter (s : State) (h : Word) : State :=
  match s.fibre? h with
  | some f =>
    if f.waitsCounter && f.idle && s.counterZero f && !s.fibreStands h then
      s.makeReady h ⟨.first, f.handler, 0, f.arg, 0⟩
    else s
  | none => s

/-- The state in which a fibre has been made ready after a THAW, if what it waited for came while it stood (R220, R222). -/
def State.resume (s : State) (h : Word) : State :=
  match s.fibre? h with
  | some f => if f.fstate = .parked && f.park.isNone then s.unpark h else (s.wakeCont h).wakeCounter h
  | none => s

/-- The fibre of an ended activation: it ends unless it has a pending activation (R65). A continuation whose future has
already been resolved or reclaimed becomes ready (R332), and so does an activation whose counter is zero. A fibre whose
RCLM was set meanwhile is reclaimed (R74). -/
def State.doneFibre (s : State) (h : Word) : State :=
  match s.fibre? h with
  | none => s
  | some f =>
    let s := s.futurePending h
    if f.rclm then s.queueReclaim h
    else if f.pending.isSome then s.modFibre h fun f => { f with fstate := .ready }
    else if f.cont || f.waitsCounter then
      ((s.modFibre h fun f => { f with fstate := .waiting }).wakeCont h).wakeCounter h
    else (s.modFuture (futureHandle h) fun x => if x.fstat = .pending then { x with fstat := .running } else x).endFibre h

/-- A disposition of a fibre's pending fault (R214): 0 RETRY, 1 DISCARD, 2 RECLAIM, 3 FREEZE. A discarded activation ends as
by `done`: it frees the kept payload that `done` would free, and where it was a system handler's that left the fault of
its record unsettled, disposition 3 applies to that. -/
def State.dispose (s : State) (h : Word) (d : Nat) : State :=
  match s.fibre? h with
  | none => s
  | some f =>
    if f.rclm then s
    else if d = 3 then s.freezeFor h
    else
      let s := s.modFibre h fun f => { f with fault := none }
      if d = 0 then s.unpark h
      else if d = 1 then
        let unsettled := s.heldRecord h
        let s := match s.heldMessage h with
          | some (t, c, uid) =>
            (s.freeMessage t c uid).modFibre h fun f => { f with kept := if f.cont then f.kept else none }
          | none => s.modFibre h fun f =>
            match f.pending with
            | some p => { f.take p with kept := none }
            | none => f
        (s.doneFibre h).leftUnsettled unsettled
      else
        let s := (s.modFuture (futureHandle h) fun x => { x with fstat := .reclaimed }).wakeWaiters (futureHandle h)
        s.setRclm h

end Sys2Proof.Machine
end

