-- ==== Sys2Proof/Machine/Flags.lean ====
section
/-! DEFINITION. The tests that write predicates and steer branches: the ten conditions of `cmp` and `cmpi` (R263,
R287), and the arithmetic of the integer register operations that has limit cases (R280 to R283). -/

namespace Sys2Proof.Machine

/-- The ten conditions (R287), by their code; codes 10 to 15 are not encoded. -/
def condHolds (c : Nat) (x y : Word) : Bool :=
  match c with
  | 0 => x = y
  | 1 => x ≠ y
  | 2 => x.toInt < y.toInt
  | 3 => x.toInt ≤ y.toInt
  | 4 => y.toInt < x.toInt
  | 5 => y.toInt ≤ x.toInt
  | 6 => x.toNat < y.toNat
  | 7 => x.toNat ≤ y.toNat
  | 8 => y.toNat < x.toNat
  | 9 => y.toNat ≤ x.toNat
  | _ => false

/-- `shl` (R280): an amount of 64 or more clears the result. -/
def shiftLeft (x n : Word) : Word := if 64 ≤ n.toNat then 0 else wd (x.toNat * 2 ^ n.toNat)

/-- `shr` (R280). -/
def shiftRight (x n : Word) : Word := if 64 ≤ n.toNat then 0 else wd (x.toNat / 2 ^ n.toNat)

/-- `sra` (R280): an amount of 64 or more acts as 63. -/
def shiftArith (x n : Word) : Word := Word.ofInt (x.toInt / 2 ^ (min n.toNat 63))

/-- `div` (R281). -/
def divSigned (x y : Word) : Word := if y = 0 then BitVec.allOnes 64 else Word.ofInt (x.toInt.tdiv y.toInt)

/-- `rem` (R281). -/
def remSigned (x y : Word) : Word := if y = 0 then x else Word.ofInt (x.toInt.tmod y.toInt)

/-- `divu` (R281). -/
def divUnsigned (x y : Word) : Word := if y = 0 then BitVec.allOnes 64 else wd (x.toNat / y.toNat)

/-- `remu` (R281). -/
def remUnsigned (x y : Word) : Word := if y = 0 then x else wd (x.toNat % y.toNat)

/-- Zero bits from bit n - 1 downward to the first 1 (R282). -/
def leadingZeros (x : Nat) : Nat → Nat
  | 0 => 0
  | n + 1 => if x.testBit n then 0 else 1 + leadingZeros x n

/-- Zero bits upward to the first 1, among n bits from bit k (R282). -/
def trailingZeros (x : Nat) : Nat → Nat → Nat
  | _, 0 => 0
  | k, n + 1 => if x.testBit k then 0 else 1 + trailingZeros x (k + 1) n

/-- The 1 bits among the low n bits (R282). -/
def onesCount (x : Nat) : Nat → Nat
  | 0 => 0
  | n + 1 => nb (x.testBit n) + onesCount x n

/-- The position in a field descriptor (R283). -/
def fieldPos (b : Word) : Nat := bits b 5 0

/-- The width that a field descriptor gives: cut at bit 63 (R283). -/
def fieldWidth (b : Word) : Nat := min (bits b 14 8) (64 - fieldPos b)

/-- `ext` (R283). -/
def extractField (x b : Word) : Word := wd (x.toNat / 2 ^ fieldPos b % 2 ^ fieldWidth b)

/-- `ins` (R283): the field of the old value replaced by the low bits of x. -/
def insertField (old x b : Word) : Word :=
  let m := wd ((2 ^ fieldWidth b - 1) * 2 ^ fieldPos b)
  (old &&& ~~~m) ||| (wd (x.toNat * 2 ^ fieldPos b) &&& m)

end Sys2Proof.Machine
end

