-- ==== Sys2Proof/Machine/Operands.lean ====
section
/-! DEFINITION. The operand forms of the encoded instructions (R258): sign-extended immediates, relative targets,
scaled offsets, register pairs, format tags and mask values, and the completion of an instruction that only writes
registers. -/

namespace Sys2Proof.Machine

/-- The link register (R11): `g31`. -/
def lk : BitVec 5 := 31

/-- The second register of a pair (R258). -/
def pair (r : BitVec 5) : BitVec 5 := r + 1

/-- A sign-extended immediate. -/
def simm {n : Nat} (i : BitVec n) : Word := i.signExtend 64

/-- A zero-extended immediate. -/
def zimm {n : Nat} (i : BitVec n) : Word := i.setWidth 64

/-- The low 56 bits of an address. -/
def addr56 (a : Word) : Word := a &&& 0x00FFFFFFFFFFFFFF

/-- A relative target: the instruction's address plus twice a signed count of halfwords, modulo 2^56 (R289). -/
def target {n : Nat} (pc : Word) (o : BitVec n) : Word := addr56 (pc + 2 * simm o)

/-- The size in bytes of a size code (R265). -/
def accessSize (s : BitVec 2) : Nat := 2 ^ s.toNat

/-- The address of an M-format access: the base register plus the signed offset times a scale (R258). -/
def State.memAddr (s : State) (b : BitVec 5) (o : BitVec 8) (scale : Nat) : Word := s.g b + simm o * wd scale

/-- The state after an instruction of n bytes whose whole effect is a general register. -/
def State.putG (s : State) (d : BitVec 5) (x : Word) : State := (s.setG d x).advance 4

/-- The state after an instruction whose whole effect is a predicate. -/
def State.putP (s : State) (d : BitVec 3) (b : Bool) : State := (s.setP d b).advance 4

/-- A privileged form runs only in an activation of the region's system handler (R259 step 4, R420). -/
def needPrivilege (s : State) : Except Stop Unit := need s s.privileged .privileged

end Sys2Proof.Machine
end

