-- ==== Sys2Proof/Machine/Scopes.lean ====
section
/-! DEFINITION. Scope indices and the sets they select (R167 to R171), and the entries of the scope table. -/

namespace Sys2Proof.Machine

/-- The sets of `sc0` for a thread (R167). -/
def setsThread (x : ThreadId) : Sets :=
  ⟨0, 0, some x, (1 : BitVec 1024) <<< x.tile.toNat, 0, 0, false⟩

/-- The sets of `sc1` for a tile (R167). -/
def setsTile (t : BitVec 10) : Sets :=
  ⟨1, 0, none, (1 : BitVec 1024) <<< t.toNat, 0, (1 : BitVec 1024) <<< t.toNat, false⟩

/-- Word 0 of an entry (R168). -/
def ScopeCopy.word0 (c : ScopeCopy) : Nat := c.state.toNat + 4 * nb c.host + c.gen.toNat * 2 ^ 4

/-- An entry in 32 bytes (R168). -/
def ScopeCopy.bytes (c : ScopeCopy) : List Byte :=
  leBytes 8 c.word0 ++ leBytes 8 c.cmem.toNat ++ leBytes 8 c.tilesAt.toNat ++ leBytes 8 c.spadsAt.toNat

/-- The copy that the tiles of a region keep of an entry of its table; an entry that nothing has set is free. -/
def State.scopeCopy (s : State) (r : BitVec 16) (sc : BitVec 4) : ScopeCopy :=
  match s.region? r with
  | some x => mget ScopeCopy.reset x.scopes sc.toNat
  | none => ScopeCopy.reset

/-- Two regions have one scope table: their effective SCOPEBASE is the same (R58, R168). -/
def State.sameTable (s : State) (q r : BitVec 16) : Bool := s.scopeBase q = s.scopeBase r

/-- The state with the copies of an entry changed in every region that has the table and is not switched out
(R168, R223). -/
def State.setScopeCopy (s : State) (r : BitVec 16) (sc : BitVec 4) (c : ScopeCopy) : State :=
  { s with regions := s.regions.map fun x =>
      if s.sameTable (BitVec.ofNat 16 x.1) r && x.2.saved.isNone then
        (x.1, { x.2 with scopes := mset x.2.scopes sc.toNat c })
      else x }

/-- The index has fixed sets (R167). -/
def fixedScope (sc : BitVec 4) : Bool := sc.toNat < 2 || 13 < sc.toNat

/-- The sets that an index selects for a thread of a region, whatever the state of its entry. -/
def State.setsOf (s : State) (x : ThreadId) (r : BitVec 16) (sc : BitVec 4) : Sets :=
  if sc = 0 then setsThread x
  else if sc = 1 then setsTile x.tile
  else if sc = 14 then setsDevice
  else if sc = 15 then setsSystem
  else
    let c := s.scopeCopy r sc
    ⟨sc, c.gen, none, c.tiles, c.cmem, c.spads, c.host⟩

/-- A use of a scope index by the current thread (R169, R295 step 1): its sets, or SCOPE_FREE or SCOPE_RETIRED with
the index in INFO. An entry that table memory gives the reserved STATE 3 stops like a retiring one (DESIGN CHOICE,
log 73). -/
def useScope (s : State) (sc : BitVec 4) : Except Stop Sets :=
  if fixedScope sc then .ok (s.setsOf s.cur s.self.region sc)
  else
    let c := s.scopeCopy s.self.region sc
    if c.state = 1 then .ok (s.setsOf s.cur s.self.region sc)
    else .error (.fault (if c.state = 0 then .scopeFree else .scopeRetired) 0 (sc.setWidth 64) s)

/-- Step 1 of R295 for an access to an address: the stop's ADDR holds the address. -/
def useScopeAt (s : State) (va : Word) (sc : BitVec 4) : Except Stop Sets :=
  match useScope s sc with
  | .error (.fault c _ info s) => .error (.fault c va info s)
  | r => r

/-- The tiles of a set, in ascending order. -/
def Sets.tileList (x : Sets) : List (BitVec 10) :=
  ((List.range 1024).filter fun i => x.tiles.getLsbD i).map (BitVec.ofNat 10)

/-- The physical address of an entry of a region's scope table (R168). -/
def State.scopeEntry (s : State) (r : BitVec 16) (sc : BitVec 4) : Nat := s.scopeBase r + 32 * sc.toNat

/-- An operation with this index and generation is in flight somewhere (R170): in a thread or a send buffer, in a command
or a move, on its way or held at a stopped tile, in a group's launch, or in what a switch-out has saved. -/
def State.scopeInFlight (s : State) (r : BitVec 16) (sc : BitVec 4) (gen : BitVec 24) : Bool :=
  let hit (q : BitVec 16) (x : Option Sets) : Bool :=
    s.sameTable q r && match x with
      | some y => y.index = sc && y.gen = gen
      | none => false
  let thread (h : Thread) : Bool := hit h.region h.captured || h.sends.any fun e => hit h.region (some e.sets)
  let cmd (c : Cmd) : Bool := hit c.region c.sets
  let sum (m : Inbound) : Bool := m.msg.sums && hit m.msg.region m.msg.sets
  s.tiles.any (fun t =>
    t.2.threads.any thread || t.2.cmds.any cmd || t.2.inbound.any (fun q => q.any sum) ||
    t.2.slots.any (fun sl => match sl.2.future with
      | some f => f.group && f.fstat = .pending && hit f.region f.gsets
      | none => false)) ||
  s.regions.any (fun x => match x.2.saved with
    | some l => l.any fun v => v.threads.any (fun h => thread h.2) || v.cmds.any cmd || v.inbound.any sum
    | none => false) ||
  s.net.any (fun m => hit m.region m.sets) ||
  s.decs.any (fun d => hit d.region d.sets) ||
  s.heldDecs.any (fun d => hit d.region d.sets) ||
  s.inflight.any (fun a => hit a.region a.sets) ||
  s.moves.any (fun m => hit m.region (some m.sets))

end Sys2Proof.Machine
end

