-- ==== Sys2Proof/Machine/Translate.lean ====
section
/-! DEFINITION. Translation (R125, R131, R132, R134, R137), the parts of a tile's array that a range may reach (R106),
and the residency of the blocks of TIERED ranges (R152 to R154). -/

namespace Sys2Proof.Machine

/-- What an access does. -/
inductive Kind where
  | read | write | fetch
  deriving DecidableEq, Repr

/-- The tile's table with an entry installed as the most recently used one: every entry of the region that overlaps it
is dropped, and a full table loses its least recently used one (R131, R136, R137). -/
def installEntry (table : List RangeEntry) (r : BitVec 16) (e : RangeEntry) : List RangeEntry :=
  ({ e with rtag := r } :: table.filter fun f => !(f.rtag = r && f.overlaps e)).take 32

/-- The entry that translates an address of a region on a tile: from the tile's table, or by a walk that installs it
(R131). -/
def State.lookup (s : State) (t : BitVec 10) (r : BitVec 16) (va : Nat) : Except (Cause × State) (State × RangeEntry) :=
  let q := s.treeOf r
  match (s.tile t).rtable.find? fun e => e.rtag = q && e.covers va with
  | some e =>
    .ok (s.modTile t (fun x => { x with rtable := e :: removeFirst (fun f => f = e) x.rtable }), e)
  | none =>
    match s.walk r va with
    | .found _ e =>
      .ok ((s.walked r va).modTile t (fun x => { x with rtable := installEntry x.rtable q e }), { e with rtag := q })
    | .absent => .error (.rangeNone, s.walked r va)
    | .stop c => .error (c, s.walked r va)

/-- A fibre and the fibres above it in the chain of creations, nearest first: the subtrees that it is in (R78). -/
def State.lineage (s : State) (h : Word) : List Word :=
  fibreHandle h :: match s.fibre? h with
    | some f => f.creators
    | none => []

/-- What an entry allows of an access of n bytes at an address by a fibre, given with those above it (R131): the cause
that stops the access, if one does. -/
def RangeEntry.refusal (e : RangeEntry) (who : List Word) (va n : Nat) (k : Kind) : Option Cause :=
  if e.limit < va + n then some .rangeNone
  else if e.priv && !(who.contains (fibreHandle e.owner)) then some .privateOwner
  else if k = .read && !e.permR then some .permRead
  else if k = .write && !e.permW then some .permWrite
  else if k = .fetch && !e.permX then some .permExec
  else if k = .write && e.cow then some .cow
  else none

/-- Translation of an access of n bytes for a fibre, given with those above it, of a region on a tile (R131): the entry,
or the cause that stops the access. In either case the entry has been installed and used. An access of several bytes is
translated at its lowest byte and may not cross LIMIT. -/
def State.translate (s : State) (t : BitVec 10) (r : BitVec 16) (who : List Word) (va : Word) (n : Nat) (k : Kind) :
    Except (Cause × State) (State × RangeEntry) :=
  if va.toNat ≥ 2 ^ 56 then .error (.rangeNone, s)
  else match s.lookup t r va.toNat with
    | .error c => .error c
    | .ok (s, e) =>
      match e.refusal who va.toNat n k with
      | some c => .error (c, s)
      | none => .ok (s, e)

/-- Which part of a tile's array n bytes at a physical address lie in, as an access sees it (R106): the scratchpad;
the landing zone, which no store reaches; or nothing. Addresses outside the arrays pass. -/
def State.arrayCheck (s : State) (pa n : Nat) (k : Kind) : Except (Cause × State) Unit :=
  if arrayBase ≤ pa ∧ pa < arrayEnd then
    let i := (pa - arrayBase) / 0x400000
    let o := pa - tileBase i
    let t := s.tile (BitVec.ofNat 10 i)
    if o + n ≤ t.lzOff then .ok ()
    else if o + n ≤ t.lzOff + t.lzBytes then if k = .write then .error (.permWrite, s) else .ok ()
    else .error (.rangeNone, s)
  else .ok ()

/-! Residency (R152 to R154). Blocks are known by the physical address of their first byte. -/

/-- The state of a block; one that nothing has touched is NONRES (R152). -/
def State.block (s : State) (r : BitVec 16) (e : RangeEntry) (va : Nat) : Block :=
  let va := va / 65536 * 65536
  mget ⟨r, .nonres, 0, false, false, false, e.btier, e.baddr.toNat * 65536 + (va - e.vbase), va⟩ s.blocks (e.phys va)

/-- The state with a block set. -/
def State.setBlock (s : State) (pa : Nat) (b : Block) : State := { s with blocks := mset s.blocks pa b }

/-- The virtual addresses of the blocks that n bytes touch. -/
def blocksOf (va n : Nat) : List Nat :=
  (List.range ((va + n - 1) / 65536 + 1 - va / 65536)).map fun i => (va / 65536 + i) * 65536

/-- The effect of an access on a block that is not RESIDENT (R153): a fetch starts, or a promotion is recorded. -/
def Block.touched (b : Block) : Block :=
  match b.state with
  | .nonres => { b with state := .fetching }
  | .evicting => { b with promoPending := true }
  | _ => b

/-- The blocks that n bytes of a TIERED range touch are RESIDENT; where some are not, the fetches that the access
starts, and the physical addresses of all that it touches, which it waits for (R99, R153, R154). -/
def State.residency (s : State) (r : BitVec 16) (e : RangeEntry) (va n : Nat) : Except (State × List Nat) Unit :=
  if !e.tiered then .ok ()
  else
    let missing := (blocksOf va n).filter fun b => (s.block r e b).state ≠ .resident
    if missing.isEmpty then .ok ()
    else .error (missing.foldl (fun s b => s.setBlock (e.phys b) (s.block r e b).touched) s, (blocksOf va n).map e.phys)

end Sys2Proof.Machine
end

