-- ==== Sys2Proof/Machine/Perform.lean ====
section
/-! DEFINITION. Loads and stores of a thread at their homes (R160 to R163), stores on their way (R165), the first-level
cache (R109 to R112), and the checks of R295. -/

namespace Sys2Proof.Machine

/-- The home of the line of a cache line. -/
def CacheLine.home? (l : CacheLine) : Option Home := Machine.home? (l.line * 128)

/-- The L1 of a tile after an acquire at a scope (R111): `sc0` and `sc1` drop nothing, `sc14` and `sc15` every line,
the others the lines whose home is in the home set. -/
def acquireL1 (l : List CacheLine) (x : Sets) : List CacheLine :=
  if x.index.toNat < 2 then l
  else if 13 < x.index.toNat then []
  else l.filter fun c => match c.home? with
    | some h => !(h.mem x)
    | none => true

/-- An acquire at a scope by the current thread (R173). -/
def State.acquire (s : State) (x : Sets) : State :=
  s.modTile s.cur.tile fun t => { t with l1 := acquireL1 t.l1 x }

/-- The line of the L1 of a tile that holds an address. -/
def Tile.l1Line (t : Tile) (pa : Nat) : Option CacheLine := t.l1.find? fun c => c.line = pa / 128



/-- The bytes of a line from an offset. -/
def lineBytes (data : BitVec 1024) (off n : Nat) : List Byte := leBytes n (data.toNat / 2 ^ (8 * off))

/-- A line with bytes replaced from an offset. -/
def linePatch (data : BitVec 1024) (off : Nat) (bs : List Byte) : BitVec 1024 :=
  BitVec.ofNat 1024 (leNat ((leBytes off data.toNat) ++ bs ++ lineBytes data (off + bs.length) (128 - off - bs.length)))

/-- A store updates the line of its tile's L1, if it is present (R110). -/
def State.updateL1 (s : State) (t : BitVec 10) (pa : Nat) (bs : List Byte) : State :=
  s.modTile t fun x => { x with l1 := x.l1.map fun c =>
    if c.line = pa / 128 then { c with data := linePatch c.data (pa % 128) bs } else c }

/-- The tile's L1 without the line of an address that the tile asks for, and without that of the address to which a
forward record has sent the access (R110, R140). -/
def State.dropBoth (s : State) (t : BitVec 10) (pa qa : Nat) : State := (s.dropLine t pa).dropLine t qa

/-- The line of an address as the L1 takes it in: as its home holds it, at the address to which a forward record sends the
read, with the stores on their way from the tile's own threads (R110, R140). -/
def State.freshLine (s : State) (t : BitVec 10) (pa qa : Nat) : BitVec 1024 :=
  (s.inflight.filter fun a => a.tile = t && (a.pa / 128 = pa / 128 || s.landsAt a / 128 = qa / 128)).foldl
    (fun d a => linePatch d (a.pa % 128) a.data) (BitVec.ofNat 1024 (s.peekNat (qa / 128 * 128) 128))

/-- A line read from its home enters the L1, in the place of an older copy; a full set of twelve loses a line of the
device's choice (R109). Where a forward record sends the read to another address, it is that address that the tile has
read in the end, and the line is that of its home (R140, R173). -/
def State.fillL1 (s : State) (t : BitVec 10) (pa qa : Nat) : State :=
  let line := qa / 128
  let data := s.freshLine t pa qa
  let s := s.dropBoth t pa qa
  let set := (s.tile t).l1.filter fun c => c.line % 512 = line % 512
  if set.length < 12 then s.modTile t fun x => { x with l1 := x.l1 ++ [⟨line, data⟩] }
  else
    match s.pick set with
    | (some v, s) => s.modTile t fun x => { x with l1 := (x.l1.filter fun c => !(c.line = v.line)) ++ [⟨line, data⟩] }
    | (none, s) => s

/-- The home of an address is the tile's own array. -/
def ownArray (t : BitVec 10) (pa : Nat) : Bool := home? pa = some (.tile t.toNat)

/-- A check of R295: the cause that stops the access, at an address, in the state in which the check leaves it. -/
def causeAt {α : Type} (va : Word) (r : Except (Cause × State) α) : Except Stop α :=
  match r with
  | .ok a => .ok a
  | .error (c, s) => stopAt s c va

/-- Step 3 of R295 for n bytes at a virtual address, for each kind in turn: the entry and the physical address. -/
def checkMapped (s : State) (va : Word) (n : Nat) (kinds : List Kind) : Except Stop (State × RangeEntry × Nat) := do
  let who := s.lineage s.me
  let (s, e) ← kinds.foldlM (fun (p : State × Option RangeEntry) k => do
      let (s', e) ← causeAt va (p.1.translate s.cur.tile s.self.region who va n k)
      let _ ← causeAt va (s'.arrayCheck (e.phys va.toNat) n k)
      .ok (s', some e)) (s, none)
  match e with
  | none => .error (.hole 0)
  | some e =>
    let pa := e.phys va.toNat
    if (home? pa).isNone then .error (.hole pa) else .ok (s, e, pa)

/-- Step 5 of R295. -/
def checkResident (s : State) (va : Word) (e : RangeEntry) (n : Nat) : Except Stop Unit :=
  match s.residency s.self.region e va.toNat n with
  | .ok () => .ok ()
  | .error (s, blocks) => .error (.park .partialResidency (.residency blocks) va s)

/-- Steps 3 to 5 of R295. `store` says that the act is held for an unconfirmed fibre unless the range is PRIVATE to its
subtree; an access through a VOLATILE range, or with `held`, always is (R78, R294). -/
def checkAccess (s : State) (va : Word) (n : Nat) (kinds : List Kind) (store held : Bool) :
    Except Stop (State × RangeEntry × Nat) := do
  let (s, e, pa) ← checkMapped s va n kinds
  if !s.confirmed && (held || e.vol || (store && !(e.priv && s.inSubtree s.me e.owner))) then
    .error (.park .specHold .speculation va s)
  else do
    let _ ← checkResident s va e n
    .ok (s, e, pa)

/-- Step 2 of R295. -/
def checkAligned (s : State) (va : Word) (n : Nat) : Except Stop Unit :=
  if va.toNat % n = 0 then .ok () else stopAt s .misaligned va

/-- Step 6 of R295: no poisoned unit holds one of the bytes; ADDR names the byte. An access that the host does not answer
counts as one of a poisoned line (R149). -/
def checkPoison (s : State) (va : Word) (pa n : Nat) : Except Stop Unit :=
  match firstPoison s.poison pa n with
  | none => .ok ()
  | some i => stopAt (s.answered pa n) .poison (va + wd i)

/-- A plain load is performed at its home, not served by the L1 (R109, R297). -/
def State.readsHome (s : State) (e : RangeEntry) (pa : Nat) : Bool :=
  ownArray s.cur.tile pa || e.vol || ((s.tile s.cur.tile).l1Line pa).isNone

/-- An access through a VOLATILE range is a volatile one, whatever its mnemonic: it is not performed before the thread's
earlier volatile stores (R130, R166). -/
def State.volPoint (s : State) (e : RangeEntry) : State := if e.vol then s.drainVol else s

/-- The bytes of a plain load that has passed steps 1 to 5, from the L1 where it holds the line, or at the home (R109,
R297); a use-once line that it reads is not consumed yet. A load that passes by the L1 leaves no older copy of its line
there, so that a later load of the thread reads no older write (R163; DEDUCED, log 51). A line of another tile's
scratchpad in which some unit is poisoned is not taken in (DESIGN CHOICE, log 73). -/
def loadRead (s : State) (va : Word) (e : RangeEntry) (pa n : Nat) : Except Stop (State × List Byte) :=
  if ownArray s.cur.tile pa || e.vol then do
    let s := (s.volPoint e).drainAt va.toNat pa
    let qa := s.forwarded va.toNat pa
    let _ ← checkPoison s va qa n
    .ok ((s.dropBoth s.cur.tile pa qa).watched s.issuer .rd qa n, s.peek qa n)
  else match (s.tile s.cur.tile).l1Line pa with
    | some c => .ok (s, lineBytes c.data (pa % 128) n)
    | none => do
      let s := s.drainAt va.toNat pa
      let qa := s.forwarded va.toNat pa
      let _ ← checkPoison s va qa n
      let bs := s.peek qa n
      let s := if ownArray s.cur.tile qa || poisoned s.poison (qa / 128 * 128) 128 then s.dropBoth s.cur.tile pa qa
        else s.fillL1 s.cur.tile pa qa
      .ok (s.watched s.issuer .rd qa n, bs)

/-- The bytes of a plain load that has passed steps 1 to 5. A use-once line that it reads at its home leaves (R156). -/
def loadPlain (s : State) (va : Word) (e : RangeEntry) (pa n : Nat) : Except Stop (State × List Byte) := do
  let (t, bs) ← loadRead s va e pa n
  .ok (if s.readsHome e pa then t.consumeOnce (t.forwarded va.toNat pa) n else t, bs)

/-- The bytes of a load performed at the home, never from the L1 (`ld.acq`, `ld.vol`, device reads for an instruction).
The L1 keeps no older copy of the line (R163; DEDUCED, log 51). -/
def loadHome (s : State) (va : Word) (pa n : Nat) (k : WKind) : Except Stop (State × List Byte) := do
  let s := s.drainAt va.toNat pa
  let qa := s.forwarded va.toNat pa
  let _ ← checkPoison s va qa n
  let bs := s.peek qa n
  .ok (((s.dropBoth s.cur.tile pa qa).watched s.issuer k qa n).consumeOnce qa n, bs)

/-- n contiguous bytes under one entry read at their homes, line by line. -/
def loadHomeSpan (s : State) (va : Word) (e : RangeEntry) (n : Nat) (k : WKind) : Except Stop (State × List Byte) :=
  if n = 0 then .ok (s, [])
  else (linePieces va.toNat n).foldlM (fun (p : State × List Byte) q => do
    let (s, bs) ← loadHome p.1 (wd q.1) (e.phys q.1) q.2 k
    .ok (s, p.2 ++ bs)) (s.volPoint e, [])

/-- A store that has passed the checks: the L1 line is updated; a store that the tile's own array performs is performed at
once, any other goes on its way to its home (R110, R140, R161, R165, R297). A volatile one issues when the thread's earlier
volatile accesses have been performed (R166). -/
def issueStore (s : State) (va : Word) (pa : Nat) (bs : List Byte) (vol : Bool) (sets : Option Sets) : State :=
  let s := ((if vol then s.drainVol else s).updateL1 s.cur.tile pa bs).dropForwarded s.cur.tile va.toNat pa
  if ownArray s.cur.tile (s.forwarded va.toNat pa) then
    (s.drainAt va.toNat pa).performStore s.issuer .wr va.toNat pa bs
  else
    let t := s.self
    { s with inflight := s.inflight ++
        [⟨s.cur.tile, s.cur.thread, t.fibre, t.msgid, t.region, t.icnt, va.toNat, pa, bs, vol, sets⟩] }

/-- A plain store (R297); through a VOLATILE range it is a volatile access (R130). -/
def storePlain (s : State) (va : Word) (e : RangeEntry) (pa : Nat) (bs : List Byte) : State :=
  issueStore s va pa bs e.vol none

/-- Plain loads of n contiguous bytes under one entry, line by line. -/
def loadSpan (s : State) (va : Word) (e : RangeEntry) (n : Nat) : Except Stop (State × List Byte) :=
  if n = 0 then .ok (s, [])
  else (linePieces va.toNat n).foldlM (fun (p : State × List Byte) q => do
    let (s, bs) ← loadPlain p.1 (wd q.1) e (e.phys q.1) q.2
    .ok (s, p.2 ++ bs)) (s, [])

/-- Plain stores of contiguous bytes under one entry, line by line. -/
def storeSpan (s : State) (va : Word) (e : RangeEntry) (bs : List Byte) : State :=
  if bs.isEmpty then s
  else (linePieces va.toNat bs.length).foldl (fun s q =>
    storePlain s (wd q.1) e (e.phys q.1) ((bs.drop (q.1 - va.toNat)).take q.2)) s

/-- A thread load of n bytes at a virtual address with steps 2 to 6 of R295, as a descriptor is read at issue. -/
def loadChecked (s : State) (va : Word) (n align : Nat) : Except Stop (State × List Byte) := do
  let _ ← checkAligned s va align
  let (s, e, _) ← checkAccess s va n [.read] false false
  loadSpan s va e n

end Sys2Proof.Machine
end

