-- ==== Sys2Proof/Machine/Flush.lean ====
section
/-! DEFINITION. The send buffer and its flush (R66, R318 to R320), reclamation points that flush (R73), and the stops
that engine commands left behind (R207, R376). -/

namespace Sys2Proof.Machine

/-- Step 4 of R295 for an act that is held for every unconfirmed fibre (R78). -/
def checkHeld (s : State) (allowed : Bool) : Except Stop Unit :=
  if s.confirmed || allowed then .ok () else .error (.park .specHold .speculation 0 s)

/-- The first byte of n that lies in a block which is not RESIDENT (R319); the first byte where all are. -/
def State.firstAway (s : State) (e : RangeEntry) (va n : Nat) : Nat :=
  match (blocksOf va n).find? fun b => (s.block s.self.region e b).state ≠ .resident with
  | some b => max va b
  | none => va

/-- The payload of a buffered send, read at its homes (R319). A payload of which a byte does not lie in the range, or in
a RESIDENT block, stops at the first such byte. -/
def readPayload (s : State) (src : Word) (n : Nat) : Except Stop (State × List Byte) :=
  if n = 0 then .ok (s, [])
  else do
    let (s, e) ← causeAt src (s.translate s.cur.tile s.self.region (s.lineage s.me) src 1 .read)
    if e.limit < src.toNat + n then stopAt s .rangeNone (wd e.limit)
    else do
      let (s, e, _) ← checkMapped s src n [.read]
      let _ ← match s.residency s.self.region e src.toNat n with
        | .ok () => .ok ()
        | .error (s', blocks) =>
          .error (.park .partialResidency (.residency blocks) (wd (s.firstAway e src.toNat n)) s')
      loadHomeSpan s src e n .rd

/-- A message counted as emitted by a tile for a region, with its colour (R219). -/
def State.emit (s : State) (t : BitVec 10) (r : BitVec 16) : Bool × State :=
  let colour := (s.cut t r).colour
  (colour, s.modCut t r fun c => c.send colour)

/-- The destination is on another device (R313). -/
def State.remote (s : State) (dest : Word) : Bool := dMode dest = 0 && dPeer dest && dDev dest ≠ s.hub.devnum

/-- A message from a tile of a region that leaves with an id and, unless it goes to a peer, a colour (R219, R314). -/
def State.sendMessage (s : State) (t : BitVec 10) (r : BitVec 16) (dest arg xform : Word) (payload : List Byte)
    (sets : Option Sets) : State :=
  let (id, s) := s.tileId t
  let m : Message :=
    { uid := 0, kind := .plain, msgid := id, dest := dest, arg := arg, cls := dClass dest, region := r,
      len := payload.length, payload := payload, xform := xform, sets := sets, colour := none }
  if s.remote dest then s.post m
  else
    let (colour, s) := s.emit t r
    s.post { m with colour := some colour }

/-- One entry flushed (R319): its release, its payload, its message id, and its way into the network. A decrement takes
an id as a message does. -/
def flushEntry (s : State) (e : SendEntry) : Except Stop State :=
  let s := s.release e.sets
  let t := s.cur.tile
  let r := s.self.region
  if e.type = 2 then
    let (colour, s) := (s.tileId t).2.emit t r
    .ok { s with decs := s.decs ++ [⟨s.uids, e.dest, e.arg.toNat, r, t, some e.sets, some colour⟩], uids := s.uids + 1 }
  else do
    let (s, bs) ← readPayload s e.src e.len.toNat
    .ok (s.sendMessage t r e.dest e.arg e.xform bs (some e.sets))

/-- The entries of a list flushed one at a time, each leaving the buffer as it is performed (R319). -/
def flushList : List SendEntry → State → Except Stop State
  | [], s => .ok s
  | e :: r, s => do
    let s ← flushEntry s e
    flushList r (s.modSelf fun t => { t with sends := t.sends.drop 1 })

/-- The send buffer flushed (R66). -/
def flush (s : State) : Except Stop State := flushList s.self.sends s

/-- A buffered send or decrement: a 17th entry first flushes the sixteen (R66, R318). -/
def buffer (s : State) (e : SendEntry) : Except Stop State := do
  let s ← if 16 ≤ s.self.sends.length then flush s else .ok s
  .ok (s.modSelf fun t => { t with sends := t.sends ++ [e] })

/-- The release of an activation whose fibre ends at its `done`: at `sc14` where the end resolves its future (R70), and
at the launch's scope where it is a member of a group (R79). -/
def State.endRelease (s : State) : State :=
  match s.fibre? s.me with
  | none => s
  | some f =>
    if f.cont || f.waitsCounter || f.pending.isSome || f.rclm then s
    else
      let own : Bool := match s.future? (futureHandle s.me) with
        | some x => x.fstat = .running
        | none => false
      let s := if own then s.release setsDevice else s
      match s.future? f.group with
      | some x => match x.gsets with
        | some y => s.release y
        | none => s
      | none => s

/-- A stop that an engine command of the activation left behind, as a stop of this instruction (R207, R376). -/
def Deferred.raise (d : Deferred) (s : State) : Except Stop Unit :=
  if d.cause = .kvRetry then .error (.kvRetry d.cxd d.addr s) else stopAt s d.cause d.addr

/-- The stop that waits for a `tlwait` of a context on a number, or for `done` (R207). -/
def checkDeferred (s : State) (p : Deferred → Bool) : Except Stop Unit :=
  match s.self.deferred.find? p with
  | some d => d.raise s
  | none => .ok ()

end Sys2Proof.Machine
end

