-- ==== Sys2Proof/Machine/Num.lean ====
section
/-! DEFINITION. Number formats and exact arithmetic (R231 to R240, R245): a value is unpacked exactly, computed
exactly, and rounded once. -/

namespace Sys2Proof.Machine

/-- A value of a floating-point format: a NaN or an infinity with its sign, or (-1)^neg × m × 2^e. -/
inductive Val where
  | nan (neg : Bool)
  | inf (neg : Bool)
  | fin (neg : Bool) (m : Nat) (e : Int)
  deriving DecidableEq, Repr

/-- Which special codes a format has (R231). -/
inductive Special where
  /-- Infinities and NaNs in the greatest exponent field. -/
  | ieee
  /-- E4M3: one NaN code for each sign, no infinity. -/
  | e4m3
  /-- Neither. -/
  | none
  deriving DecidableEq, Repr

/-- A floating-point format: the widths of its exponent and fraction fields and its bias. -/
structure Fmt where
  ebits : Nat
  mbits : Nat
  bias : Nat
  special : Special
  deriving DecidableEq, Repr

/-- FP32 (R231). -/
def fp32 : Fmt := ⟨8, 23, 127, .ieee⟩
/-- BF16. -/
def bf16 : Fmt := ⟨8, 7, 127, .ieee⟩
/-- FP16. -/
def fp16 : Fmt := ⟨5, 10, 15, .ieee⟩
/-- E4M3. -/
def e4m3 : Fmt := ⟨4, 3, 7, .e4m3⟩
/-- E5M2. -/
def e5m2 : Fmt := ⟨5, 2, 15, .ieee⟩
/-- E2M1. -/
def e2m1 : Fmt := ⟨2, 1, 1, .none⟩
/-- E3M2. -/
def e3m2 : Fmt := ⟨3, 2, 3, .none⟩
/-- E2M3. -/
def e2m3 : Fmt := ⟨2, 3, 1, .none⟩
/-- ACC48 (R232). -/
def acc48 : Fmt := ⟨8, 39, 127, .ieee⟩

/-- The width of a format's code. -/
def Fmt.width (f : Fmt) : Nat := 1 + f.ebits + f.mbits

/-- The greatest exponent field. -/
def Fmt.emax (f : Fmt) : Nat := 2 ^ f.ebits - 1

/-- The sign bit of a code, in place. -/
def Fmt.sign (f : Fmt) (neg : Bool) : Nat := nb neg * 2 ^ (f.ebits + f.mbits)

/-- The value of a code (R231). -/
def Fmt.unpack (f : Fmt) (x : Nat) : Val :=
  let frac := x % 2 ^ f.mbits
  let ex := x / 2 ^ f.mbits % 2 ^ f.ebits
  let neg := x.testBit (f.ebits + f.mbits)
  let special := ex = f.emax && match f.special with
    | .ieee => true
    | .e4m3 => frac = 2 ^ f.mbits - 1
    | .none => false
  if special then if frac = 0 then .inf neg else .nan neg
  else if ex = 0 then .fin neg frac (1 - (f.bias : Int) - f.mbits)
  else .fin neg (2 ^ f.mbits + frac) ((ex : Int) - f.bias - f.mbits)

/-- The NaN that a format holds for a sign (R231, R236); +0 where it has none. -/
def Fmt.nanCode (f : Fmt) (neg : Bool) : Nat :=
  match f.special with
  | .ieee => f.sign neg + f.emax * 2 ^ f.mbits + 2 ^ (f.mbits - 1)
  | .e4m3 => f.sign neg + 2 ^ (f.ebits + f.mbits) - 1
  | .none => 0

/-- The code of the largest finite magnitude. -/
def Fmt.largest (f : Fmt) : Nat :=
  match f.special with
  | .ieee => f.emax * 2 ^ f.mbits - 1
  | .e4m3 => 2 ^ (f.ebits + f.mbits) - 2
  | .none => 2 ^ (f.ebits + f.mbits) - 1

/-- The five rounding modes (R237). -/
inductive Mode where
  | rne | rtz | rdn | rup | sr
  deriving DecidableEq, Repr

/-- The mode of a mode field; codes 5 to 7 have none (R237). -/
def mode? (c : Nat) : Option Mode :=
  match c with
  | 0 => some .rne
  | 1 => some .rtz
  | 2 => some .rdn
  | 3 => some .rup
  | 4 => some .sr
  | _ => none

/-- What an overflow gives (R239). -/
def Fmt.overflow (f : Fmt) (mode : Mode) (ovf neg : Bool) : Nat :=
  let up := match mode with
    | .rne => true
    | .rup => !neg
    | .rdn => neg
    | _ => false
  match f.special with
  | .ieee => if ovf && up then f.sign neg + f.emax * 2 ^ f.mbits else f.sign neg + f.largest
  | .e4m3 => if ovf && up then f.nanCode neg else f.sign neg + f.largest
  | .none => f.sign neg + f.largest

/-- Whether a magnitude that lies rem / unit of the way from one neighbour to the next is rounded away from zero
(R237, R238). `more` says that the exact magnitude is a little greater, by less than one part of the unit; `odd` is the
last bit of the lower neighbour, r the random word. -/
def roundsUp (mode : Mode) (neg odd : Bool) (rem unit : Nat) (more : Bool) (r : Nat) : Bool :=
  if rem = 0 && !more then false
  else match mode with
    | .rne => decide (unit < 2 * rem) || (decide (2 * rem = unit) && (more || odd))
    | .rtz => false
    | .rdn => neg
    | .rup => !neg
    | .sr => decide (r * unit < rem * 2 ^ 32) || (more && decide (r * unit = rem * 2 ^ 32))

/-- m × 2^(-d) rounded to an integer. -/
def roundShift (mode : Mode) (neg : Bool) (m : Nat) (d : Int) (more : Bool) (r : Nat) : Nat :=
  if d ≤ 0 then
    let n := m * 2 ^ (-d).toNat
    n + nb (roundsUp mode neg (n % 2 = 1) 0 1 more r)
  else
    let u := 2 ^ d.toNat
    m / u + nb (roundsUp mode neg (m / u % 2 = 1) (m % u) u more r)

/-- The code of a finite value rounded to a format (R238, R239). A zero keeps its sign. -/
def Fmt.roundFin (f : Fmt) (mode : Mode) (ovf neg : Bool) (m : Nat) (e : Int) (more : Bool) (r : Nat) : Nat :=
  if m = 0 && !more then f.sign neg
  else
    let emin : Int := 1 - f.bias - f.mbits
    let q : Int := max (e + m.log2 - f.mbits) emin
    let n := roundShift mode neg m (q - e) more r
    let (n, q) := if n = 2 ^ (f.mbits + 1) then (2 ^ f.mbits, q + 1) else (n, q)
    let code : Nat := if n < 2 ^ f.mbits then n else (q - emin + 1).toNat * 2 ^ f.mbits + (n - 2 ^ f.mbits)
    if f.largest < code then f.overflow mode ovf neg else f.sign neg + code

/-- The code of the result of an arithmetic operation, with OVF = 1: a NaN is the default NaN with sign 0, and an
infinite result is infinite (R236, R239). -/
def Fmt.pack (f : Fmt) (mode : Mode) (v : Val) (more : Bool := false) (r : Nat := 0) : Nat :=
  match v with
  | .nan _ => f.nanCode false
  | .inf neg => match f.special with
    | .ieee => f.sign neg + f.emax * 2 ^ f.mbits
    | _ => f.overflow mode true neg
  | .fin neg m e => f.roundFin mode true neg m e more r

/-- The code of a converted value (R236, R239): a NaN keeps its sign, and an infinity overflows. -/
def Fmt.convert (f : Fmt) (mode : Mode) (ovf : Bool) (v : Val) (r : Nat := 0) : Nat :=
  match v with
  | .nan neg => f.nanCode neg
  | .inf neg => f.overflow mode ovf neg
  | .fin neg m e => f.roundFin mode ovf neg m e false r

/-- A value rounded to an integer and saturated to a range (R240). A NaN gives 0. -/
def Val.toInteger (v : Val) (mode : Mode) (lo hi : Int) (r : Nat) : Int :=
  match v with
  | .nan _ => 0
  | .inf neg => if neg then lo else hi
  | .fin neg m e =>
    let n : Int := roundShift mode neg m (-e) false r
    max lo (min hi (if neg then -n else n))

/-- An integer as a value. -/
def Val.ofInt (x : Int) : Val := .fin (decide (x < 0)) x.natAbs 0

/-- +0. -/
def Val.zero : Val := .fin false 0 0

/-- The value with its sign inverted. -/
def Val.neg : Val → Val
  | .nan s => .nan (!s)
  | .inf s => .inf (!s)
  | .fin s m e => .fin (!s) m e

/-- The value with sign 0. -/
def Val.abs : Val → Val
  | .nan _ => .nan false
  | .inf _ => .inf false
  | .fin _ m e => .fin false m e

/-- A NaN. -/
def Val.isNan : Val → Bool
  | .nan _ => true
  | _ => false

/-- The signed integer whose multiple of 2^e0 a finite value is, for e0 not above its exponent. -/
def scaled (neg : Bool) (m : Nat) (e e0 : Int) : Int :=
  let n : Int := m * 2 ^ (e - e0).toNat
  if neg then -n else n

/-- The exact sum (R236). `rdn` says that an exact zero sum of unlike terms is -0. -/
def Val.add (rdn : Bool) : Val → Val → Val
  | .nan _, _ => .nan false
  | _, .nan _ => .nan false
  | .inf s, .inf t => if s = t then .inf s else .nan false
  | .inf s, _ => .inf s
  | _, .inf t => .inf t
  | .fin s m e, .fin t n f =>
    if m = 0 && n = 0 then .fin (if s = t then s else rdn) 0 0
    else
      let e0 := min e f
      let x := scaled s m e e0 + scaled t n f e0
      if x = 0 then .fin rdn 0 0 else .fin (decide (x < 0)) x.natAbs e0

/-- The exact product (R236). -/
def Val.mul : Val → Val → Val
  | .nan _, _ => .nan false
  | _, .nan _ => .nan false
  | .inf s, .inf t => .inf (s != t)
  | .inf s, .fin t n _ => if n = 0 then .nan false else .inf (s != t)
  | .fin s m _, .inf t => if m = 0 then .nan false else .inf (s != t)
  | .fin s m e, .fin t n f => .fin (s != t) (m * n) (e + f)

/-- A value times 2^k. -/
def Val.scale (k : Int) : Val → Val
  | .fin s m e => .fin s m (e + k)
  | v => v

/-- The exact order of two values that are not NaNs; -0 and +0 are equal. -/
def Val.lt : Val → Val → Bool
  | .nan _, _ => false
  | _, .nan _ => false
  | .inf s, .inf t => s && !t
  | .inf s, .fin _ _ _ => s
  | .fin _ _ _, .inf t => !t
  | .fin s m e, .fin t n f =>
    let e0 := min e f
    decide (scaled s m e e0 < scaled t n f e0)

/-- Two values compare equal; a NaN equals nothing. -/
def Val.eq (x y : Val) : Bool := !x.isNan && !y.isNan && !x.lt y && !y.lt x

/-- The sign of a value. -/
def Val.negative : Val → Bool
  | .nan s => s
  | .inf s => s
  | .fin s _ _ => s

/-- x is below y in the order of `vmax` and `vmin`, in which -0 is below +0 (R236). -/
def Val.below (x y : Val) : Bool := x.lt y || (x.eq y && x.negative && !y.negative)

/-- The larger (R236). -/
def Val.max (x y : Val) : Val :=
  if x.isNan || y.isNan then .nan false else if x.below y then y else x

/-- The smaller (R236). -/
def Val.min (x y : Val) : Val :=
  if x.isNan || y.isNan then .nan false else if y.below x then y else x

/-- The exact sum of a list of values; +0 for the empty list. -/
def Val.sum : List Val → Val
  | [] => .zero
  | x :: r => r.foldl (Val.add false) x

/-! Correctly rounded functions (R245). A result that is not a value of the form m × 2^e is given by its first bits
and the flag `more`. -/

/-- The natural logarithm of 2, times 2^320, rounded down. -/
def ln2Fixed : Nat := 0xb17217f7d1cf79abc9e3b39803f2f6af40f343267298b62d8a0d175b8baafa2be7b876206debac98

/-- Terms k, k + 1, ... of the series of 2^320 × (exp y - 1 - ...), where `t` is term k - 1 and y is y / 2^320. -/
def expTerms (y : Nat) : Nat → Nat → Nat → Nat
  | 0, _, _ => 0
  | n + 1, k, t => t + expTerms y n (k + 1) (t * y / (2 ^ 320 * k))

/-- 2^320 × 2^f for f = f / 2^320 below 1, rounded down in every term. -/
def exp2Fixed (f : Nat) : Nat := expTerms (f * ln2Fixed / 2 ^ 320) 80 1 (2 ^ 320)

/-- 2^x (R245). -/
def Val.exp2 : Val → Val × Bool
  | .nan _ => (.nan false, false)
  | .inf s => (if s then .zero else .inf false, false)
  | .fin s m e =>
    if m = 0 then (.fin false 1 0, false)
    else if 12 < e + m.log2 then
      -- beyond 2^4096 either way: the result overflows or underflows every format
      (if s then .fin false 1 (-8192) else .fin false 1 8192, true)
    else
      let x : Int := if s then -(m : Int) else m
      -- floor and fraction of x, the fraction in units of 2^-320
      let y : Int := if e ≤ 0 then x * 2 ^ 320 / 2 ^ (-e).toNat else x * 2 ^ e.toNat * 2 ^ 320
      let n : Int := y / 2 ^ 320
      let f : Nat := (y % 2 ^ 320).toNat
      if f = 0 then (.fin false 1 n, false) else (.fin false (exp2Fixed f) (n - 320), true)

/-- n bits of the binary logarithm of y / 2^p, which lies from 1 to 2, by repeated squaring. -/
def log2Bits (p : Nat) : Nat → Nat → Nat
  | 0, _ => 0
  | n + 1, y =>
    let z := y * y / 2 ^ p
    if 2 ^ (p + 1) ≤ z then 2 ^ n + log2Bits p n (z / 2) else log2Bits p n z

/-- log2 x (R245). -/
def Val.log2 : Val → Val × Bool
  | .nan _ => (.nan false, false)
  | .inf s => (if s then .nan false else .inf false, false)
  | .fin s m e =>
    if m = 0 then (.inf true, false)
    else if s then (.nan false, false)
    else
      let k : Int := e + m.log2
      if m = 2 ^ m.log2 then (Val.ofInt k, false)
      else
        -- k + l / 2^200, a little more; for a negative sum the magnitude is a little less
        let l := log2Bits 500 200 (m * 2 ^ (500 - m.log2))
        let x : Int := k * 2 ^ 200 + l
        if 0 ≤ x then (.fin false x.toNat (-200), true) else (.fin true ((-x).toNat - 1) (-200), true)

/-- 1 / x (R245). -/
def Val.rcp : Val → Val × Bool
  | .nan _ => (.nan false, false)
  | .inf s => (.fin s 0 0, false)
  | .fin s m e =>
    if m = 0 then (.inf s, false)
    else
      let k := m.log2 + 128
      (.fin s (2 ^ k / m) (-e - k), 2 ^ k % m ≠ 0)

/-- The integer square root, by bits from bit n - 1 downward. -/
def isqrtFrom (x : Nat) : Nat → Nat → Nat
  | 0, r => r
  | n + 1, r => if (r + 2 ^ n) * (r + 2 ^ n) ≤ x then isqrtFrom x n (r + 2 ^ n) else isqrtFrom x n r

/-- The integer square root of a number below 2^(2n). -/
def isqrt (n x : Nat) : Nat := isqrtFrom x n 0

/-- 1 / sqrt x (R245). -/
def Val.rsqrt : Val → Val × Bool
  | .nan _ => (.nan false, false)
  | .inf s => (if s then .nan false else .zero, false)
  | .fin s m e =>
    if m = 0 then (.inf s, false)
    else if s then (.nan false, false)
    else
      let (m, e) := if e % 2 = 0 then (m, e) else (2 * m, e - 1)
      let k := m.log2 / 2 + 128
      let q := isqrt (k + 1) (2 ^ (2 * k) / m)
      (.fin false q (-(e / 2) - k), q * q * m ≠ 2 ^ (2 * k))

/-- The quotient of two finite values, the divisor not zero. -/
def Val.quot (s t : Bool) (m n : Nat) (e f : Int) : Val × Bool :=
  let k := n.log2 + 128
  (.fin (s != t) (m * 2 ^ k / n) (e - f - k), m * 2 ^ k % n ≠ 0)

/-- x / y (R236): 0 / 0 and ∞ / ∞ are invalid, x / 0 is infinite. -/
def Val.div : Val → Val → Val × Bool
  | .nan _, _ => (.nan false, false)
  | _, .nan _ => (.nan false, false)
  | .inf _, .inf _ => (.nan false, false)
  | .inf s, .fin t _ _ => (.inf (s != t), false)
  | .fin s _ _, .inf t => (.fin (s != t) 0 0, false)
  | .fin s m e, .fin t n f =>
    if n = 0 then if m = 0 then (.nan false, false) else (.inf (s != t), false)
    else if m = 0 then (.fin (s != t) 0 0, false)
    else Val.quot s t m n e f

/-! FP32 arithmetic on codes, rounded RNE, as the attention path and the draw unit use it (R243, R248). -/

/-- The value of an FP32 code. -/
def f32 (x : Nat) : Val := fp32.unpack x

/-- A value rounded to FP32. -/
def to32 (v : Val) (more : Bool := false) : Nat := fp32.pack .rne v more

/-- FP32 sum. -/
def add32 (x y : Nat) : Nat := to32 ((f32 x).add false (f32 y))

/-- FP32 difference. -/
def sub32 (x y : Nat) : Nat := to32 ((f32 x).add false (f32 y).neg)

/-- FP32 product. -/
def mul32 (x y : Nat) : Nat := to32 ((f32 x).mul (f32 y))

/-- FP32 quotient. -/
def div32 (x y : Nat) : Nat := let q := (f32 x).div (f32 y); to32 q.1 q.2

/-- FP32 2^x. -/
def exp32 (x : Nat) : Nat := let q := (f32 x).exp2; to32 q.1 q.2

/-- The code of -∞ in FP32. -/
def ninf32 : Nat := 0xFF800000

/-- The default NaN of FP32. -/
def nan32 : Nat := 0x7FC00000

/-- The NaN of E8M0 (R233). -/
def e8m0NaN : Nat := 0xFF

/-- The value of an E8M0 code (R233). -/
def e8m0 (x : Nat) : Val := if x = e8m0NaN then .nan false else .fin false 1 ((x : Int) - 127)

/-! The counter-based generator (R246). -/

/-- A rotation to the left within 32 bits. -/
def rotl32 (x n : Nat) : Nat := (x * 2 ^ (n % 32)) % 2 ^ 32 + x % 2 ^ 32 / 2 ^ (32 - n % 32)

/-- The rounds of G. -/
def genRounds : List Nat → Nat → Nat → Nat
  | [], a, b => a ^^^ b
  | k :: r, a, b =>
    let a := (a + b + k) % 2 ^ 32
    let b := rotl32 b 12 ^^^ a
    genRounds r (rotl32 a 8) b

/-- G(K, c) (R246). -/
def gen (key c : Nat) : Nat :=
  genRounds [0x9E3779B9, 0x3C6EF372, 0xDAA66D2B, 0x78DDE6E4]
    ((c ^^^ key) % 2 ^ 32) ((c ^^^ key) / 2 ^ 32 % 2 ^ 32)

end Sys2Proof.Machine
end

