-- ==== Sys2Proof/Machine/Rope.lean ====
section
/-! DEFINITION. The rotary rotation of element pairs (R346), as `vrope`, the attention path, transform kind 4 and a
pop use it. -/

namespace Sys2Proof.Machine

/-- 2π times 2^320, rounded down. -/
def twoPiFixed : Nat := 0x6487ed5110b4611a62633145c06e0e68948127044533e63a0105df531d89cd9128a5043cc71a026ef

/-- The binary logarithm of 10,000 times 2^320, rounded down. -/
def log10000Fixed : Nat := 0xd49a784bcd1b8afe492bf6ff4dafdb4cd96c55fe37b3ad4e91b6ac8082e7859d06650fde9dd51f3a3

/-- Terms of the series of the sine or the cosine in units of 2^-320: t is a term, q the square of the angle, and k
the power of the angle in t. -/
def trigTerms (q : Int) : Nat → Nat → Int → Int
  | 0, _, _ => 0
  | n + 1, k, t => t + trigTerms q n (k + 2) (-(t * q / 2 ^ 320) / ((k + 1) * (k + 2) : Nat))

/-- A value in units of 2^-320 that is not exact. -/
def fixedVal (x : Int) : Val := .fin (decide (x < 0)) x.natAbs (-320)

/-- The cosine and the sine of an FP32 code, each correctly rounded to FP32 (R346). -/
def cosSin32 (x : Nat) : Nat × Nat :=
  match f32 x with
  | .fin s m e =>
    if m = 0 then (0x3F800000, x)
    else
      let y : Int := m * 2 ^ (320 + e).toNat
      let r : Int := (if s then -y else y) % twoPiFixed
      let q := r * r / 2 ^ 320
      (to32 (fixedVal (trigTerms q 60 0 (2 ^ 320))) true, to32 (fixedVal (trigTerms q 60 1 r)) true)
  | _ => (nan32, nan32)

/-- The FP32 value nearest to 10000^(-j / n) (R346). -/
def ropeFreq (j n : Nat) : Nat :=
  if j = 0 then 0x3F800000
  else
    let y : Int := -((j * log10000Fixed : Nat) : Int) / n
    to32 (.fin false (exp2Fixed (y % 2 ^ 320).toNat) (y / 2 ^ 320 - 320)) true

/-- The angle of pair j of a head of n pairs under a position delta: its cosine and sine (R346). -/
def ropeAngle (j n : Nat) (delta : Int) : Nat × Nat :=
  cosSin32 (to32 ((Val.ofInt delta).mul (f32 (ropeFreq j n))))

/-- A pair rotated (R346). -/
def ropePair (f : Fmt) (cs : Nat × Nat) (x0 x1 : Nat) : Nat × Nat :=
  let special (v : Val) : Bool := match v with
    | .fin _ _ _ => false
    | _ => true
  let a := f.unpack x0
  let b := f.unpack x1
  let c := f32 cs.1
  let s := f32 cs.2
  if special a || special b then (f.nanCode false, f.nanCode false)
  else (f.pack .rne ((a.mul c).add false (b.mul s).neg), f.pack .rne ((a.mul s).add false (b.mul c)))

/-- The pairs of one head, from pair j on, rotated. -/
def ropeHead (f : Fmt) (n : Nat) (delta : Int) : Nat → List Nat → List Nat
  | j, x0 :: x1 :: r =>
    let y := ropePair f (ropeAngle j n delta) x0 x1
    y.1 :: y.2 :: ropeHead f n delta (j + 1) r
  | _, r => r

/-- Whole heads of 2n elements rotated; what is left over is copied (R346). `k` is a number of heads not below those
that the list holds. -/
def ropeHeads (f : Fmt) (n : Nat) (delta : Int) : Nat → List Nat → List Nat
  | 0, xs => xs
  | k + 1, xs =>
    if xs.length < 2 * n then xs
    else ropeHead f n delta 0 (xs.take (2 * n)) ++ ropeHeads f n delta k (xs.drop (2 * n))

/-- Elements rotated by a position delta, with n pairs in a head (R346). -/
def rope (f : Fmt) (n : Nat) (delta : Int) (xs : List Nat) : List Nat :=
  if delta = 0 then xs else ropeHeads f n delta xs.length xs

end Sys2Proof.Machine
end

