-- ==== Sys2Proof/Machine/Lanes.lean ====
section
/-! DEFINITION. Elements of vector registers (R234, R333), tag classes and tag checks (R235, R334), masks (R335), and
the element arithmetic of the vector forms (R336 to R342, R345, R349). -/

namespace Sys2Proof.Machine

/-- The element width of a tag (R333). -/
def tagWidth (tag : BitVec 4) : Nat :=
  match tag.toNat with
  | 2 => 16
  | 3 => 16
  | 4 => 8
  | 5 => 8
  | 6 => 4
  | 7 => 8
  | 8 => 8
  | 9 => 8
  | 10 => 16
  | 12 => 64
  | 13 => 64
  | _ => 32

/-- The floating-point format of a tag, if it has one (R231). -/
def tagFmt (tag : BitVec 4) : Option Fmt :=
  match tag.toNat with
  | 1 => some fp32
  | 2 => some bf16
  | 3 => some fp16
  | 4 => some e4m3
  | 5 => some e5m2
  | 6 => some e2m1
  | 13 => some acc48
  | _ => none

/-- The tag classes of R334; E4M3, E5M2, E2M1, E8M0 and MASK are in none. -/
inductive TagClass where
  | f | a | s | u | b | other
  deriving DecidableEq, Repr

/-- The class of a tag (R334). -/
def tagClass (tag : BitVec 4) : TagClass :=
  match tag.toNat with
  | 0 => .b
  | 1 => .f
  | 2 => .f
  | 3 => .f
  | 8 => .s
  | 9 => .u
  | 10 => .s
  | 11 => .s
  | 12 => .s
  | 13 => .a
  | 15 => .u
  | _ => .other

/-- The tag of E8M0. -/
def tagE8m0 : BitVec 4 := 7
/-- The tag of ACC48. -/
def tagAcc48 : BitVec 4 := 13
/-- The tag of MASK. -/
def tagMask : BitVec 4 := 14
/-- The tag of INDEX. -/
def tagIndex : BitVec 4 := 15

/-- The elements of width w of a number of n bits, the lowest first (R234). -/
def splitElems (w : Nat) (n : Nat) (x : Nat) : List Nat := (List.range n).map fun j => x / 2 ^ (w * j) % 2 ^ w

/-- A number whose elements of width w are those of a list, the lowest first. -/
def joinElems (w : Nat) (l : List Nat) : Nat := l.foldr (fun x acc => x % 2 ^ w + acc * 2 ^ w) 0

/-- The elements of a vector register. -/
def elems (w : Nat) (v : VWord) : List Nat := splitElems w (2048 / w) v.toNat

/-- A vector register with given elements; bits beyond them are zero. -/
def ofElems (w : Nat) (l : List Nat) : VWord := BitVec.ofNat 2048 (joinElems w l)

/-- Element j of a vector register. -/
def elem (w : Nat) (v : VWord) (j : Nat) : Nat := v.toNat / 2 ^ (w * j) % 2 ^ w

/-- The mask bit that governs element j (R234). -/
def governed (m : Word) (w j : Nat) : Bool := bit m (j * w / 32)

/-- Elements of a result under a mask: those whose mask bit is 0 keep their previous contents (R335). -/
def masked (m : Word) (w : Nat) (old new : List Nat) : List Nat :=
  (old.zip new).zipIdx.map fun p => if governed m w p.2 then p.1.2 else p.1.1

/-- A source has a tag of an accepted class (R235). -/
def needClass (s : State) (tag : BitVec 4) (ok : List TagClass) : Except Stop Unit :=
  need s (ok.contains (tagClass tag)) .tagUnsupported

/-- A source has the tag that the entry expects; INFO holds both (R213, R335). -/
def needAgree (s : State) (expected tag : BitVec 4) : Except Stop Unit :=
  if tag = expected then .ok ()
  else .error (.fault .tagMismatch 0 (wd (tag.toNat + expected.toNat * 2 ^ 4)) s)

/-- The two's-complement reading of w bits. -/
def signedOf (w x : Nat) : Int := if 2 * x < 2 ^ w then x else (x : Int) - 2 ^ w

/-- The low w bits of an integer. -/
def wrapTo (w : Nat) (x : Int) : Nat := (x % 2 ^ w).toNat

/-- The two-source lane operations of R336 that compute on values. -/
inductive LaneOp where
  | add | sub | mul | max | min | fma
  deriving DecidableEq, Repr

/-- The value of an element of a floating-point format: an ACC48 container holds it in its low 48 bits. -/
def Fmt.value (f : Fmt) (x : Nat) : Val := f.unpack (x % 2 ^ f.width)

/-- A lane operation of class F or A, rounded once, RNE (R336). -/
def LaneOp.float (o : LaneOp) (f : Fmt) (x y z : Nat) : Nat :=
  let a := f.value x
  let b := f.value y
  f.pack .rne (match o with
    | .add => a.add false b
    | .sub => a.add false b.neg
    | .mul => a.mul b
    | .max => a.max b
    | .min => a.min b
    | .fma => (a.mul b).add false (f.value z))

/-- A lane operation of class S or U (R336). -/
def LaneOp.int (o : LaneOp) (signed : Bool) (w x y z : Nat) : Nat :=
  let below := if signed then decide (signedOf w x < signedOf w y) else decide (x < y)
  match o with
  | .add => (x + y) % 2 ^ w
  | .sub => wrapTo w ((x : Int) - y)
  | .mul => x * y % 2 ^ w
  | .max => if below then y else x
  | .min => if below then x else y
  | .fma => (x * y + z) % 2 ^ w

/-- A lane operation on elements of a tag. -/
def LaneOp.apply (o : LaneOp) (tag : BitVec 4) (x y z : Nat) : Nat :=
  match tagClass tag, tagFmt tag with
  | .f, some f => o.float f x y z
  | .a, some f => o.float f x y z
  | .s, _ => o.int true (tagWidth tag) x y z
  | _, _ => o.int false (tagWidth tag) x y z

/-- `vshl` on an element (R336). -/
def laneShl (w x k : Nat) : Nat := if w ≤ k then 0 else x * 2 ^ k % 2 ^ w

/-- `vshr` on an element: sign-filling for class S (R336). -/
def laneShr (signed : Bool) (w x k : Nat) : Nat :=
  if signed then wrapTo w (signedOf w x / 2 ^ (min k (w - 1)))
  else if w ≤ k then 0 else x / 2 ^ k

/-- The sign bit of an element of class F or A. -/
def signBit (tag : BitVec 4) : Nat := if tag = tagAcc48 then 2 ^ 47 else 2 ^ (tagWidth tag - 1)

/-- `vabs` on an element (R340). -/
def laneAbs (tag : BitVec 4) (x : Nat) : Nat :=
  if tagClass tag = .s then wrapTo (tagWidth tag) (signedOf (tagWidth tag) x).natAbs
  else if signBit tag ≤ x % (2 * signBit tag) then x - signBit tag else x

/-- `vneg` on an element (R340). -/
def laneNeg (tag : BitVec 4) (x : Nat) : Nat :=
  if tagClass tag = .s then wrapTo (tagWidth tag) (-(x : Int)) else x ^^^ signBit tag

/-- The six conditions of `vcmp` (R341) on an element: a NaN makes only `ne` true. -/
def laneCompare (c : Nat) (tag : BitVec 4) (x y : Nat) : Bool :=
  let (lt, eq) : Bool × Bool := match tagClass tag, tagFmt tag with
    | .f, some f => ((f.value x).lt (f.value y), (f.value x).eq (f.value y))
    | .a, some f => ((f.value x).lt (f.value y), (f.value x).eq (f.value y))
    | .s, _ => (decide (signedOf (tagWidth tag) x < signedOf (tagWidth tag) y), decide (x = y))
    | _, _ => (decide (x < y), decide (x = y))
  let gt : Bool := match tagClass tag, tagFmt tag with
    | .f, some f => (f.value y).lt (f.value x)
    | .a, some f => (f.value y).lt (f.value x)
    | _, _ => !lt && !eq
  match c with
  | 0 => eq
  | 1 => !eq
  | 2 => lt
  | 3 => lt || eq
  | 4 => gt
  | _ => gt || eq

/-- The three reductions (R342). -/
inductive RedOp where
  | add | max | min
  deriving DecidableEq, Repr

/-- The element operation of a reduction. -/
def RedOp.lane : RedOp → LaneOp
  | .add => .add
  | .max => .max
  | .min => .min

/-- The identity with which a masked-off element enters (R244). -/
def RedOp.identity (o : RedOp) (tag : BitVec 4) : Nat :=
  let w := tagWidth tag
  match tagClass tag, tagFmt tag with
  | .s, _ => match o with
    | .add => 0
    | .max => 2 ^ (w - 1)
    | .min => 2 ^ (w - 1) - 1
  | .f, some f => match o with
    | .add => f.sign true
    | .max => f.pack .rne (.inf true)
    | .min => f.pack .rne (.inf false)
  | .a, some f => match o with
    | .add => f.sign true
    | .max => f.pack .rne (.inf true)
    | .min => f.pack .rne (.inf false)
  | _, _ => match o with
    | .add => 0
    | .max => 0
    | .min => 2 ^ w - 1

/-- The tree of R244 in k steps: element i meets element i + s for s half the length. -/
def reduceTree (f : Nat → Nat → Nat) : Nat → List Nat → List Nat
  | 0, l => l
  | k + 1, l =>
    let s := l.length / 2
    if s = 0 then l else reduceTree f k (List.zipWith f (l.take s) (l.drop s))

/-- A reduction of elements of a tag. -/
def RedOp.reduce (o : RedOp) (tag : BitVec 4) (l : List Nat) : Nat :=
  match reduceTree (fun x y => o.lane.apply tag x y 0) 9 l with
  | x :: _ => x
  | [] => 0

/-- `vscale` on an element with its scale byte (R345). -/
def laneScale (f : Fmt) (x e : Nat) : Nat :=
  if e = e8m0NaN then f.nanCode false else f.pack .rne ((f.value x).mul (e8m0 e))

/-- The value of a source element of `vcvt` (R349): the untagged formats 1 E3M2, 2 E2M3 and 3 INT4, or by its tag. -/
def sourceVal (tag : BitVec 4) (sfmt x : Nat) : Val :=
  match sfmt with
  | 1 => e3m2.unpack x
  | 2 => e2m3.unpack x
  | 3 => Val.ofInt (signedOf 4 x)
  | _ =>
    if tag = tagE8m0 then e8m0 x
    else match tagFmt tag, tagClass tag with
      | some f, _ => f.value x
      | none, .s => Val.ofInt (signedOf (tagWidth tag) x)
      | none, _ => Val.ofInt x

/-- The E8M0 code of a value (R240). -/
def toE8m0 (v : Val) : Nat :=
  match v with
  | .fin _ m e => if m = 0 then 0 else ((max 0 (min 254 (e + m.log2 + 127))) : Int).toNat
  | _ => e8m0NaN

/-- A value converted to a tag's format (R239, R240, R349). -/
def convertTo (tag : BitVec 4) (mode : Mode) (ovf : Bool) (r : Nat) (v : Val) : Nat :=
  let w := tagWidth tag
  if tag = tagE8m0 then toE8m0 v
  else match tagFmt tag, tagClass tag with
    | some f, _ => f.convert mode ovf v r
    | none, .s => wrapTo w (v.toInteger mode (-(2 ^ (w - 1) : Nat)) ((2 ^ (w - 1) : Nat) - 1) r)
    | none, _ => wrapTo w (v.toInteger mode 0 ((2 ^ w : Nat) - 1) r)

/-- The random word of element j of a destination of width w (R238). -/
def randomWord (v : VWord) (w j : Nat) : Nat :=
  if w = 64 then elem 32 v (2 * j)
  else
    let e := 32 / w
    rotl32 (elem 32 v (j / e)) (j % e * 32 / e)

/-- The width of a source of `vcvt` (R333). -/
def sourceWidth (tag : BitVec 4) (sfmt : Nat) : Nat :=
  match sfmt with
  | 1 => 6
  | 2 => 6
  | 3 => 4
  | _ => tagWidth tag

/-- A register converted element by element (R349). -/
def convertReg (src : BitVec 4) (sfmt : Nat) (dst : BitVec 4) (mode : Mode) (ovf : Bool) (v rs : VWord) : VWord :=
  let w := tagWidth dst
  ofElems w (((elems (sourceWidth src sfmt) v).take (2048 / w)).zipIdx.map fun p =>
    convertTo dst mode ovf (randomWord rs w p.2) (sourceVal src sfmt p.1))

end Sys2Proof.Machine
end

