-- ==== Sys2Proof/Machine/Engine.lean ====
section
/-! DEFINITION. Engine commands (R113 to R118, R164, R180, R355, R358, R374 to R376): their issue, their footprints and the
order in which they start, their accesses with poison (R425), and their finish. What each command does stands with its
family; the events that start and finish commands stand in Commands.lean. -/

namespace Sys2Proof.Machine

/-- A byte with the mark that it comes from a poisoned unit (R425). -/
abbrev EByte := Byte × Bool

/-- How a running command ends early or waits. Each carries the state in which it does. -/
inductive EStop where
  /-- A translation fails, or the entry says that the command finishes cancelled: what it wrote remains (R358). -/
  | cancel (s : State)
  /-- A fault that the entry names: cancelled, and the activation stops with it later (R376). -/
  | fault (c : Cause) (s : State)
  /-- It waits for blocks, room or a partner (R154). -/
  | wait (s : State)
  /-- It accesses a physical address that has no memory (R126). -/
  | hole (pa : Nat)
  deriving DecidableEq, Repr

/-- The contexts (R113). -/
def ctxCopy : BitVec 2 := 0
/-- The matrix context. -/
def ctxMatrix : BitVec 2 := 1
/-- The exchange context. -/
def ctxExchange : BitVec 2 := 2
/-- The draw context. -/
def ctxDraw : BitVec 2 := 3

/-! Issue. -/

/-- The scoreboard and a context have room for one more command (R114, R117). -/
def State.hasRoom (s : State) (x : ThreadId) (c : BitVec 2) : Bool :=
  let e := (s.thread x).engine c
  decide ((s.tile x.tile).cmds.length < 32) && decide (e.issued.toNat - e.complete.toNat < 64)

/-- The first check of a command (R73, R355, R375): the reclamation point. A command for which there is no room waits in
the issue stage. -/
def commandPoint (s : State) (c : BitVec 2) : Except Stop Unit := do
  let _ ← reclaimPoint s
  if s.hasRoom s.cur c then .ok () else .error (.wait .retest s)

/-- A piece of an operand that lies under one entry and within 4 KiB of its image. -/
structure Span where
  va : Nat
  len : Nat
  entry : RangeEntry
  pa : Nat
  deriving DecidableEq, Repr

/-- The first piece of n bytes at an address under an entry: it ends with the entry, with the 4 KiB of the operand, and
where a forwarding entry passes to its other image. -/
def State.spanUnder (s : State) (e : RangeEntry) (va n : Nat) (k : Kind) : Except (Cause × State) (State × Span) :=
  let pa := e.phys va
  let stop := if e.forwarding && va < e.fbase then min e.limit e.fbase else e.limit
  let len := min (min n (stop - va)) (4096 - va % 4096)
  match s.arrayCheck pa len k with
  | .error c => .error c
  | .ok () => .ok (s, ⟨va, len, e, pa⟩)

/-- The first piece of n bytes at an address, translated (R131). -/
def State.firstSpan (s : State) (t : BitVec 10) (r : BitVec 16) (who : List Word) (va n : Nat) (k : Kind) :
    Except (Cause × State) (State × Span) :=
  match s.translate t r who (wd va) 1 k with
  | .error c => .error c
  | .ok (s, e) => s.spanUnder e va n k

/-- The pieces of an operand as its issue translates them. -/
def spansFrom (k : Kind) : Nat → State → Nat → Nat → Except Stop (State × List Span)
  | 0, s, _, _ => .ok (s, [])
  | f + 1, s, va, n =>
    if n = 0 then .ok (s, [])
    else do
      let (s, x) ← causeAt (wd va) (s.firstSpan s.cur.tile s.self.region (s.lineage s.me) va n k)
      if (home? x.pa).isNone then .error (.hole x.pa)
      else do
        let (s, l) ← spansFrom k f s (va + x.len) (n - x.len)
        .ok (s, x :: l)

/-- Step 4 of R375: every byte of an operand translates. -/
def operand (s : State) (va : Word) (n : Nat) (k : Kind) : Except Stop (State × List Span) :=
  spansFrom k n s va.toNat n

/-- n bytes at a physical address lie in a tile's scratchpad part (R106). -/
def State.inScratchpad (s : State) (t : BitVec 10) (pa n : Nat) : Bool :=
  decide (tileBase t.toNat ≤ pa) && decide (pa + n ≤ tileBase t.toNat + (s.tile t).lzOff)

/-- A local operand (R375): every byte translates into the issuing tile's scratchpad part. -/
def localOperand (s : State) (va : Word) (n : Nat) (k : Kind) : Except Stop (State × List Span) := do
  let (s, l) ← operand s va n k
  if l.all fun x => s.inScratchpad s.cur.tile x.pa x.len then .ok (s, l) else stopAt s .rangeNone va

/-- Step 3 of R355: n bytes through one entry whose image lies in the issuing tile's scratchpad part; a write to a
landing zone is stopped as R106 gives. -/
def matrixOperand (s : State) (va : Word) (n : Nat) (k : Kind) : Except Stop (State × Span) := do
  let (s, e) ← causeAt va (s.translate s.cur.tile s.self.region (s.lineage s.me) va n k)
  let pa := e.phys va.toNat
  let _ ← causeAt va (s.arrayCheck pa n k)
  if s.inScratchpad s.cur.tile pa n then .ok (s, ⟨va.toNat, n, e, pa⟩) else stopAt s .rangeNone va

/-- A write through an entry is allowed to an unconfirmed fibre (R78): the range is PRIVATE to its subtree. -/
def State.mayWrite (s : State) (e : RangeEntry) : Bool := e.priv && s.inSubtree s.me e.owner

/-- The speculation check of a command that writes some pieces (R355 step 5, R375 step 5). -/
def checkWrites (s : State) (l : List Span) : Except Stop Unit :=
  checkHeld s (l.all fun x => s.mayWrite x.entry)

/-- The intervals of a tile's own array that pieces lie in, by array offset (R117). -/
def ownIntervals (t : BitVec 10) (l : List Span) : List (Nat × Nat) :=
  (l.filter fun x => ownArray t x.pa).map fun x => (x.pa - tileBase t.toNat, x.pa - tileBase t.toNat + x.len)

/-- The interval of a tile register of a thread. -/
def Tile.tregInterval (t : Tile) (h : BitVec 3) (n : BitVec 4) : Nat × Nat :=
  (t.tregOff h n.toNat, t.tregOff h n.toNat + 16384)

/-- The interval of an accumulator of a thread. -/
def Tile.accInterval (t : Tile) (h : BitVec 3) (n : BitVec 2) : Nat × Nat :=
  (t.accOff h n.toNat, t.accOff h n.toNat + 98304)

/-- A 64-byte descriptor (R375 step 3), read at issue as a thread load. -/
def readDesc (s : State) (va : Word) : Except Stop (State × List Byte) := do
  let _ ← checkAligned s va 64
  let (s, _) ← localOperand s va 64 .read
  loadChecked s va 64 64

/-- The command that the current thread issues, before its operands. -/
def State.newCmd (s : State) (i : Instr) (c : BitVec 2) : Cmd :=
  let t := s.self
  { number := (t.engine c).issued + 1, thr := s.cur.thread, ctx := c, running := false, insn := i, issueCyc := s.cyc,
    icnt := t.icnt, fibre := t.fibre, who := s.lineage t.fibre, msgid := t.msgid, conf := s.confirmed,
    region := t.region, eff := t.eff, opd := 0, opd1 := 0, opa := 0, opb := 0, opb1 := 0, desc := [], sets := none,
    tags := [], pages := [], trail := (0, []), once := [], output := none,
    reads := [], writes := [], vdst := none, p7dst := false, snapshot := none, progress := 0, cancelled := false,
    owned := true, emitted := false, blocks := [], skipped := false }

/-- The state in which a command has been numbered and entered in the scoreboard; the release to the engine has been
performed (R114, R117, R180). -/
def State.enterCmd (s : State) (c : Cmd) : State :=
  let s := s.releaseAll
  let s := s.modSelf fun t =>
    let e := t.engine c.ctx
    t.setEngine c.ctx { e with issued := e.issued + 1 }
  s.modTile s.cur.tile fun t => { t with cmds := t.cmds ++ [c] }

/-! Start order. -/

/-- Two lists of intervals meet. -/
def meets (l m : List (Nat × Nat)) : Bool := l.any fun x => m.any fun y => decide (x.1 < y.2) && decide (y.1 < x.2)

/-- Two footprints conflict (R117). -/
def Cmd.conflicts (c d : Cmd) : Bool :=
  meets c.writes (d.reads ++ d.writes) || meets d.writes c.reads

/-- The command goes to a copy channel (R116). -/
def usesChannel : Instr → Bool
  | .cpy _ _ _ => true
  | .cpyT _ _ _ => true
  | .cpyMc _ _ _ _ => true
  | .rmove _ _ _ => true
  | _ => false

/-- A thread's copy channel (R116). -/
def channelOf (h : BitVec 3) : BitVec 2 := h.setWidth 2

/-- A channel of a tile. -/
def Tile.channel (t : Tile) (c : BitVec 2) : Channel := t.channels[c.toNat]'c.isLt

/-- The tile with a channel's word replaced. -/
def Tile.setChannel (t : Tile) (c : BitVec 2) (x : Channel) : Tile :=
  { t with channels := t.channels.set c.toNat x c.isLt }

/-- An earlier unfinished command lets a later one of the same thread and context start (R116). -/
def Cmd.lets (c d : Cmd) : Bool :=
  if c.thr = d.thr && c.ctx = d.ctx then
    if c.ctx = ctxMatrix || c.ctx = ctxDraw then false
    else if c.ctx = ctxExchange then c.running
    else !(usesChannel c.insn && usesChannel d.insn)
  else true

/-- A command waits with no earlier command in its way (R116, R117). -/
def Tile.clear (t : Tile) (n : Nat) (c : Cmd) : Bool :=
  !c.running && !c.cancelled && (t.cmds.take n).all fun d => !d.conflicts c && d.lets c

/-- The channel is free for a command (R116): nothing runs on it, and where its other thread has a command with nothing
else in its way, the turn is that of the thread whose command the channel did not run last; before its first command it
is that of the earlier one. -/
def Tile.channelFree (t : Tile) (n : Nat) (c : Cmd) : Bool :=
  let ch := t.channel (channelOf c.thr)
  let mine (i : Nat) : Bool := match ch.last with
    | some h => h ≠ c.thr
    | none => n < i
  !ch.act && t.cmds.zipIdx.all fun x =>
    !(usesChannel x.1.insn && x.1.thr ≠ c.thr && channelOf x.1.thr = channelOf c.thr && t.clear x.2 x.1) || mine x.2

/-- A command may start (R116, R117). -/
def Tile.startable (t : Tile) (n : Nat) (c : Cmd) : Bool :=
  t.clear n c && (!usesChannel c.insn || t.channelFree n c)

/-! Accesses of a running command. -/

/-- Whom a command's accesses name (R227). -/
def Cmd.issuer (c : Cmd) (t : BitVec 10) : Issuer := ⟨t, c.thr, c.icnt, c.msgid, c.fibre⟩

/-- Whether a command is another. -/
def Cmd.same (c d : Cmd) : Bool := c.number = d.number && c.thr = d.thr && c.ctx = d.ctx

/-- The state with a command changed. -/
def State.modCmd (s : State) (t : BitVec 10) (c : Cmd) (f : Cmd → Cmd) : State :=
  s.modTile t fun x => { x with cmds := replaceFirst (fun d => d.same c) f x.cmds }

/-- A command as the scoreboard holds it now. -/
def State.cmdNow (s : State) (t : BitVec 10) (c : Cmd) : Cmd :=
  ((s.tile t).cmds.find? fun d => d.same c).getD c

/-- The command streams its operands in beats. -/
def streams : Instr → Bool
  | .cpy _ _ _ => true
  | .cpyT _ _ _ => true
  | .cpyMc _ _ _ _ => true
  | .promo _ _ _ _ => true
  | _ => false

/-- The bytes that a streaming command writes: of a decoding one, as soon as it has decoded. -/
def Cmd.size (c : Cmd) : Nat :=
  match c.output with
  | some o => o.1.length
  | none => c.opb.toNat

/-- The first piece of n bytes of an operand of a running command (R131): a command that streams translates each 4 KiB
once, as it reaches it, and keeps the translation until it reaches the next. -/
def State.cmdSpan (s : State) (t : BitVec 10) (c : Cmd) (va n : Nat) (k : Kind) : Except (Cause × State) (State × Span) :=
  let w : Bool := k = .write
  match (s.cmdNow t c).pages.find? fun p => p.write = w && p.page = va / 4096 && p.entry.covers va with
  | some p => s.spanUnder p.entry va n k
  | none =>
    match s.firstSpan t c.region c.who va n k with
    | .error x => .error x
    | .ok (s, x) =>
      if streams c.insn then
        .ok (s.modCmd t c fun d =>
          { d with pages := d.pages.filter (fun p => p.write ≠ w || p.page = va / 4096) ++ [⟨w, va / 4096, x.entry⟩] }, x)
      else .ok (s, x)

/-- A running command may write through an entry (R78): its fibre is confirmed, or the range is PRIVATE to the fibre's
subtree. -/
def State.cmdWrites (s : State) (c : Cmd) (e : RangeEntry) : Bool :=
  let conf := match s.fibre? c.fibre with
    | some f => f.conf
    | none => c.conf
  conf || (e.priv && s.inSubtree c.fibre e.owner)

/-- The bytes at a physical address with their poison. -/
def State.peekE (s : State) (pa n : Nat) : List EByte :=
  (s.peek pa n).zipIdx.map fun x => (x.1, poisoned s.poison (pa + x.2) 1)

/-- The state with bytes written at a physical address: a unit that a poisoned byte reaches is poisoned whole (R425). -/
def State.pokeE (s : State) (pa : Nat) (bs : List EByte) : State :=
  bs.zipIdx.foldl (fun s x => if x.1.2 then s.mark (pa + x.2) 1 else s) (s.poke pa (bs.map (·.1)))

/-- Poison after a command has written the last of some bytes that lie one after another, given the marks of all of them:
a unit that they fill whole from clean bytes is no longer poisoned (R146, R425). -/
def cleanUnits (poison : List Nat) (pa : Nat) (marks : List Bool) : List Nat :=
  poison.filter fun u => !(decide (pa ≤ u) && decide (u + unitSize u ≤ pa + marks.length) &&
    ((marks.drop (u - pa)).take (unitSize u)).all fun b => !b)

/-- The state with bytes written at a physical address by a command that has just written the bytes before them, whose
marks are given. -/
def State.pokeAfter (s : State) (pa : Nat) (old : List Bool) (bs : List EByte) : State :=
  let s := s.pokeE pa bs
  { s with poison := cleanUnits s.poison (pa - old.length) (old ++ bs.map (·.2)) }

/-- The marks of the bytes that a command has written just before an address. -/
def Cmd.trailAt (c : Cmd) (at' : Nat) : List Bool := if c.trail.1 = at' then c.trail.2 else []

/-- The state in which a command has written bytes that end at an address, with the marks of the last of them: no unit is
longer than 128 bytes. -/
def State.setTrail (s : State) (t : BitVec 10) (c : Cmd) (at' : Nat) (marks : List Bool) : State :=
  s.modCmd t c fun d => { d with trail := (at', marks.drop (marks.length - 127)) }

/-- The state in which a command has read the use-once lines of n bytes (R156). -/
def State.noteOnce (s : State) (t : BitVec 10) (c : Cmd) (pa n : Nat) : State :=
  let l := (hbmLines pa n).filter fun l => ((s.cmem (hbmHome l)).once? l).isSome
  if l.isEmpty then s else s.modCmd t c fun d => { d with once := l.foldl insertNat d.once }

/-- Where a piece is performed: forward records are followed (R140). -/
def State.spanAt (s : State) (x : Span) : Nat := s.forwarded x.va x.pa

/-- Every block that an operand touches is RESIDENT, as far as it translates; else fetches start and the command
waits (R154). -/
def blocksReady (t : BitVec 10) (c : Cmd) (k : Kind) : Nat → State → Nat → Nat → Except EStop State
  | 0, s, _, _ => .ok s
  | f + 1, s, va, n =>
    if n = 0 then .ok s
    else match s.cmdSpan t c va n k with
      | .error (_, s) => .ok s
      | .ok (s, x) =>
        match s.residency c.region x.entry x.va x.len with
        | .error (s, _) => .error (.wait s)
        | .ok () => blocksReady t c k f s (va + x.len) (n - x.len)

/-- An operand is ready to be read or written. -/
def ready (t : BitVec 10) (c : Cmd) (k : Kind) (va : Word) (n : Nat) (s : State) : Except EStop State :=
  blocksReady t c k n s va.toNat n

/-- Reads of an operand piece by piece, as far as they translate. The answer says whether all of it was read. -/
def readPieces (t : BitVec 10) (c : Cmd) : Nat → State → Nat → Nat → Except EStop (State × List EByte × Bool)
  | 0, s, _, _ => .ok (s, [], true)
  | f + 1, s, va, n =>
    if n = 0 then .ok (s, [], true)
    else match s.cmdSpan t c va n .read with
      | .error (_, s) => .ok (s, [], false)
      | .ok (s, x) =>
        let s := s.drainStep t x.pa x.len
        let pa := s.spanAt x
        if (home? pa).isNone then .error (.hole pa)
        else do
          let bs := s.peekE pa x.len
          let s := ((s.noteOnce t c pa x.len).answered pa x.len).watched (c.issuer t) .eng pa x.len
          let (s, l, ok) ← readPieces t c f s (va + x.len) (n - x.len)
          .ok (s, bs ++ l, ok)

/-- An operand read as far as it translates. -/
def readSome (t : BitVec 10) (c : Cmd) (va : Word) (n : Nat) (s : State) : Except EStop (State × List EByte × Bool) :=
  readPieces t c n s va.toNat n

/-- An operand read whole; a translation that fails cancels the command (R358, R376). -/
def readAll (t : BitVec 10) (c : Cmd) (va : Word) (n : Nat) (s : State) : Except EStop (State × List EByte) := do
  let (s, l, ok) ← readSome t c va n s
  if ok then .ok (s, l) else .error (.cancel s)

/-- The state in which a tile's L1 has lost the lines of n bytes (R180). -/
def State.dropLines (s : State) (t : BitVec 10) (pa n : Nat) : State :=
  s.modTile t fun y => { y with l1 := y.l1.filter fun l => !(pa / 128 ≤ l.line && l.line ≤ (pa + n - 1) / 128) }

/-- One piece written: the block is DIRTY, use-once lines become normal, the issuing tile's L1 loses the lines of the piece
and of the place where forward records send the write (R140, R153, R156, R180). -/
def State.writeSpan (s : State) (t : BitVec 10) (c : Cmd) (x : Span) (bs : List EByte) : State :=
  let s := s.drainStep t x.pa x.len
  let pa := s.spanAt x
  let old := (s.cmdNow t c).trailAt pa
  let s := ((((s.normalise pa x.len).pokeAfter pa old bs).dropLines t x.pa x.len).dropLines t pa x.len).watched
    (c.issuer t) .eng pa x.len
  s.setTrail t c (pa + bs.length) (old ++ bs.map (·.2))

/-- The pieces of an operand as a running command translates it, up to a translation that fails; the answer says whether
all of it translates. -/
def cmdPieces (t : BitVec 10) (c : Cmd) (k : Kind) : Nat → State → Nat → Nat → State × List Span × Bool
  | 0, s, _, _ => (s, [], true)
  | f + 1, s, va, n =>
    if n = 0 then (s, [], true)
    else match s.cmdSpan t c va n k with
      | .error (_, s) => (s, [], false)
      | .ok (s, x) =>
        let r := cmdPieces t c k f s (va + x.len) (n - x.len)
        (r.1, x :: r.2.1, r.2.2)

/-- Writes of bytes piece by piece; where a translation fails the command is cancelled, and what it wrote remains
(R358). A write that R78 holds is not performed either: a command that has been issued has no activation to stop, and it
finishes cancelled (DEDUCED, log 60). -/
def writePieces (t : BitVec 10) (c : Cmd) : Nat → State → Nat → List EByte → Except EStop State
  | 0, s, _, _ => .ok s
  | f + 1, s, va, bs =>
    if bs.isEmpty then .ok s
    else match s.cmdSpan t c va bs.length .write with
      | .error (_, s) => .error (.cancel s)
      | .ok (s, x) =>
        if !s.cmdWrites c x.entry then .error (.cancel s)
        else if (home? (s.spanAt x)).isNone then .error (.hole (s.spanAt x))
        else writePieces t c f (s.writeSpan t c x (bs.take x.len)) (va + x.len) (bs.drop x.len)

/-- Bytes written to an operand. -/
def writeAll (t : BitVec 10) (c : Cmd) (va : Word) (bs : List EByte) (s : State) : Except EStop State :=
  writePieces t c bs.length s va.toNat bs

/-- n bytes at an offset of a tile's own array, registers included. -/
def State.regBytes (s : State) (t : BitVec 10) (off n : Nat) : List EByte := s.peekE (tileBase t.toNat + off) n

/-- The state with bytes at an offset of a tile's own array, registers included. -/
def State.setRegBytes (s : State) (t : BitVec 10) (off : Nat) (bs : List EByte) : State :=
  s.pokeE (tileBase t.toNat + off) bs

/-! Elements with their poison. -/

/-- A number of w bits with the mark of the bytes that it comes from. -/
abbrev EElem := Nat × Bool

/-- The number that bytes hold. -/
def eNat (bs : List EByte) : EElem := (leNat (bs.map (·.1)), bs.any (·.2))

/-- The bytes of a number, all with its mark. -/
def eBytes (n : Nat) (x : EElem) : List EByte := (leBytes n x.1).map fun b => (b, x.2)

/-- Bytes in groups of n. -/
def groupsOf {α : Type} (n : Nat) : Nat → List α → List (List α)
  | 0, _ => []
  | f + 1, l => if l.isEmpty then [] else l.take n :: groupsOf n f (l.drop n)

/-- Groups of n of a whole list. -/
def chunks {α : Type} (n : Nat) (l : List α) : List (List α) := groupsOf n l.length l

/-- The elements of width w that bytes hold, with the marks of the bytes that they lie in. -/
def eElems (w : Nat) (bs : List EByte) : List EElem :=
  if w = 4 then bs.flatMap fun b => [(b.1.toNat % 16, b.2), (b.1.toNat / 16, b.2)]
  else (chunks (w / 8) bs).map eNat

/-- The bytes of elements of width w. -/
def eJoin (w : Nat) (l : List EElem) : List EByte :=
  if w = 4 then (chunks 2 l).map fun p => match p with
    | [x, y] => (BitVec.ofNat 8 (x.1 % 16 + y.1 % 16 * 16), x.2 || y.2)
    | [x] => (BitVec.ofNat 8 (x.1 % 16), x.2)
    | _ => (0, false)
  else l.flatMap (eBytes (w / 8))

/-- The elements of a list of 32-bit words. -/
def eWords (bs : List EByte) : List EElem := eElems 32 bs

/-! Finish. -/

/-- A context after one of its commands has finished (R114, R115), given the numbers that are still unfinished. -/
def EngineCtx.finish (e : EngineCtx) (n : Word) (ok : Bool) (open' : List Nat) : EngineCtx :=
  let b : BitVec 128 := (1 : BitVec 128) <<< (n.toNat % 128)
  { e with
      complete := match open'.min? with
        | some k => wd (k - 1)
        | none => e.issued
      canhi := if !ok && e.canhi.toNat < n.toNat then n else e.canhi
      done := if ok then e.done ||| b else e.done &&& ~~~b }

/-- The state in which a command has finished, completed or cancelled (R114, R117, R120, R356). The use-once lines that it
has read leave (R156). The slot of a reclaimed issuer may have waited for it (R75). -/
def State.finishCmd (s : State) (t : BitVec 10) (c : Cmd) (ok : Bool) : State :=
  let s := (s.cmdNow t c).once.foldl (fun s l => s.consumeOnce l 128) s
  let s := s.modTile t fun x => { x with cmds := removeFirst (fun d => d.same c) x.cmds }
  let left := ((s.tile t).cmds.filter fun d => d.thr = c.thr && d.ctx = c.ctx).map fun d => d.number.toNat
  let s := s.modThread ⟨t, c.thr⟩ fun x => x.setEngine c.ctx ((x.engine c.ctx).finish c.number ok left)
  let s := if c.p7dst && c.owned && !ok then s.modThread ⟨t, c.thr⟩ fun x => x.wp 7 false else s
  let s := if usesChannel c.insn && c.running then
      s.modTile t fun x => x.setChannel (channelOf c.thr) { x.channel (channelOf c.thr) with act := false }
    else s
  if c.cancelled then s.tryFree (futureHandle c.fibre) else s

/-- The state in which a command that its issue has judged has been numbered and has finished cancelled alone (R392). -/
def State.enterCancelled (s : State) (c : Cmd) : State := (s.enterCmd c).finishCmd s.cur.tile c false

/-- The state in which a command leaves a stop for its activation (R207, R376). -/
def State.defer (s : State) (t : BitVec 10) (c : Cmd) (d : Deferred) : State :=
  if c.owned then s.modThread ⟨t, c.thr⟩ fun x => { x with deferred := x.deferred ++ [d] } else s

/-- A plain deferred stop of a command, with its descriptor's address (R376). -/
def Cmd.stopDeferred (c : Cmd) (cause : Cause) : Deferred :=
  { ctx := c.ctx, number := c.number, cause := cause, addr := c.opa, vreg := none, cxd := 0, regen := .waiting }

/-- The state with the write pointer of a command's channel at an address (R119). -/
def State.setWp (s : State) (t : BitVec 10) (c : Cmd) (wp : Word) : State :=
  s.modTile t fun x => x.setChannel (channelOf c.thr) { x.channel (channelOf c.thr) with wp := wp.setWidth 56 }

end Sys2Proof.Machine
end

