-- ==== Sys2Proof/Machine/Moves.lean ====
section
/-! DEFINITION. Invalidation (R138) and the moving of a range with forwarding (R139 to R142), as shared operations; the
events MOVE_STEP and FORWARD_RECORD_REMOVAL; and the compaction of a store room (R143). -/

namespace Sys2Proof.Machine

/-- A tile is in the tile set. -/
def Sets.hasTile (x : Sets) (t : Nat) : Bool := x.tiles.getLsbD t

/-- The state in which every table of a tile set that holds an entry overlapping one holds that one instead (R140). -/
def State.retable (s : State) (q : BitVec 16) (x : Sets) (e : RangeEntry) : State :=
  { s with tiles := s.tiles.map fun t =>
      if x.hasTile t.1 && (t.2.rtable.any fun f => f.rtag = q && f.overlaps e) then
        (t.1, { t.2 with rtable := installEntry t.2.rtable q e })
      else t }

/-- A store on its way was translated in a region's tree on a tile of a set, at an address that some entries cover. -/
def Access.under (a : Access) (s : State) (q : BitVec 16) (x : Sets) (dropped : List RangeEntry) : Bool :=
  x.hasTile a.tile.toNat && s.treeOf a.region = q && dropped.any fun e => e.covers a.va

/-- A line lies in the image of an interval under an offset. -/
def inImage (off : Word) (lo hi line : Nat) : Bool :=
  let base := imageOf off lo
  decide (base < (line + 1) * 128) && decide (line * 128 < base + (hi - lo))

/-- The 4 KiB that a running command streams now, given with the interval that it has translated. -/
def Cmd.streaming (c : Cmd) (p : Page) : Bool :=
  let at' := (if p.write then c.opd else c.opa).toNat + c.progress
  c.running && p.page = at' / 4096 && decide (c.progress < c.size)

/-- A command on a tile of a set streams 4 KiB that an entry of a region's tree translated which satisfies a test: an
engine step already translated (R138). -/
def State.pagesBusy (s : State) (q : BitVec 16) (x : Sets) (p : RangeEntry → Bool) : Bool :=
  s.tiles.any fun t => x.hasTile t.1 && t.2.cmds.any fun c =>
    s.treeOf c.region = q && c.pages.any fun g => c.streaming g && p g.entry

/-- The entries of a region's tree that satisfy a test leave the tables of a tile set, the accesses that they translated
are performed, and the lines of their images leave a tile's L1 (R138). -/
def State.dropThose (s : State) (q : BitVec 16) (x : Sets) (issuer : BitVec 10) (p : RangeEntry → Bool) : State :=
  let hit (f : RangeEntry) : Bool := f.rtag = q && p f
  let pages := s.tiles.flatMap fun t => if x.hasTile t.1 then t.2.cmds.flatMap fun c =>
    if s.treeOf c.region = q then (c.pages.map (·.entry)).filter p else [] else []
  let dropped := (s.tiles.flatMap fun t => if x.hasTile t.1 then t.2.rtable.filter hit else []) ++ pages
  let without (t : Nat × Tile) : Nat × Tile :=
    if x.hasTile t.1 then (t.1, { t.2 with rtable := t.2.rtable.filter fun f => !(hit f) }) else t
  let s : State := { s with tiles := s.tiles.map without }
  let s := s.performThose fun a => a.under s q x dropped
  s.modTile issuer fun t => { t with l1 := t.l1.filter fun l =>
    !(dropped.any fun e =>
      inImage e.offset e.vbase e.limit l.line || (e.forwarding && inImage e.foff e.vbase e.fbase l.line)) }

/-- An invalidation of an interval (R138). -/
def State.dropEntries (s : State) (q : BitVec 16) (x : Sets) (issuer : BitVec 10) (lo hi : Nat) : State :=
  s.dropThose q x issuer fun f => f.vbase < hi && lo < f.limit

/-! Moves. -/

/-- The leaf of a move's range. -/
def State.moveLeaf (s : State) (m : Move) : Option Leaf := (s.leaves m.region).find? fun l => l.entry.vbase = m.vbase

/-- The state with an entry in a leaf and in the tables of a tile set. -/
def State.putEntry (s : State) (r : BitVec 16) (leaf : Nat) (x : Sets) (e : RangeEntry) : State :=
  (s.writeLeaf leaf e).retable (s.treeOf r) x e

/-- The channel that a move runs on (R139). -/
def Move.channel (m : Move) : BitVec 2 :=
  match m.mover with
  | .command _ h _ => channelOf h
  | _ => 3

/-- A move is of the hardware mover. -/
def Move.hard (m : Move) : Bool :=
  match m.mover with
  | .command _ _ _ => false
  | _ => true

/-- The start of a move (R140): the leaf and the tables of the scope receive the forwarding pair. -/
def State.startMove (s : State) (l : Leaf) (m : Move) : State :=
  let e := { l.entry with
    forwarding := true, fbase := m.vbase, foff := m.newOff, fscope := m.sets.index, gen := l.entry.gen + 1 }
  let s := s.putEntry m.region l.addr m.sets e
  { s with moves := s.moves ++ [m] }

/-- Whom a move's accesses name (R227). -/
def State.moveIssuer (s : State) (m : Move) : Issuer :=
  match m.mover with
  | .command t h n =>
    match (s.tile t).cmds.find? fun c => c.number = n && c.thr = h && c.ctx = ctxCopy with
    | some c => c.issuer t
    | none => ⟨t, h, 0, 0, 0⟩
  | _ => ⟨m.tile, 7, 0, 0, 0⟩

/-- The cluster memories that hold the lines of an interval of physical addresses. -/
def lineHomes (pa n : Nat) : List Nat :=
  if hbmEnd ≤ pa then []
  else (List.range ((pa + n - 1) / 128 + 1 - pa / 128)).foldl (fun l i => insertNat l (hbmHome ((pa / 128 + i) * 128))) []

/-- It is a move's turn on its channel (R116, R139): it runs there, or it is the first of its tile that waits for
channel 3 and the channel runs nothing. -/
def State.moveTurn (s : State) (n : Nat) (m : Move) : Bool :=
  m.started || (!((s.tile m.tile).channel m.channel).act && !((s.moves.take n).any fun k => k.hard && k.tile = m.tile))

/-- What is known by its old physical address is known by its new one once its step has been copied: a block of a TIERED
range, the barrier word that a thread waits for (R183), and the dependence counter of a fibre or of a group (R67). A block
takes its residency, its pins and DIRTY along, of which R154 says nothing (DESIGN CHOICE, log 79). -/
def State.rekey (s : State) (m : Move) (lo hi : Nat) : State :=
  let old := imageOf m.oldOff lo
  let moved (pa : Nat) : Nat := if old ≤ pa && pa < old + (hi - lo) then imageOf m.newOff lo + (pa - old) else pa
  let hold (h : Hold) : Hold := match h with
    | .barrier pa => .barrier (moved pa)
    | h => h
  let park (p : Park) : Park := match p with
    | .residency l => .residency (l.map moved)
    | p => p
  let blocks := (blocksOf lo (hi - lo)).foldl (fun b va =>
    match mfind b (imageOf m.oldOff va) with
    | some x => mset (mdel b (imageOf m.oldOff va)) (imageOf m.newOff va) x
    | none => b) s.blocks
  { s with
      blocks := blocks
      tiles := s.tiles.map fun t => (t.1, { t.2 with
        threads := t.2.threads.map fun x => { x with hold := hold x.hold }
        slots := t.2.slots.map fun y =>
          (y.1, { y.2 with
            fibre := y.2.fibre.map fun f => { f with park := f.park.map park, depctr := wd (moved f.depctr.toNat) }
            future := y.2.future.map fun f => { f with counter := f.counter.map moved } })
        cmds := t.2.cmds.map fun c => { c with blocks := c.blocks.map moved } }) }

/-- The forward record of a step of a move (R140). -/
def Move.record (m : Move) (lo hi : Nat) : ForwardRec :=
  let old := imageOf m.oldOff lo
  ⟨m.region, m.vbase, (lo - m.vbase) / 65536, old, old + (hi - lo), m.newOff⟩

/-- The state in which a move's forward records have been placed at every home of a step's old lines (R140). -/
def State.placeRecords (s : State) (m : Move) (lo hi : Nat) : State :=
  let old := imageOf m.oldOff lo
  let s := (lineHomes old (hi - lo)).foldl (fun s c => s.modCmem c fun y => { y with forward := y.forward ++ [m.record lo hi] }) s
  if old + (hi - lo) ≤ hbmEnd then s else { s with forward := s.forward ++ [m.record lo hi] }

/-- The state with the forward records that satisfy a test removed at every home. -/
def State.dropRecords (s : State) (p : ForwardRec → Bool) : State :=
  { s with
      cmems := s.cmems.map fun c => (c.1, { c.2 with forward := c.2.forward.filter fun f => !p f })
      forward := s.forward.filter fun f => !p f }

/-- The forward records of a move are removed. -/
def State.clearRecords (s : State) (m : Move) : State :=
  s.dropRecords fun f => f.region = m.region && f.vbase = m.vbase

/-- One step copied (R140 steps 1 and 2): old lines read at their homes, new lines written in ascending order, poison
carried (R142); the tile whose channel copies keeps none of the new lines in its L1 (R180). -/
def State.copyStep (s : State) (m : Move) (lo hi : Nat) : State :=
  let old := imageOf m.oldOff lo
  let new := imageOf m.newOff lo
  let n := hi - lo
  let x := s.moveIssuer m
  let bs := s.peekE old n
  let s := ((s.answered old n).watched x .eng old n).consumeOnce old n
  let s := (((s.normalise new n).pokeE new bs).dropLines m.tile new n).watched x .eng new n
  s.rekey m lo hi

/-- Fibres parked for a context are made ready (R99). -/
def State.unparkContext (s : State) (cxd : Nat) : State :=
  (s.fibresWhere fun f => f.park = some (.context cxd)).foldl (fun s h => s.unpark h) s

/-! Allocations that may compact the store room (R143, R157). -/

/-- How an allocation ends: given; to be made again when the compaction that it has started is over; or refused. -/
inductive Grant where
  | given (run : Run) (s : State)
  | later (s : State)
  | refused (s : State)

/-- The region and context that hold a run of their slab. -/
def State.slabOf (s : State) (d : BitVec 2) (r : Run) : Option (BitVec 16 × CtxSlot) :=
  s.ctxList.find? fun x => x.2.slab.contains (d, r)

/-- The lowest place of 2^o blocks among a die's own free runs. -/
def Die.lowestPlace (x : Die) (o : Nat) : Option Run :=
  best (fun a b => decide (a.first < b.first)) (x.freeRuns.filter fun r => o ≤ r.order && !x.isBorrowed r)

/-- An engine command is on a block: a copy that streams reads or writes it now, and so holds it pinned (R153, R154). -/
def State.blockBusy (s : State) (b : Block) : Bool :=
  s.tiles.any fun t => t.2.cmds.any fun c =>
    c.running && c.progress ≠ 0 && s.treeOf c.region = s.treeOf b.region && match c.insn with
      | .cpy _ _ _ => (c.opa.toNat + c.progress) / 65536 = b.va / 65536 || (c.opd.toNat + c.progress) / 65536 = b.va / 65536
      | .cpyMc _ _ _ _ => (c.opa.toNat + c.progress) / 65536 = b.va / 65536
      | .cpyT _ _ _ => (c.opd.toNat + c.progress) / 65536 = b.va / 65536
      | .promo _ _ _ _ => (c.opd.toNat + c.progress) / 65536 = b.va / 65536
      | _ => false

/-- A block of a range is pinned, by `pin` or because an engine command is on it (R154). -/
def State.blockPinned (s : State) (r : BitVec 16) (e : RangeEntry) (va : Nat) : Bool :=
  let b := s.block r e va
  b.pins ≠ 0 || s.blockBusy { b with region := r, va := va }

/-- A range may be moved by a compaction: neither SHARED nor TIERED with a pinned block, nor under way (R143). -/
def State.movable (s : State) (r : BitVec 16) (e : RangeEntry) : Bool :=
  !e.shared && !e.forwarding && !(e.tiered && (blocksOf e.vbase (e.limit - e.vbase)).any (s.blockPinned r e))

/-- The image of an entry meets a run. -/
def RangeEntry.meets (e : RangeEntry) (r : Run) : Bool :=
  let pa := imageOf e.offset e.vbase
  decide (pa < r.base + 2 ^ r.order * 65536) && decide (r.base < pa + (e.limit - e.vbase))

/-- The image of an entry lies in a run. -/
def RangeEntry.within (e : RangeEntry) (r : Run) : Bool :=
  let pa := imageOf e.offset e.vbase
  decide (r.base ≤ pa) && decide (pa + (e.limit - e.vbase) ≤ r.base + 2 ^ r.order * 65536)

/-- The moves of the hardware mover that take ranges to a new run, in order, at new offsets and with new limits: the last
one, as it ends, frees the old runs (R140, R143, R200). -/
def moverMoves (r : BitVec 16) (by' : Mover) (tile : BitVec 10) (old : List (BitVec 2 × Run)) (new : BitVec 2 × Run)
    (off : RangeEntry → Word) (limit : RangeEntry → Nat) : List Leaf → List (Leaf × Move)
  | [] => []
  | l :: rest =>
    let e := l.entry
    (l, { region := r, vbase := e.vbase, limit := e.limit, oldOff := e.offset, newOff := off e, fbase := e.vbase,
          sets := setsDevice, mover := by', tile := tile, oldRun := if rest.isEmpty then old else [],
          newRun := if rest.isEmpty then some new else none, newLimit := limit e, started := false })
      :: moverMoves r by' tile old new off limit rest

/-- The state in which moves start together. -/
def State.startMoves (s : State) (l : List (Leaf × Move)) : State := l.foldl (fun s x => s.startMove x.1 x.2) s

/-- The moves that take an allocated run of a die to the lowest free place of its size, where that lies below it and every
range of the run may be moved (R143): the free run, the place and the moves. The hardware mover's channel is one of the
store room's home tile, which is the first tile of the die (DESIGN CHOICE, log 75). -/
def State.shiftOf (s : State) (d : BitVec 2) (run : Run) : Option (Run × Run × List (Leaf × Move)) :=
  match s.slabOf d run, (s.die d).lowestPlace run.order with
  | some (r, _), some f =>
    let new : Run := ⟨f.first, run.order⟩
    let ranges := (s.leaves r).filter fun l => l.entry.meets run
    if f.first < run.first && !ranges.isEmpty && ranges.all fun l => l.entry.within run && s.movable r l.entry then
      some (f, new, moverMoves r (.compaction d) (BitVec.ofNat 10 (256 * d.toNat)) [(d, run)] (d, new)
        (fun e => e.offset + wd (2 ^ 64 + new.base - run.base)) (·.limit) ranges)
    else none
  | _, _ => none

/-- The next moves of a compaction of a die: its own allocated runs are taken from the lowest address upward (R143). -/
def State.nextShift (s : State) (d : BitVec 2) : Option (Run × Run × List (Leaf × Move)) :=
  let runs := (s.die d).allocated.filter fun r => !(s.die d).isBorrowed r
  (sortBy (fun a b => decide (a.first ≤ b.first)) runs).findSome? fun r => s.shiftOf d r

/-- A move of a compaction of a die is under way. -/
def State.compacting (s : State) (d : BitVec 2) : Bool := s.moves.any fun m => m.mover = .compaction d

/-- A run of 2^k blocks of the die's own is free. -/
def Die.hasRun (x : Die) (k : Nat) : Bool := x.freeRuns.any fun r => k ≤ r.order && !x.isBorrowed r

/-- An allocation that fails although enough blocks are free compacts the store room, while a move may help; else it is
refused (R143, R157). -/
def State.orCompact (s : State) (d : BitVec 2) (k : Nat) : Grant :=
  if 2 ^ k ≤ (s.die d).free && (s.compacting d || (s.nextShift d).isSome) then
    .later (s.modDie d fun x => if x.compact.isSome then x else { x with compact := some (BitVec.ofNat 5 k) })
  else .refused (s.refuseRun d)

/-- A NEW allocation (R157): refused at once where FREE would fall below RESERVE. -/
def State.newRun (s : State) (d : BitVec 2) (k : Nat) : Grant :=
  if (s.die d).free < (s.die d).reserve.toNat + 2 ^ k then .refused (s.refuseRun d)
  else match s.takeRun d k with
    | some (r, s) => .given r s
    | none => s.orCompact d k

/-- A GROW allocation: own blocks and reserve, then a borrowed batch, then a compaction (R157). -/
def State.growRun (s : State) (d : BitVec 2) (k : Nat) : Grant :=
  match s.takeRun d k with
  | some (r, s) => .given r s
  | none =>
    let s := s.askBatch d
    match s.takeRun d k with
    | some (r, s) => .given r s
    | none => s.orCompact d k

/-! Growth (R200). -/

/-- Growth of a slab asked for: CSTATE is 2, and the move of its range begins at once, or when the move or the compaction
that is in its way is over; where `rsplit` has divided the range, so do the moves of its parts. An error is a refusal:
CAPLOG is 20, the slab would pass its slot, the store room refuses, or the range is SHARED and so never moved (R130, R139;
DEDUCED, log 62). -/
def State.growSlab (s : State) (c : Nat) : Except State State :=
  let r := s.ctxRegion c
  let k := s.slabOrder c (s.caplog c + 1)
  let size := 2 ^ k * 65536
  let ranges := s.slabLeaves c
  match s.region? r, s.ctxSlot? c with
  | some y, some x =>
    if s.caplog c = 20 || 2 ^ y.slablog < size || ranges.isEmpty || ranges.any fun l => l.entry.shared then .error s
    else if ranges.any fun l => l.entry.forwarding then .ok (s.setCx c 0 1 0 2)
    else match s.growRun (dieOf (ctxHome c)) k with
      | .refused s => .error s
      | .later s => .ok (s.setCx c 0 1 0 2)
      | .given run s =>
        let top := s.slab c + s.slabSize c
        .ok ((s.setCx c 0 1 0 2).startMoves (moverMoves r (.growth c) (ctxHome c) x.slab (dieOf (ctxHome c), run)
          (fun _ => wd (run.base + 2 ^ 64 - s.slab c))
          (fun e => if e.limit = top then s.slab c + size else e.limit) ranges))
  | _, _ => .error s

/-- The growths that were asked for and have not begun begin, where nothing is in their way any more. One that is refused
now ends, and the appends that wait for it are judged afresh (R99, R194). -/
def State.resumeGrowths (s : State) : State :=
  let waits (c : Nat) : Bool := s.cstate c = 2 && !(s.moves.any fun m => m.mover = .growth c)
  ((s.ctxList.map fun x => x.2.cxd).filter waits).foldl (fun s c =>
    match s.growSlab c with
    | .ok s => s
    | .error s => (s.setCx c 0 1 0 1).unparkContext c) s

/-! The steps and the end of a move. -/

/-- The state in which the context that holds runs as its slab holds others instead. -/
def State.moveSlab (s : State) (old new : List (BitVec 2 × Run)) : State :=
  { s with regions := s.regions.map fun x => (x.1, { x.2 with ctxs := x.2.ctxs.map fun c =>
      if old.isEmpty || !(old.all c.slab.contains) then c
      else { c with slab := (c.slab.filter fun r => !(old.contains r)) ++ new } }) }

/-- What is still allocated of the run to which moves went. -/
def State.newParts (s : State) (m : Move) : List (BitVec 2 × Run) :=
  match m.newRun with
  | some (d, r) => (s.partsOf d r).map fun x => (d, x)
  | none => []

/-- What follows the end of a move: a command finishes completed (R142), and a growth leaves the context with twice the
capacity once the whole slab has moved (R200). -/
def State.moved (s : State) (m : Move) : State :=
  match m.mover with
  | .command t h n =>
    match (s.tile t).cmds.find? fun c => c.number = n && c.thr = h && c.ctx = ctxCopy with
    | some c => s.finishCmd t c true
    | none => s
  | .growth cxd =>
    if m.newRun.isNone then s
    else
      let s := s.modCtxSlot cxd fun y => { y with slab := s.newParts m }
      if s.cstate cxd = 2 then ((s.setCx cxd 0 11 7 (s.caplog cxd + 1)).setCx cxd 0 1 0 1).unparkContext cxd else s
  | .compaction _ => s

/-- The state in which the blocks from one to another are allocated no longer, whichever runs hold them: a slab keeps what
is left of its runs (R140). -/
def State.unallocate (s : State) (lo hi : Nat) : State :=
  if hi ≤ lo then s
  else (s.runsAt lo hi).foldl (fun s x =>
    let t := s.giveBlocks x.1 x.2 lo hi
    t.moveSlab [x] ((t.partsOf x.1 x.2).map fun r => (x.1, r))) s

/-- The state in which the old image of a move has been freed (R140): of a move by command, the blocks that the image takes
whole, the rest of whose runs stays allocated; of the hardware mover, whole runs. -/
def State.freeImage (s : State) (m : Move) : State :=
  match m.mover with
  | .command _ _ _ =>
    let pa := imageOf m.oldOff m.vbase
    s.unallocate ((pa + 65535) / 65536) ((pa + (m.limit - m.vbase)) / 65536)
  | _ => (s.moveSlab m.oldRun (s.newParts m)).giveRuns m.oldRun

/-- A store on its way was translated into the old image of a move on a tile of its scope. -/
def Access.toOld (a : Access) (m : Move) : Bool :=
  let pa := imageOf m.oldOff m.vbase
  m.sets.hasTile a.tile.toNat && decide (pa ≤ a.pa) && decide (a.pa < pa + (m.limit - m.vbase))

/-- The end of a move (R140): OFFSET is the new one, forwarding ends, an invalidation at the scope is completed, the
records are removed and the old image is freed. Stores of the scope's tiles to the old image that are on their way still,
whether or not a table holds what translated them, are performed first, at the new image (R141). Growths that waited for the
move begin. -/
def State.finishMove (s : State) (n : Nat) (m : Move) (l : Leaf) : State :=
  let e := { l.entry with
    offset := m.newOff, limit := m.newLimit, forwarding := false, fbase := 0, foff := 0, fscope := 0,
    gen := l.entry.gen + 1 }
  let s := s.writeLeaf l.addr e
  let s := s.dropEntries (s.treeOf m.region) m.sets m.tile m.vbase m.limit
  let s := ((s.performThose fun a => a.toOld m).clearRecords m).freeImage m
  let s : State := { s with moves := s.moves.eraseIdx n }
  let s := if m.hard then
      s.modTile m.tile fun t => t.setChannel 3 { t.channel 3 with act := false }
    else s
  (s.moved m).resumeGrowths

/-- A move whose last step has been copied ends, when the accesses that its entries translated have been performed
(R138, R140). -/
def State.tryFinish (s : State) (n : Nat) (m : Move) (l : Leaf) : State :=
  if s.pagesBusy (s.treeOf m.region) m.sets fun e => e.vbase < m.limit && m.vbase < e.limit then s
  else s.finishMove n m l

/-- The next step of a move (R140): its lines are copied, the write pointer advances, the records are placed, and FBASE
advances, with GEN + 1 as for every change to the entry (R128). -/
def State.stepMove (s : State) (n : Nat) (m : Move) (l : Leaf) : State :=
  let lo := m.fbase
  let hi := min (lo + 65536) m.limit
  let s := s.copyStep m lo hi
  let s := s.modTile m.tile fun t => t.setChannel m.channel { t.channel m.channel with wp := BitVec.ofNat 56 hi }
  let s := s.placeRecords m lo hi
  let e := { l.entry with fbase := hi, gen := l.entry.gen + 1 }
  let s := s.putEntry m.region l.addr m.sets e
  let m := { m with fbase := hi }
  let s : State := { s with moves := s.moves.set n m }
  if hi < m.limit then s else s.tryFinish n m { l with entry := e }

/-- The channel begins a move of the hardware mover (R119, R120, R139): WP is the destination base, ACT and MOV are 1 and
THR is 7. -/
def State.beginMove (s : State) (n : Nat) (m : Move) : State :=
  let s := s.modTile m.tile fun t =>
    t.setChannel m.channel ⟨BitVec.ofNat 56 m.vbase, 7, true, false, true, (t.channel m.channel).last⟩
  { s with moves := s.moves.set n { m with started := true } }

/-- The blocks of a step of a move are RESIDENT; else their fetches start and the step waits (R154). `rmove` is an engine
command; the hardware mover is none, and copies a block in any state (DEDUCED, log 79). -/
def State.stepReady (s : State) (m : Move) (l : Leaf) (n : Nat) : Except (State × List Nat) Unit :=
  if m.hard then .ok () else s.residency m.region l.entry m.fbase n

/-- MOVE_STEP (R140): the channel begins the move, or one step of 64 KiB of it, and after the last step its end. The step
waits while it is not the move's turn on its channel, while a home that it needs has no free record, or while a block of
it is not RESIDENT (R154). -/
def State.moveStep (s : State) (n : Nat) : State :=
  match s.moves[n]? with
  | none => s
  | some m =>
    match s.moveLeaf m with
    | none => s
    | some l =>
      let n' := min 65536 (m.limit - m.fbase)
      let full := (lineHomes (imageOf m.oldOff m.fbase) n').any fun c => 64 ≤ (s.cmem c).forward.length
      if !s.moveTurn n m then s
      else if !m.started then s.beginMove n m
      else if m.limit ≤ m.fbase then s.tryFinish n m l
      else match s.stepReady m l n' with
        | .error (s, _) => s
        | .ok () => if full then s else s.stepMove n m l

/-- MOVE_STEP. -/
def execMoveStep (n : Nat) (s : State) : Host.Outcome State Fault Refusal := .next (s.moveStep n)

/-- A forward record may be removed (R140): its step has been applied in every table of the scope, and no access of the
scope that an older FBASE translated is on its way to its lines. -/
def State.recordDone (s : State) (m : Move) (f : ForwardRec) : Bool :=
  let top := m.vbase + (f.step + 1) * 65536
  f.region = m.region && f.vbase = m.vbase && decide (min top m.limit ≤ m.fbase) &&
    !(s.inflight.any fun a => f.lo ≤ a.pa && a.pa < f.hi && m.sets.hasTile a.tile.toNat) &&
    !(s.pagesBusy (s.treeOf m.region) m.sets fun e => e.vbase < top && m.vbase + f.step * 65536 < e.limit &&
      (!e.forwarding || e.fbase < min top m.limit))

/-- FORWARD_RECORD_REMOVAL (R140). -/
def State.removeRecords (s : State) (n : Nat) : State :=
  match s.moves[n]? with
  | none => s
  | some m => s.dropRecords fun f => s.recordDone m f

/-- FORWARD_RECORD_REMOVAL. -/
def execForwardRecordRemoval (n : Nat) (s : State) : Host.Outcome State Fault Refusal := .next (s.removeRecords n)

/-! Compaction (R143). -/

/-- A compaction of a die is over: the instructions and appends that waited for it try again. -/
def State.endCompaction (s : State) (d : BitVec 2) : State := (s.modDie d fun x => { x with compact := none }).resumeGrowths

/-- COMPACTION (R143, R404): the compaction that was asked for starts its next moves, or ends, when a run of the order is
free or no further move would help. A move that is under way goes on by MOVE_STEP. -/
def execCompaction (die : BitVec 2) (k : BitVec 5) (s : State) : Host.Outcome State Fault Refusal :=
  .next (if (s.die die).compact ≠ some k || s.compacting die then s
    else if (s.die die).hasRun k.toNat then s.endCompaction die
    else match s.nextShift die with
      | none => s.endCompaction die
      | some (f, new, l) =>
        (s.modDie die fun x =>
          { x with freeRuns := (removeFirst (fun y => y = f) x.freeRuns) ++ splitRun f.first new.order f.order,
                   allocated := x.allocated ++ [new] }).startMoves l)

/-- BORROW (R158): a store room below its reserve borrows one batch; while both neighbours refuse it asks again at most
once per 2^16 cycles. -/
def execBorrow (die : BitVec 2) (s : State) : Host.Outcome State Fault Refusal :=
  let x := s.die die
  .next (if x.free < x.reserve.toNat then s.askBatch die else s)

/-- BATCH_RETURN (R158): a borrowed batch that is wholly free is returned if the borrower keeps its reserve. -/
def State.batchReturn (s : State) (d : BitVec 2) (n : Nat) : State :=
  let x := s.die d
  match x.borrowed[n]? with
  | none => s
  | some b =>
    let r : Run := ⟨b.base, 6⟩
    if x.freeRuns.contains r && decide (x.reserve.toNat + 64 ≤ x.free) then
      let s := s.modDie d fun y =>
        { y with borrowed := y.borrowed.eraseIdx n, freeRuns := removeFirst (fun z => z = r) y.freeRuns }
      s.modDie b.peer fun y =>
        { y with lent := removeFirst (fun z => z = ⟨d, b.base⟩) y.lent, freeRuns := mergeRun y.freeRuns 10 r }
    else s

/-- BATCH_RETURN. -/
def execBatchReturn (die : BitVec 2) (n : Nat) (s : State) : Host.Outcome State Fault Refusal :=
  .next (s.batchReturn die n)

end Sys2Proof.Machine
end

