-- ==== Sys2Proof/Machine/Tiers.lean ====
section
/-! DEFINITION. The residency of the blocks of TIERED ranges (R152 to R155): the events of a block, fetch and write-back,
and `pin`, `unpin` and `evict` (R395 to R397). -/

namespace Sys2Proof.Machine

/-- A bit of memory set or cleared. -/
def State.pokeBit (s : State) (pa i : Nat) (b : Bool) : State :=
  let old := (s.peekNat (pa + i / 8) 1)
  s.pokeNat (pa + i / 8) 1 (setBits old (i % 8) (i % 8) (nb b))

/-- The state with a block set and its bit of the leaf's bitmap (R133): 1 means RESIDENT. -/
def State.putBlock (s : State) (pa : Nat) (b : Block) : State :=
  let s := s.setBlock pa b
  match s.leafAt b.region b.va with
  | some l =>
    let m := s.bitmapOf l.addr
    if m = 0 then s else s.pokeBit m ((b.va - l.entry.vbase) / 65536) (b.state = .resident)
  | none => s

/-- The state with the commands of every tile changed. -/
def State.mapCmds (s : State) (f : Cmd → Cmd) : State :=
  { s with tiles := s.tiles.map fun t => (t.1, { t.2 with cmds := t.2.cmds.map f }) }

/-- A block has reached NONRES, for the `evict` commands that wait for it (R396). -/
def State.evicted (s : State) (pa : Nat) : State :=
  s.mapCmds fun c => { c with blocks := c.blocks.filter fun x => !(x = pa) }

/-- The eviction of a block is refused: the commands that wait for it count it as skipped (R153). -/
def State.evictRefused (s : State) (pa : Nat) : State :=
  s.mapCmds fun c => if c.blocks.contains pa then
    { c with blocks := c.blocks.filter fun x => !(x = pa), skipped := true } else c

/-- A block reaches NONRES; with a pending promotion it goes at once to FETCHING (R153). -/
def State.reachNonres (s : State) (pa : Nat) (b : Block) : State :=
  (s.putBlock pa { b with state := if b.promoPending then .fetching else .nonres, dirty := false, promoPending := false,
                          evictPending := false }).evicted pa

/-- The `evict` row of a RESIDENT block (R153). The stores that are on their way to it, which found it RESIDENT, are
performed first (R154), and its use-once lines are dropped (R156). A clean block needs no write-back. -/
def State.judgeEvict (s : State) (pa : Nat) (b : Block) : State :=
  if b.pins = 0 && !s.blockBusy b then
    let s := (s.performThose fun a => s.forwarded a.va a.pa / 65536 * 65536 = pa).consumeOnce pa 65536
    let b := mget b s.blocks pa
    if b.dirty then s.putBlock pa { b with state := .evicting, evictPending := false } else s.reachNonres pa b
  else s.evictRefused pa

/-- The `evict` event of a block (R153). -/
def State.evictBlock (s : State) (pa : Nat) (b : Block) : State :=
  match b.state with
  | .nonres => s.evicted pa
  | .fetching => s.setBlock pa { b with evictPending := true }
  | .resident => s.judgeEvict pa b
  | .evicting => s

/-- The fibres parked for blocks that are all RESIDENT now are made ready (R99, R153). -/
def State.unparkResident (s : State) : State :=
  let here (pa : Nat) : Bool := match mfind s.blocks pa with
    | some b => b.state = .resident
    | none => false
  let done (p : Park) : Bool := match p with
    | .residency l => l.all here
    | _ => false
  (s.fibresWhere fun f => f.fstate = .parked && f.park.any done).foldl (fun s h => s.unpark h) s

/-! Backing copies (R36, R152, R155). -/

/-- The drive that holds a byte offset of the cellar (R36); none where the cellar has no such byte. R36 and R155 do not say
what becomes of a block whose copy would lie there: its fetch finds no drive and is poisoned, and its write-back fails
(DESIGN CHOICE, log 66). -/
def Hub.driveOf (h : Hub) (off : Nat) : Option Nat :=
  if off + 65536 ≤ h.cellarBytes then h.drives[off / 131072 % h.drives.length]? else none

/-- A drive of the cellar works. -/
def Hub.driveWorks (h : Hub) (off : Nat) : Bool :=
  match h.driveOf off with
  | some d => h.driveup.getLsbD d
  | none => false

/-- Where the cellar holds a byte offset (R36): the drive, and the byte of it. A cell of `State.cellar` is one byte of one
drive, so that what a drive holds stays with it when a later bring-up finds other drives. -/
def Hub.cellarAt (h : Hub) (off : Nat) : Nat :=
  let n := h.drives.length
  let k := off / 131072
  (h.drives[k % n]?).getD 0 * 2 ^ 60 + k / n * 131072 + off % 131072

/-- Where a block's backing copy lies: in host memory, or on a drive. -/
def State.copyAt (s : State) (b : Block) : Nat := if b.btier = 1 then hostBase + b.backing else s.hub.cellarAt b.backing

/-- The bytes of a block's backing copy. -/
def State.backingBytes (s : State) (b : Block) : List Byte :=
  readBytes (if b.btier = 1 then s.mem else s.cellar) (s.copyAt b) 65536

/-- The backing copy of a block has been poisoned for later fetches (R153). It is of the copy, and stays when the range
is set again. -/
def State.backingBad (s : State) (b : Block) : Bool := s.badBacking.contains (b.btier, s.copyAt b)

/-- The state with the backing copy of a block poisoned, or clean. -/
def State.setBacking (s : State) (b : Block) (bad : Bool) : State :=
  let l := s.badBacking.filter fun x => !(x = (b.btier, s.copyAt b))
  { s with badBacking := if bad then l ++ [(b.btier, s.copyAt b)] else l }

/-- The lines of a block that its fetch writes poisoned (R149, R155): all of them where the backing copy cannot be read
as a whole or is poisoned; of a host copy, those that the host answers with poison. -/
def State.badLines (s : State) (b : Block) (ok : Bool) (bad : List Nat) : List Nat :=
  let all := s.backingBad b || (b.btier = 2 && (!ok || !s.hub.driveWorks b.backing))
  (List.range 512).filter fun i =>
    all || (b.btier = 1 && (bad.contains i || poisoned s.poison (hostBase + b.backing + 128 * i) 128))

/-- BLOCK_FETCH_COMPLETE (R149, R153, R155): a host copy has been read, once; the block is RESIDENT, parked fibres are made ready, and a pending eviction is
judged. -/
def State.fetchComplete (s : State) (pa : Nat) (ok : Bool) (bad : List Nat) : State :=
  match mfind s.blocks pa with
  | none => s
  | some b =>
    if b.state ≠ .fetching then s
    else
      let lines := s.badLines b ok bad
      let bytes := s.backingBytes b
      let s := (if b.btier = 1 then s.answered (s.copyAt b) 65536 else s).poke pa bytes
      let s := lines.foldl (fun s i => s.mark (pa + 128 * i) 128) s
      let pend := b.evictPending
      let b := { b with state := .resident, dirty := false, evictPending := false }
      let s := (s.putBlock pa b).unparkResident
      if pend then s.judgeEvict pa b else s

/-- BLOCK_FETCH_COMPLETE. -/
def execBlockFetchComplete (block : BitVec 52) (ok : Bool) (bad : List Nat) (s : State) :
    Host.Outcome State Fault Refusal :=
  .next (s.fetchComplete block.toNat ok bad)

/-- The state in which a block's bytes have been written to its backing copy; poison goes with them (log 11). -/
def State.writeBack (s : State) (pa : Nat) (b : Block) : State :=
  let bs := s.peek pa 65536
  let marks := (List.range 512).filter fun i => poisoned s.poison (pa + 128 * i) 128
  let s := s.touch pa 65536 false
  if b.btier = 1 then marks.foldl (fun s i => s.mark (s.copyAt b + 128 * i) 128) (s.poke (s.copyAt b) bs)
  else { s with cellar := writeBytes s.cellar (s.copyAt b) bs }

/-- A cellar copy is poisoned where its block held poison. -/
def State.backingPoison (s : State) (pa : Nat) (b : Block) : Bool := b.btier = 2 && poisoned s.poison pa 65536

/-- WRITE_BACK_COMPLETE (R153): the block is NONRES; a write-back that fails leaves the backing copy poisoned. -/
def State.writeBackComplete (s : State) (pa : Nat) (ok : Bool) : State :=
  match mfind s.blocks pa with
  | none => s
  | some b =>
    if b.state ≠ .evicting then s
    else if ok && (b.btier ≠ 2 || s.hub.driveWorks b.backing) then
      ((s.writeBack pa b).setBacking b (s.backingPoison pa b)).reachNonres pa b
    else (s.setBacking b true).reachNonres pa b

/-- WRITE_BACK_COMPLETE. -/
def execWriteBackComplete (block : BitVec 52) (ok : Bool) (s : State) : Host.Outcome State Fault Refusal :=
  .next (s.writeBackComplete block.toNat ok)

/-! `pin` and `unpin` (R397). -/

/-- A length register holds 0 to 2^32 - 1 (R387). -/
def needLength (s : State) (n : Word) : Except Stop Unit := need s (decide (n.toNat < 2 ^ 32)) .reservedField

/-- The state after a pin or an unpin of one block; none where the count forbids it. -/
def State.pinBlock (s : State) (up : Bool) (r : BitVec 16) (e : RangeEntry) (va : Nat) : Option State :=
  let b := s.block r e va
  if up then
    if b.pins = 65535 then none else some (s.setBlock (e.phys va) { b.touched with pins := b.pins + 1 })
  else if b.pins = 0 then none
  else some (s.setBlock (e.phys va) { b with pins := b.pins - 1 })

/-- The counts of blocks put back; fetches that have started run on (R397). -/
def State.unpinAll (s : State) (up : Bool) (r : BitVec 16) (e : RangeEntry) (vas : List Nat) : State :=
  vas.foldl (fun s va =>
    let b := s.block r e va
    s.setBlock (e.phys va) { b with pins := if up then b.pins - 1 else b.pins + 1 }) s

/-- Blocks pinned or unpinned in ascending order: the state, and whether all of them were. -/
def State.pinBlocks (s : State) (up : Bool) (r : BitVec 16) (e : RangeEntry) (done : List Nat) : List Nat → State × Bool
  | [] => (s, true)
  | va :: l =>
    match s.pinBlock up r e va with
    | some s => s.pinBlocks up r e (va :: done) l
    | none => (s.unpinAll up r e done, false)

/-- The body of `pin` and `unpin` (R397). -/
def pinBody (up : Bool) (a b : BitVec 5) (s : State) : Body := do
  let va := s.g a
  let n := s.g b
  let _ ← needLength s n
  if n = 0 then do
    let _ ← checkHeld s false
    .ok (s.putP 7 true)
  else do
    let (s, e) ← causeAt va (s.translate s.cur.tile s.self.region (s.lineage s.me) va n.toNat .read)
    let _ ← checkHeld s false
    if e.tiered then
      let (s, ok) := s.pinBlocks up s.self.region e [] (blocksOf va.toNat n.toNat)
      .ok (s.putP 7 ok)
    else .ok (s.putP 7 true)

/-- `pin [ga], gb` (R397). -/
def execPin (a b : BitVec 5) (s : State) : Host.Outcome State Fault Refusal := settle (pinBody true a b s)

/-- `unpin [ga], gb` (R397). -/
def execUnpin (a b : BitVec 5) (s : State) : Host.Outcome State Fault Refusal := settle (pinBody false a b s)

/-! `evict` (R396). -/

/-- The pieces of an interval, as far as they translate for a command, folded over; the answer says whether all of them
did. -/
def foldSpans (t : BitVec 10) (c : Cmd) (k : Kind) (f : State → Span → State) : Nat → State → Nat → Nat → State × Bool
  | 0, s, _, _ => (s, true)
  | m + 1, s, va, n =>
    if n = 0 then (s, true)
    else match s.firstSpan t c.region c.who va n k with
      | .error (_, s) => (s, false)
      | .ok (s, x) => foldSpans t c k f m (f s x) (va + x.len) (n - x.len)

/-- The physical address and the state of the block that a piece lies in. -/
def State.spanBlock (s : State) (c : Cmd) (x : Span) : Nat × Block :=
  let va := x.va / 65536 * 65536
  (x.entry.phys va, s.block c.region x.entry va)

/-- `evict [ga], gb` at issue (R375, R387, R396). -/
def execEvict (a b : BitVec 5) (s : State) : Host.Outcome State Fault Refusal :=
  settle do
    let _ ← commandPoint s ctxCopy
    let va := s.g a
    let n := s.g b
    let _ ← needLength s n
    let (s, _) ← operand s va n.toNat .read
    let _ ← checkHeld s false
    .ok ((s.enterCmd { s.newCmd (.evict a b) ctxCopy with opa := va, opb := n }).advance 4)

/-- `evict` as it starts: every block that the interval touches gets its event; use-once lines of other ranges are
dropped (R156, R396). -/
def startEvict (t : BitVec 10) (c : Cmd) (s : State) : State :=
  let wait (s : State) (x : Span) : State :=
    if x.entry.tiered then s.modCmd t c fun d => { d with blocks := insertNat d.blocks (s.spanBlock c x).1 } else s
  let event (s : State) (x : Span) : State :=
    if x.entry.tiered then s.evictBlock (s.spanBlock c x).1 (s.spanBlock c x).2 else s.consumeOnce (s.spanAt x) x.len
  let (s, ok) := foldSpans t c .read wait c.opb.toNat s c.opa.toNat c.opb.toNat
  let (s, _) := foldSpans t c .read event c.opb.toNat s c.opa.toNat c.opb.toNat
  if ok then s else s.modCmd t c fun d => { d with skipped := true }

/-- `evict` finishes when every block that it waits for has reached NONRES: cancelled if one was refused. -/
def finishEvict (t : BitVec 10) (c : Cmd) (s : State) : State :=
  if c.blocks.isEmpty then s.finishCmd t c (!c.skipped) else s

end Sys2Proof.Machine
end

