-- ==== Sys2Proof/Machine/Ranges.lean ====
section
/-! DEFINITION. Range forms (R135 to R138, R398 to R404): `rprobe`, `rsplit`, `rmerge`, `rinv`, `rset`, `rmove` and
`rcompact`. -/

namespace Sys2Proof.Machine

/-- The word that `rprobe` writes for an address that an entry covers (R399). -/
def State.probeWord (s : State) (e : RangeEntry) (va : Nat) : Word :=
  let res := !e.tiered || (s.block s.self.region e va).state = .resident
  wd (e.phys va % 2 ^ 52 + 2 ^ 52 + (nb e.permR + 2 * nb e.permW + 4 * nb e.permX) * 2 ^ 53
    + (nb e.priv + 2 * nb e.shared + 4 * nb e.cow + 8 * nb e.vol + 16 * nb e.tiered + 32 * nb e.forwarding) * 2 ^ 56
    + nb res * 2 ^ 62)

/-- `rprobe gd, ga` (R399): a look-up that never faults. -/
def execRprobe (d a : BitVec 5) (s : State) : Host.Outcome State Fault Refusal :=
  let va := (s.g a).toNat
  if 2 ^ 56 ≤ va then .next ((s.setP 7 false).putG d 0)
  else match s.lookup s.cur.tile s.self.region va with
    | .ok (s, e) => .next ((s.setP 7 true).putG d (s.probeWord e va))
    | .error (_, s) => .next ((s.setP 7 false).putG d 0)

/-- The act of a form of class acqrel at `sc14`: release, act, acquire (R164, R398). -/
def State.acqrel14 (s : State) (f : State → State) : State := (f (s.release setsDevice)).acquire setsDevice

/-- The state in which a tile's table holds an entry in place of every one of its tree that it overlaps (R136). -/
def State.install (s : State) (t : BitVec 10) (q : BitVec 16) (e : RangeEntry) : State :=
  s.modTile t fun x => { x with rtable := installEntry x.rtable q e }

/-! Residency bitmaps (R133). -/

/-- The number of blocks of a TIERED range. -/
def RangeEntry.blockCount (e : RangeEntry) : Nat := (e.limit - e.vbase) / 65536

/-- A change of the tree that does not take place: none where it changes nothing, else the state in which the
instruction waits for the compaction of the store room. -/
abbrev TreeStop := Option State

/-- Room for a bitmap: a unit of the node pool where 256 bytes suffice, else a run of its own (log 12). A range that is
not TIERED has bitmap 0. The bitmap of a range that is replaced, merged or removed never returns to the pool: R424 speaks of
nodes only (DESIGN CHOICE, log 12). -/
def State.newBitmap (s : State) (r : BitVec 16) (e : RangeEntry) : Except TreeStop (Nat × State) :=
  if !e.tiered then .ok (0, s)
  else
    let q := s.treeOf r
    let n := (e.blockCount + 7) / 8
    if n ≤ 256 then match s.takeUnit q with
      | some x => .ok x
      | none => .error none
    else
      let k := Nat.log2 ((n - 1) / 65536 * 2 + 1)
      let d := dieAt (s.rangeRoot r)
      match s.growRun d k with
      | .given run s => .ok (run.base, s.modRegion q fun x => { x with pool := x.pool ++ [(d, run)] })
      | .later s => .error (some s)
      | .refused _ => .error none

/-- The bitmap of a range written from the states of its blocks. -/
def State.fillBitmap (s : State) (r : BitVec 16) (e : RangeEntry) (at' : Nat) : State :=
  if at' = 0 then s
  else
    let one (i : Nat) : Nat := nb ((s.block r e (e.vbase + 65536 * i)).state = .resident)
    let byte (j : Nat) : Byte := BitVec.ofNat 8 ((List.range 8).foldl (fun n i =>
      if 8 * j + i < e.blockCount then n + one (8 * j + i) * 2 ^ i else n) 0)
    s.poke at' ((List.range ((e.blockCount + 7) / 8)).map byte)

/-- The leaf of a range with the address of its bitmap. -/
def State.setBitmap (s : State) (leaf at' : Nat) : State := s.pokeNat (leaf + 64) 8 at'

/-! Split and merge. -/

/-- The two halves of a range (R135, R400). -/
def RangeEntry.halves (e : RangeEntry) (va : Nat) : RangeEntry × RangeEntry :=
  let gen := e.gen + 1
  ({ e with limit := va, gen := gen },
   { e with vbase := va, gen := gen,
            baddr := if e.tiered then e.baddr + BitVec.ofNat 48 ((va - e.vbase) / 65536) else e.baddr })

/-- A range may be split at an address (R135, R400). -/
def RangeEntry.splits (e : RangeEntry) (va : Nat) : Bool :=
  decide (e.vbase < va) && decide (va < e.limit) && va % 256 = 0 && !e.forwarding && (!e.tiered || va % 65536 = 0)

/-- The state after a range has been split in which both halves wait to be passed on or removed, if the range waited
(R415). -/
def State.splitReleases (s : State) (r : BitVec 16) (vbase va : Nat) : State :=
  { s with releases := s.releases.flatMap fun x =>
      if x.freed.isNone && s.treeOf x.region = s.treeOf r && x.vbase = vbase then [x, { x with vbase := va }] else [x] }

/-- The state after a split; an error where a condition fails or a node cannot be had. -/
def State.splitRange (s : State) (r : BitVec 16) (va : Nat) : Except TreeStop State :=
  match s.leafAt r va with
  | none => .error none
  | some l =>
    let e := l.entry
    if !e.splits va then .error none
    else do
      let h := e.halves va
      let (m, s) ← s.newBitmap r h.2
      let s := s.fillBitmap r h.2 m
      match (s.writeLeaf l.addr h.1).addRange r h.2 m with
      | none => .error none
      | some s =>
        let q := s.treeOf r
        .ok (((s.install s.cur.tile q h.1).install s.cur.tile q h.2).splitReleases r e.vbase va)

/-- The store room of RANGEROOT's die has refused room for a node or a bitmap (R159, R424). -/
def State.refuseNode (s : State) : State := s.refuseGrow (dieAt (s.rangeRoot s.self.region))

/-- How a form that changes the tree ends, and says in `p7` whether it did, or changed nothing. A change whose conditions
hold fails only for want of room (R424). -/
def treeEnd (s : State) (meets : Bool) (r : Except TreeStop State) : Body :=
  match r with
  | .ok s => .ok ((s.acquire setsDevice).putP 7 true)
  | .error none => .ok (((if meets then s.refuseNode else s).acquire setsDevice).putP 7 false)
  | .error (some s) => .error (.wait .retest s)

/-- A form that changes the tree, released at `sc14` (R134). -/
def treeForm (s : State) (meets : State → Bool) (f : State → Except TreeStop State) : Body := do
  let _ ← checkHeld s false
  let s := s.release setsDevice
  treeEnd s (meets s) (f s)

/-- The conditions of a split hold (R135, R400). -/
def State.canSplit (s : State) (r : BitVec 16) (va : Nat) : Bool :=
  match s.leafAt r va with
  | some l => l.entry.splits va
  | none => false

/-- `rsplit ga` (R135, R400). -/
def execRsplit (a : BitVec 5) (s : State) : Host.Outcome State Fault Refusal :=
  let va := (s.g a).toNat
  settle (treeForm s (fun s => s.canSplit s.self.region va) fun s => s.splitRange s.self.region va)

/-- Two ranges may be merged (R135, R400). Of TIERED ranges the model asks for equal BTIER and for a common bound at a
multiple of 64 KiB too, without which no entry could describe both (DESIGN CHOICE, log 82). -/
def RangeEntry.merges (e f : RangeEntry) : Bool :=
  e.limit = f.vbase && e.offset = f.offset && e.permR = f.permR && e.permW = f.permW && e.permX = f.permX &&
    e.priv = f.priv && e.shared = f.shared && e.cow = f.cow && e.vol = f.vol && e.tiered = f.tiered &&
    e.owner = f.owner && !e.forwarding && !f.forwarding &&
    (!e.tiered || (e.btier = f.btier && e.limit % 65536 = 0 &&
      f.baddr = e.baddr + BitVec.ofNat 48 ((e.limit - e.vbase) / 65536)))

/-- The range that two make (R135). -/
def RangeEntry.union (e f : RangeEntry) : RangeEntry :=
  { e with limit := f.limit, gen := (if e.gen.toNat < f.gen.toNat then f.gen else e.gen) + 1 }

/-- The state after a merge; an error where a condition fails or a node cannot be had. -/
def State.mergeRanges (s : State) (r : BitVec 16) (va : Nat) : Except TreeStop State :=
  let l := s.leaves r
  match l.find? fun x => x.entry.limit = va, l.find? fun x => x.entry.vbase = va with
  | some x, some y =>
    let e := x.entry
    let f := y.entry
    if va % 256 ≠ 0 || !e.merges f then .error none
    else do
      let g := e.union f
      let (m, s) ← s.newBitmap r g
      let s := s.fillBitmap r g m
      let s := (s.dropRange r y).writeLeaf x.addr g
      let s := s.setBitmap x.addr m
      .ok (s.install s.cur.tile (s.treeOf r) g)
  | _, _ => .error none

/-- The conditions of a merge hold (R135, R400). -/
def State.canMerge (s : State) (r : BitVec 16) (va : Nat) : Bool :=
  let l := s.leaves r
  match l.find? fun x => x.entry.limit = va, l.find? fun x => x.entry.vbase = va with
  | some x, some y => va % 256 = 0 && x.entry.merges y.entry
  | _, _ => false

/-- `rmerge ga` (R135, R400). -/
def execRmerge (a : BitVec 5) (s : State) : Host.Outcome State Fault Refusal :=
  let va := (s.g a).toNat
  settle (treeForm s (fun s => s.canMerge s.self.region va) fun s => s.mergeRanges s.self.region va)

/-! `rinv`. -/

/-- `rinv ga, sc` (R138, R402): the entries that cover the address leave the tables of the scope's tile set, and the
instruction completes when every access that one of them translated has been performed. -/
def execRinv (a : BitVec 5) (c : BitVec 4) (s : State) : Host.Outcome State Fault Refusal :=
  settle do
    let sets ← match s.self.captured with
      | some x => .ok x
      | none => useScope s c
    let _ ← checkHeld s false
    let q := s.treeOf s.self.region
    let va := (s.g a).toNat
    let busy := (s.release sets).pagesBusy q sets fun e => e.covers va
    let s := (s.release sets).dropThose q sets s.cur.tile fun e => e.covers va
    if busy then .error (.wait .retest (s.modSelf fun t => { t with captured := some sets }))
    else .ok ((s.acquire sets).advance 4)

/-! `rset`. -/

/-- The reserved fields of an image are zero, and its limits hold (R128); fields that only the device writes are
ignored. -/
def rsetForm (bs : List Byte) : Bool :=
  let e := entryOfBytes bs
  bits (wordAt bs 0) 63 56 = 0 && bits (wordAt bs 1) 63 57 = 0 && bits (wordAt bs 3) 15 9 = 0 &&
    bits (wordAt bs 3) 47 44 = 0 && bits (wordAt bs 5) 63 57 = 0 && bits (wordAt bs 7) 15 2 = 0 &&
    e.vbase % 256 = 0 && e.limit % 256 = 0 && e.offset.toNat % 256 = 0 && decide (e.vbase < e.limit) &&
    decide (e.limit ≤ 2 ^ 56)

/-- An interval of physical addresses lies wholly inside one region of R126. -/
def imageInside (pa n : Nat) : Bool :=
  decide (pa + n ≤ hbmEnd) || (decide (arrayBase ≤ pa) && decide (pa + n ≤ arrayEnd)) ||
    (decide (hostBase ≤ pa) && decide (pa + n ≤ 2 * hostBase))

/-- The attributes of an entry agree (R129). -/
def RangeEntry.allowed (e : RangeEntry) : Bool :=
  !(e.priv && e.shared) && !(e.priv && e.owner = 0) && !(e.tiered && (e.btier = 0 || e.btier = 3)) &&
    !(e.tiered && (e.vbase % 65536 ≠ 0 || e.limit % 65536 ≠ 0 || e.offset.toNat % 65536 ≠ 0)) &&
    imageInside (imageOf e.offset e.vbase) (e.limit - e.vbase)

/-- An image is a removal (R401): no permission and no attribute of bits 7 to 3. -/
def RangeEntry.removes (e : RangeEntry) : Bool :=
  !e.permR && !e.permW && !e.permX && !e.priv && !e.shared && !e.cow && !e.vol && !e.tiered

/-- A block of a TIERED range is FETCHING or EVICTING (R401). -/
def State.blocksMove (s : State) (r : BitVec 16) (e : RangeEntry) : Bool :=
  e.tiered && (blocksOf e.vbase (e.limit - e.vbase)).any fun va =>
    let b := s.block r e va
    b.state = .fetching || b.state = .evicting

/-- A block of a TIERED range is pinned, by `pin` or because an engine command is on it (R154), or FETCHING or EVICTING
(R401). -/
def State.rangeBusy (s : State) (r : BitVec 16) (e : RangeEntry) : Bool :=
  s.blocksMove r e || (e.tiered && (blocksOf e.vbase (e.limit - e.vbase)).any (s.blockPinned r e))

/-- The state without the blocks of a range: a new TIERED entry has every block NONRES (R152, R401). -/
def State.forgetBlocks (s : State) (e : RangeEntry) : State :=
  if e.tiered then (blocksOf e.vbase (e.limit - e.vbase)).foldl (fun s va => { s with blocks := mdel s.blocks (e.phys va) }) s
  else s

/-- The state after a removal (R401). -/
def State.rsetRemove (s : State) (r : BitVec 16) (l : Leaf) : State :=
  let q := s.treeOf r
  let s := (s.dropRange r l).forgetBlocks l.entry
  s.modTile s.cur.tile fun t => { t with rtable := t.rtable.filter fun f => !(f.rtag = q && f.overlaps l.entry) }

/-- The entry that `rset` writes: the fields of the device are its own (R401). -/
def RangeEntry.fresh (e : RangeEntry) (gen : BitVec 24) : RangeEntry :=
  { e with forwarding := false, fscope := 0, rtag := 0, fbase := 0, foff := 0, gen := gen }

/-- The act of `rset` on a form that has passed R129 and R132: the state; an error where it changes nothing (R401). -/
def State.rsetAct (s : State) (r : BitVec 16) (e : RangeEntry) : Except TreeStop State :=
  match (s.leaves r).find? fun l => l.entry.vbase = e.vbase && l.entry.limit = e.limit with
  | some l =>
    if l.entry.forwarding || s.rangeBusy r l.entry then .error none
    else if e.removes then .ok (s.rsetRemove r l)
    else do
      let e := e.fresh (l.entry.gen + 1)
      let (m, s) ← s.newBitmap r e
      let s := (s.forgetBlocks l.entry).forgetBlocks e
      let s := ((s.writeLeaf l.addr e).setBitmap l.addr m).fillBitmap r e m
      .ok (s.install s.cur.tile (s.treeOf r) e)
  | none =>
    if e.removes then .error none
    else do
      let e := e.fresh 1
      let (m, s) ← s.newBitmap r e
      match ((s.forgetBlocks e).fillBitmap r e m).addRange r e m with
      | some s => .ok (s.install s.cur.tile (s.treeOf r) e)
      | none => .error none

/-- The conditions of the act of `rset` hold (R401): no move and no busy block, and no removal of what is not there. -/
def State.canSet (s : State) (r : BitVec 16) (e : RangeEntry) : Bool :=
  match (s.leaves r).find? fun l => l.entry.vbase = e.vbase && l.entry.limit = e.limit with
  | some l => !l.entry.forwarding && !s.rangeBusy r l.entry
  | none => !e.removes

/-- An entry overlaps another of the tree than the one that it replaces (R132). -/
def State.overlapsOther (s : State) (r : BitVec 16) (e : RangeEntry) : Bool :=
  (s.leaves r).any fun l => l.entry.overlaps e && !(l.entry.vbase = e.vbase && l.entry.limit = e.limit)

/-- `rset ga` (R129, R132, R401). -/
def execRset (a : BitVec 5) (s : State) : Host.Outcome State Fault Refusal :=
  settle do
    let _ ← checkHeld s false
    let s := s.release setsDevice
    let (s, bs) ← loadChecked s (s.g a) 64 64
    let e := entryOfBytes bs
    let _ ← need s (rsetForm bs && e.allowed) .reservedField
    let _ ← need s (!s.overlapsOther s.self.region e) .rangeOverlap
    treeEnd s (s.canSet s.self.region e) (s.rsetAct s.self.region e)

/-! `rmove` and `rcompact`. -/

/-- A new image may be taken (R403): it lies inside one region of R126, apart from the old one. -/
def RangeEntry.moveOk (e : RangeEntry) (off : Word) : Bool :=
  let n := e.limit - e.vbase
  let old := imageOf e.offset e.vbase
  let new := imageOf off e.vbase
  off.toNat % 256 = 0 && !(e.tiered && off.toNat % 65536 ≠ 0) && imageInside new n && (new + n ≤ old || old + n ≤ new)

/-- What R106 says of reading the old image of a range and writing a new one, where they lie in tile arrays: a copy is
an engine access like any other (DEDUCED, log 61). -/
def State.moveAccess (s : State) (e : RangeEntry) (off : Word) : Except (Cause × State) Unit := do
  let _ ← s.arrayCheck (imageOf e.offset e.vbase) (e.limit - e.vbase) .read
  s.arrayCheck (imageOf off e.vbase) (e.limit - e.vbase) .write

/-- The footprint of a move in a tile's own array (R117): what it reads and what it writes. -/
def moveIntervals (t : BitVec 10) (e : RangeEntry) (off : Word) : List (Nat × Nat) :=
  ownIntervals t [⟨e.vbase, e.limit - e.vbase, e, imageOf off e.vbase⟩]

/-- `rmove ga, gb, sc` at issue (R375, R403). -/
def execRmove (a b : BitVec 5) (c : BitVec 4) (s : State) : Host.Outcome State Fault Refusal :=
  settle do
    let _ ← commandPoint s ctxCopy
    let sets ← useScope s c
    let va := s.g a
    let off := s.g b
    match if va.toNat < 2 ^ 56 then s.leafAt s.self.region va.toNat else none with
    | none => stopAt s .rangeNone va
    | some l => do
      let e := l.entry
      let _ ← need s (e.moveOk off) .reservedField
      let _ ← causeAt va (s.moveAccess e off)
      let _ ← checkHeld s false
      if e.shared || e.forwarding then .ok (s.putP 7 false)
      else
        let t := s.cur.tile
        .ok ((s.enterCmd { s.newCmd (.rmove a b c) ctxCopy with
          opa := va, opb := off, sets := some sets, reads := moveIntervals t e e.offset,
          writes := moveIntervals t e off }).putP 7 true)

/-- `rmove` as it starts: the move begins (R140); a range that has gone or may not be moved any more cancels it. -/
def startRmove (t : BitVec 10) (c : Cmd) (s : State) : State :=
  match s.leafAt c.region c.opa.toNat, c.sets with
  | some l, some sets =>
    let e := l.entry
    let open' := match s.moveAccess e c.opb with
      | .ok _ => true
      | .error _ => false
    if e.shared || e.forwarding || !e.moveOk c.opb || !open' then s.finishCmd t c false
    else
      (s.setWp t c (wd e.vbase)).startMove l
        { region := c.region, vbase := e.vbase, limit := e.limit, oldOff := e.offset, newOff := c.opb, fbase := e.vbase,
          sets := sets, mover := .command t c.thr c.number, tile := t,
          oldRun := [], newRun := none, newLimit := e.limit,
          started := true }
  | _, _ => s.finishCmd t c false

/-- `rcompact ga, gb` (R143, R404). -/
def execRcompact (a b : BitVec 5) (s : State) : Host.Outcome State Fault Refusal :=
  settle do
    let _ ← needPrivilege s
    let _ ← checkHeld s false
    let d := (s.g a).toNat
    let k := (s.g b).toNat
    let _ ← need s (decide (d < 4) && decide (k ≤ 16)) .reservedField
    let die := BitVec.ofNat 2 d
    let free := (s.die die).compact.isNone
    let s := if free then s.modDie die fun x => { x with compact := some (BitVec.ofNat 5 k) } else s
    .ok (s.putP 7 free)

/-- TABLE_WALK (R134): a miss of a tile's table is resolved by a walk that installs the entry, or reports none. -/
def execTableWalk (tile : BitVec 10) (region : BitVec 16) (va : BitVec 64) (s : State) : Host.Outcome State Fault Refusal :=
  .next (if va.toNat < 2 ^ 56 then
      match s.lookup tile region va.toNat with
      | .ok (s, _) => s
      | .error (_, s) => s
    else s)

end Sys2Proof.Machine
end

