-- ==== Sys2Proof/Machine/Fibres.lean ====
section
/-! DEFINITION. Messages, fibres and futures (R312 to R332): the fourteen forms of major 0x20. -/

namespace Sys2Proof.Machine

/-- A destination word keeps the rules of R313 for an activation of a region, privileged or not. -/
def State.destOkFor (s : State) (r : BitVec 16) (privileged : Bool) (d : Word) : Bool :=
  let local' := dPeer d && dDev d = s.hub.devnum
  decide (dMode d < 2) &&
  (if dMode d = 0 then
    bits d 63 51 = 0 && (dPeer d || (bits d 33 26 = 0 && bits d 50 35 = 0)) && !(dPeer d && dDev d = 0xFF) &&
      (!local' || dPregion d = r)
   else bits d 63 62 = 0) &&
  (dClass d ≠ 3 || privileged)

/-- A destination word keeps the rules of R313 for the current activation. -/
def State.destOk (s : State) (d : Word) : Bool := s.destOkFor s.self.region s.privileged d

/-- KIND of a transform word (R122). -/
def xKind (x : Word) : Nat := bits x 3 0
/-- OPT of a transform word. -/
def xOpt (x : Word) : Nat := bits x 4 4
/-- NPAIR of a transform word. -/
def xNpair (x : Word) : Nat := bits x 15 8
/-- PARAM of a transform word, unsigned. -/
def xParam (x : Word) : Nat := bits x 39 16

/-- A transform word has an assigned KIND and no nonzero reserved field (R122). -/
def xformOk (x : Word) : Bool :=
  xKind x < 6 && bits x 7 5 = 0 && bits x 63 40 = 0 &&
    (xOpt x = 0 || xKind x = 2 || xKind x = 4)

/-- What `send` and `send.t` share (R318). -/
def sendBody (s : State) (dest arg src len xform : Word) (typed : Bool) (c : BitVec 4) : Body := do
  let _ ← reclaimPoint s
  let _ ← need s (s.destOk dest) .sendInvalid
  let _ ← need s (!typed || (xformOk xform && (xKind xform ≠ 5 || xParam xform % 4 = 0))) .sendInvalid
  let _ ← need s (len.toNat ≤ 4096) .payloadLength
  let _ ← need s (!(typed && xKind xform = 5 && len.toNat % 4 ≠ 0)) .payloadLength
  let sets ← useScope s c
  let s ← if len = 0 then .ok s else do
    let (s, e, _) ← checkMapped s src len.toNat [.read]
    let _ ← checkResident s src e len.toNat
    .ok s
  let _ ← checkHeld s (dMode dest = 1 && (s.fibre? (dFibre dest)).isSome && s.inSubtree s.me (dFibre dest))
  let s ← buffer s ⟨dest, arg, addr56 src, c, if typed then 1 else 0, len.setWidth 13, xform, sets⟩
  .ok (s.advance 4)

/-- `send gd, [ga], gb, sc` (R318). -/
def execSend (d a b : BitVec 5) (c : BitVec 4) (s : State) : Host.Outcome State Fault Refusal :=
  settle (sendBody s (s.g d) (s.g (pair d)) (s.g a) (s.g b) 0 false c)

/-- `send.t gd, [ga], gb, sc` (R318). -/
def execSendT (d a b : BitVec 5) (c : BitVec 4) (s : State) : Host.Outcome State Fault Refusal :=
  settle (sendBody s (s.g d) (s.g (pair d)) (s.g a) (s.g b) (s.g (pair b)) true c)

/-- The payload that an activation received from its message, as a kept payload of its fibre (R323). -/
def State.ownPayload (s : State) (x : ThreadId) : Option Kept :=
  match (s.thread x).start with
  | .message cls uid =>
    match ((s.tile x.tile).queue cls).find? fun m => m.msg.uid = uid with
    | some m => if m.len = 0 then none else some ⟨m.unit, m.units, m.len⟩
    | none => none
  | _ => none

/-- The kept payload of a fibre as its activation ends (R323): kept, replaced, or freed. A fibre without a registered
continuation keeps none. -/
def State.settleKept (s : State) (x : ThreadId) : State :=
  let t := s.thread x
  s.modFibre t.fibre fun f =>
    let k := match t.start with
      | .message _ _ => if t.keeps then match s.ownPayload x with | some p => some p | none => f.kept else f.kept
      | _ => if t.keeps then f.kept else none
    { f with kept := if f.cont then k else none }

/-- The fibre whose fault the message that activated a system handler records, if that fault still waits (R214). -/
def State.recordFibre (s : State) (x : ThreadId) : Option Word :=
  match (s.thread x).start with
  | .message cls uid => s.recordOf x.tile cls uid
  | _ => none

/-- The end of a thread's activation by `done` (R65, R322): the message is freed, and the fibre lives on or ends. A
system handler that ends without settling the fault of its record freezes the fibre's group (R214). -/
def State.finish (s : State) (x : ThreadId) : State :=
  let t := s.thread x
  let unsettled := s.recordFibre x
  let s := (s.leaveEpochs x).settleKept x
  let s := if s.keeps t.fibre then s.bringHome t.fibre else s
  let s := match t.start with
    | .message cls uid => s.freeMessage x.tile cls uid
    | _ => s
  let s := (s.vacate x).doneFibre t.fibre
  s.leftUnsettled unsettled

/-- `done` (R322). A stop that an engine command has left is taken before the send buffer is flushed: R207 and R322 do not
place it (DESIGN CHOICE, log 91). -/
def execDone (s : State) : Host.Outcome State Fault Refusal :=
  settle do
    let _ ← reclaimPoint s
    let _ ← checkDeferred s fun _ => true
    let s ← flush s
    .ok ((s.endRelease.advance 4).finish s.cur)

/-- `keep` (R323). -/
def execKeep (s : State) : Host.Outcome State Fault Refusal :=
  .next ((s.modSelf fun t => { t with keeps := t.keeps || t.payLen ≠ 0 }).advance 4)

/-! Creating fibres. -/

/-- HANDLER of a spawn word (R315). -/
def swHandler (w : Word) : BitVec 12 := BitVec.ofNat 12 (bits w 11 0)
/-- UNCONF of a spawn word. -/
def swUnconf (w : Word) : Bool := bit w 12
/-- PIN of a spawn word. -/
def swPin (w : Word) : Bool := bit w 13
/-- DETACH of a spawn word. -/
def swDetach (w : Word) : Bool := bit w 14
/-- TILE of a spawn word. -/
def swTile (w : Word) : BitVec 10 := BitVec.ofNat 10 (bits w 24 15)

/-- The address of a slot's dependence counter (R106, R324). -/
def counterAt (t : BitVec 10) (n : BitVec 12) : Nat := tileBase t.toNat + counterOff + 8 * n.toNat

/-- A fibre record that waits, as its creation leaves it (R62). -/
def Fibre.made (handler : BitVec 12) (conf pin detach : Bool) (region : BitVec 16) (parent arg time : Word)
    (creators : List Word) : Fibre :=
  { handler := handler, fstate := .waiting, conf := conf, pin := pin, cont := false, rclm := false, detach := detach,
    conth := 0, region := region, parent := parent, depctr := 0, arg := arg, refs := [], refBlocks := [],
    waitfut := 0, kept := none,
    spawnt := time, bound := none, creators := creators, group := 0, acquires := [], pending := none, settled := none,
    waitsCounter := false, park := none, fault := none, kvFault := none, runsOn := none }

/-- A future with one reference (R69). -/
def Future.made (conf : Bool) (fibre : Word) (detach : Bool) (region : BitVec 16) : Future :=
  { count := 1, fstat := .pending, conf := conf, group := false, result := 0, fibre := fibre, waiters := [], gleft := 0,
    gscope := 0, gsets := none, detach := detach, counter := none, members := [], region := region, released := true }

/-- The state with a fibre placed in a free slot of a tile that the device chooses; the answer is its future's
handle. -/
def State.placeFibre (s : State) (t : BitVec 10) (f : Fibre) : Word × State :=
  match s.pick (s.freeSlots t) with
  | (none, s) => (0, s)
  | (some n, s) =>
    let h := mkHandle t n (s.slot t n).gen 2
    let s := s.modSlot t n fun x =>
      { x with fibre := some f, future := some (Future.made f.conf (fibreHandle h) f.detach f.region) }
    (h, s.addLive f.region 1)

/-- A reference of the current activation recorded with its holder (R71, R211). -/
def State.hold (s : State) (holder fut : Word) : State :=
  (s.modFibre holder fun f => { f with refs := f.refs ++ [fut] }).modSelf fun t => { t with made := t.made ++ [(holder, fut)] }

/-- The record of an `fref` of the current activation put in place with its holder, once (R327). -/
def State.record (s : State) (holder fut : Word) : State :=
  if s.self.recording.isSome then s
  else (s.modFibre holder fun f => { f with refs := f.refs ++ [fut] }).modSelf fun t =>
    { t with recording := some (holder, fut) }

/-- An `fref` whose record is in place completes (R327): COUNT rises, and the activation has made the reference. -/
def State.join (s : State) (holder fut : Word) : State :=
  ((s.modFuture fut fun f => { f with count := f.count + 1 }).modSelf fun t =>
    { t with recording := none, made := t.made ++ [(holder, fut)] }).endLate holder

/-- An act of the current thread that records a reference for a holder waits while the holder's blocks have no room and
its home tile has no free block (R327). -/
def needBlock (s : State) (holder : Word) : Body :=
  match s.roomForRef holder with
  | some s => .ok s
  | none => .error (.wait .retest s)

/-- The room for a reference that a creation makes for the current fibre; a detached creation makes none (R327). -/
def needOwnBlock (s : State) (detach : Bool) : Body := if detach then .ok s else needBlock s s.me

/-- A new fibre of the current fibre with a spawn word and an argument: the record (R324). -/
def State.childOf (s : State) (w arg : Word) : Fibre :=
  Fibre.made (swHandler w) (!(swUnconf w || !s.confirmed)) (swPin w) (swDetach w) s.self.region s.me arg s.time
    (s.lineage s.me)

/-- A spawn is refused (R81, R324). -/
def State.spawnRefused (s : State) (home : BitVec 10) (h : BitVec 12) : Bool :=
  !(s.installed s.self.region home h) || decide (s.budget s.self.region ≤ s.live s.self.region) || !(s.hasSlot home)

/-- `spawn gd, ga` (R324). -/
def execSpawn (d a : BitVec 5) (s : State) : Host.Outcome State Fault Refusal :=
  settle do
    let w := s.g a
    let arg := s.g (pair a)
    let _ ← need s (bits w 63 25 = 0) .reservedField
    if s.spawnRefused (swTile w) (swHandler w) then .ok (s.putG d 0)
    else do
      let s ← needOwnBlock s (swDetach w)
      let (h, s) := s.placeFibre (swTile w) (s.childOf w arg)
      let s := if swDetach w then s else s.hold s.me h
      .ok ((s.makeReady h ⟨.first, swHandler w, 0, arg, 0⟩).putG d h)

/-- `fib.new gd, ga, gb` (R324). -/
def execFibNew (d a b : BitVec 5) (s : State) : Host.Outcome State Fault Refusal :=
  settle do
    let w := s.g a
    let arg := s.g (pair a)
    let n := (s.g b).toNat
    let _ ← need s (bits w 63 25 = 0) .reservedField
    let _ ← need s (decide (0 < n) && decide (n < 2 ^ 32)) .reservedField
    if s.spawnRefused (swTile w) (swHandler w) then .ok (s.putG d 0)
    else do
      let s ← needOwnBlock s (swDetach w)
      let (h, s) := s.placeFibre (swTile w) (s.childOf w arg)
      let pa := counterAt (swTile w) (hSlot h)
      let s := (s.pokeNat pa 8 n).modFibre (fibreHandle h) fun f => { f with depctr := wd pa, waitsCounter := true }
      let s := if swDetach w then s else s.hold s.me h
      .ok (s.putG d h)

/-- The index word of member i of a group, x varying fastest (R79). -/
def memberIndex (x y i : Nat) : Word := wd (i / (x * y) * 2 ^ 40 + i / x % y * 2 ^ 20 + i % x)

/-- A group is refused (R81): too large, beyond BUDGET, or a tile on which it would place a member or the completion
future has no handler or too few slots. A group with members over a launch scope without a tile is refused too
(DESIGN CHOICE, log 58). -/
def State.groupRefused (s : State) (tiles : List (BitVec 10)) (h : BitVec 12) (count : Nat) : Bool :=
  let n := tiles.length
  let used (t : BitVec 10) : Nat :=
    ((s.tile t).slots.filter fun x => x.2.fibre.isSome || x.2.future.isSome).length
  let share (i : Nat) : Nat := count / n + nb (decide (i < count % n))
  decide (2 ^ 24 < count) ||
  decide (s.budget s.self.region < s.live s.self.region + count) ||
  (decide (0 < count) && tiles.isEmpty) ||
  tiles.zipIdx.any (fun p =>
    decide (0 < share p.2) && (!(s.installed s.self.region p.1 h) ||
      decide (4096 < used p.1 + share p.2 + nb (p.1 = s.cur.tile)))) ||
  !(s.hasSlot s.cur.tile)

/-- The state with the completion future of a group placed in a slot of the issuing tile. -/
def State.placeGroup (s : State) (f : Future) : Word × State :=
  match s.pick (s.freeSlots s.cur.tile) with
  | (none, s) => (0, s)
  | (some n, s) =>
    let h := mkHandle s.cur.tile n (s.slot s.cur.tile n).gen 2
    (h, s.modSlot s.cur.tile n fun x => { x with future := some f })

/-- The dependence counter of a group (R325): none where its address is 0, else an aligned word of the issuing tile's own
array that may be read and written. -/
def groupCounter (s : State) (ctr : Word) : Except Stop (State × Option Nat) :=
  if ctr = 0 then .ok (s, none)
  else do
    let _ ← checkAligned s ctr 8
    let (s, e, pa) ← checkMapped s ctr 8 [.read, .write]
    let _ ← checkResident s ctr e 8
    if ownArray s.cur.tile pa then .ok (s, some pa) else stopAt s .rangeNone ctr

/-- The members of a group wait for its counter: it has one that is not zero (R79). -/
def State.groupWaits (s : State) (counter : Option Nat) : Bool :=
  match counter with
  | some pa => s.peekNat pa 8 ≠ 0
  | none => false

/-- The state in which the members of a group have been created on the tiles in turn, and made ready unless they wait
(R79, R80). Each acquires with the launch's sets whenever its first activation starts (R417). ARG of a member's record is its
index word, which its first activation gets as its argument; the ARG word of `spawn.g` stands nowhere (DESIGN CHOICE,
log 76). -/
def State.placeMembers (s : State) (g : Word) (sets : Sets) (child : Fibre) (x y count : Nat) (waits : Bool) : State :=
  let tiles := sets.tileList
  (List.range count).foldl (fun s i =>
    let (h, s) := s.placeFibre (tiles[i % tiles.length]?.getD 0)
      { child with arg := memberIndex x y i, group := g, detach := false, waitsCounter := waits, acquires := [sets] }
    let s := s.modFuture g fun f => { f with members := f.members ++ [h] }
    if waits then s else s.makeReady h ⟨.first, child.handler, 0, memberIndex x y i, 0⟩) s

/-- The state in which the completion future of an empty group that does not wait has resolved (R80). The launch has
released at its scope before (`State.launch`); with a counter that is not zero `State.releaseGroup` resolves it when the
counter reaches zero, for which each decrement has released its sender's writes. -/
def State.closeEmpty (s : State) (g : Word) (detach : Bool) : State :=
  let s := s.resolve g 0
  if detach then (s.dropRef g).tryFree g else s

/-- The completion future of a group (R79, R325). -/
def State.groupFuture (s : State) (detach conf : Bool) (count : Nat) (c : BitVec 4) (sets : Sets) (counter : Option Nat)
    (waits : Bool) : Future :=
  { Future.made conf 0 detach s.self.region with
      group := true, gleft := count, gscope := c, gsets := some sets, counter := counter, released := !waits }

/-- The launch of a group (R79, R80): the release at its scope, the completion future, its reference, and the members. Of an
empty group there are none, so that no fibre is created and LIVE stays, and the future resolves at once, or with its
counter. -/
def State.launch (s : State) (w arg : Word) (c : BitVec 4) (sets : Sets) (counter : Option Nat) (x y count : Nat) :
    Word × State :=
  let s := s.release sets
  let waits := s.groupWaits counter
  let child := s.childOf w arg
  let (g, s) := s.placeGroup (s.groupFuture (swDetach w) child.conf count c sets counter waits)
  let s := if swDetach w then s else s.hold s.me g
  let s := s.placeMembers g sets child x y count waits
  (g, if count = 0 ∧ !waits then s.closeEmpty g (swDetach w) else s)

/-- `spawn.g gd, ga, gb, sc` (R79 to R81, R325). -/
def execSpawnG (d a b : BitVec 5) (c : BitVec 4) (s : State) : Host.Outcome State Fault Refusal :=
  settle do
    let w := s.g a
    let arg := s.g (pair a)
    let xyz := s.g b
    let ctr := s.g (pair b)
    let _ ← need s (bits xyz 63 60 = 0) .reservedField
    let sets ← useScope s c
    let _ ← need s (bits w 63 15 = 0) .reservedField
    let (s, counter) ← groupCounter s ctr
    let x := bits xyz 19 0
    let y := bits xyz 39 20
    let count := x * y * bits xyz 59 40
    if s.groupRefused sets.tileList (swHandler w) count then .ok (s.putG d 0)
    else do
      let s ← needOwnBlock s (swDetach w)
      let (g, s) := s.launch w arg c sets counter x y count
      .ok (s.putG d g)

/-- `fib.dec ga, gb, sc` (R326). -/
def execFibDec (a b : BitVec 5) (c : BitVec 4) (s : State) : Host.Outcome State Fault Refusal :=
  settle do
    let h := s.g a
    let k := (s.g b).toNat
    let _ ← need s (handleForm h && (hKind h = 1 || hKind h = 2)) .handleInvalid
    let _ ← need s (decide (0 < k) && decide (k < 2 ^ 16)) .sendInvalid
    let sets ← useScope s c
    let _ ← checkHeld s ((s.fibre? h).isSome && s.inSubtree s.me h)
    let s ← buffer s ⟨h, s.g b, 0, c, 2, 0, 0, sets⟩
    .ok (s.advance 4)

/-- A future handle is well formed (R317). -/
def needFuture (s : State) (h : Word) : Except Stop Unit := need s (handleForm h && hKind h = 2) .handleInvalid

/-- A future that references, waits and confirmations may act on (R72). -/
def State.liveFuture (s : State) (h : Word) : Option Future :=
  match s.future? h with
  | some f => if f.count = 0 || f.fstat = .reclaimed then none else some f
  | none => none

/-- `fref ga, gb` (R327): the record goes to the holder first, and comes out again where the future is stale. -/
def execFref (a b : BitVec 5) (s : State) : Host.Outcome State Fault Refusal :=
  settle do
    let fut := s.g a
    let named := s.g b
    let _ ← needFuture s fut
    let _ ← need s (named = 0 || (handleForm named && hKind named = 1)) .handleInvalid
    let holder := if named = 0 then s.me else named
    let mine : Bool := match s.fibre? holder with
      | some f => f.region = s.self.region
      | none => false
    let _ ← need s mine .futureStale
    let _ ← checkHeld s ((s.fibre? fut).isSome && s.inSubtree s.me fut && s.inSubtree s.me holder)
    let live := s.liveFuture fut
    let s ← if s.self.recording.isSome then .ok s else needBlock s holder
    let s := s.record holder fut
    match live with
    | none => stopWith (s.unrecord s.cur) .futureStale
    | some f => if f.count = 2 ^ 24 - 1 then .error (.wait .retest s) else .ok ((s.join holder fut).advance 4)

/-- `fdrop ga` (R328). -/
def execFdrop (a : BitVec 5) (s : State) : Host.Outcome State Fault Refusal :=
  settle do
    let fut := s.g a
    let _ ← needFuture s fut
    let held : Bool := match s.fibre? s.me with
      | some f => f.refs.contains fut
      | none => false
    let _ ← need s held .notHolder
    let me := s.me
    let s := s.modSelf fun t => { t with made := removeFirst (fun r => r = (me, fut)) t.made }
    .ok ((s.endRef me fut).advance 4)

/-- A future and its fibre confirmed (R70, R99, R329). -/
def State.confirm (s : State) (fut : Word) : State :=
  let s := s.modFuture fut fun f => { f with conf := true }
  match s.fibre? fut with
  | none => s
  | some f =>
    let s := s.modFibre fut fun f => { f with conf := true }
    if f.park = some .speculation then s.unpark (fibreHandle fut) else s

/-- `fconfirm ga` (R329). -/
def execFconfirm (a : BitVec 5) (s : State) : Host.Outcome State Fault Refusal :=
  settle do
    let fut := s.g a
    let _ ← needFuture s fut
    let _ ← checkHeld s ((s.fibre? fut).isSome && s.inSubtree s.me fut)
    let _ ← need s (s.liveFuture fut).isSome .futureStale
    .ok ((s.confirm fut).advance 4)

/-- `fput ga, gb, sc` (R330). -/
def execFput (a b : BitVec 5) (c : BitVec 4) (s : State) : Host.Outcome State Fault Refusal :=
  settle do
    let fut := s.g a
    let _ ← needFuture s fut
    let _ ← checkHeld s (fut = futureHandle s.me)
    let _ ← need s (fut = futureHandle s.me) .fputForeign
    let sets ← useScope s c
    let s := s.release sets
    let running : Bool := match s.future? fut with
      | some f => f.fstat = .running
      | none => false
    let s := if running then s.resolve fut (s.g b) else s
    .ok (s.putP 7 running)

/-- `fget gd, ga` (R331). -/
def execFget (d a : BitVec 5) (s : State) : Host.Outcome State Fault Refusal :=
  settle do
    let _ ← reclaimPoint s
    let s ← flush s
    let fut := s.g a
    let _ ← needFuture s fut
    let resolved : Bool := match s.future? fut with
      | some f => f.fstat = .resolved
      | none => false
    if fut = futureHandle s.me && !resolved then .ok (s.putP 7 false)
    else match s.liveFuture fut with
      | none => stopWith s .futureStale
      | some f =>
        if f.fstat = .resolved then .ok (((s.acquire setsDevice).setP 7 true).putG d f.result)
        else .error (.wait .retest s)

/-- `fon ga, gb` (R332). -/
def execFon (a b : BitVec 5) (s : State) : Host.Outcome State Fault Refusal :=
  settle do
    let _ ← reclaimPoint s
    let s ← flush s
    let fut := s.g a
    let h : BitVec 12 := BitVec.ofNat 12 (bits (s.g b) 11 0)
    let _ ← needFuture s fut
    let _ ← need s (bits (s.g b) 63 12 = 0 && s.installed s.self.region (hTile s.me) h) .sendInvalid
    let busy : Bool := match s.fibre? s.me with
      | some f => f.cont
      | none => false
    let _ ← need s (!busy) .contBusy
    let _ ← need s (s.liveFuture fut).isSome .futureStale
    let me := s.me
    let s := s.modFibre me fun f => { f with cont := true, conth := h, waitfut := fut, settled := none }
    let settled : Bool := match s.liveFuture fut with
      | some f => f.fstat = .resolved
      | none => false
    let s := if settled then s.wakeWaiter fut me
      else s.modFuture fut fun f => { f with waiters := f.waiters ++ [fibreHandle me] }
    .ok ((s.modSelf fun t => { t with fons := true }).advance 4)

end Sys2Proof.Machine
end

