-- ==== Sys2Proof/Machine/Transform.lean ====
section
/-! DEFINITION. The payload transforms (R122 to R124) with the poison that R425 gives them, as `cpy.t`, `promo` and the
network interface apply them. -/

namespace Sys2Proof.Machine

/-- What a transform has come to: its output, and why it ended early, as LWHY of R124 (0 if it did not). -/
abbrev Transformed := List EByte × Nat

/-- The 256 bytes of a kind 1 group: word i of the output is the next 8 input bytes where bit i of the mask is 1. -/
def spread (mask : Nat) : Nat → Nat → List EByte → List EByte
  | 0, _, _ => []
  | n + 1, i, l =>
    if mask.testBit i then l.take 8 ++ spread mask n (i + 1) (l.drop 8)
    else List.replicate 8 (0, false) ++ spread mask n (i + 1) l

/-- Kind 1 (R123): groups of a mask and its words, at most 64 of them. `n` bounds the groups, `done` counts them.
A group past the 64th that is cut short as well is an error of the second kind: LWHY 2 (DESIGN CHOICE, log 77). -/
def decompress : Nat → Nat → List EByte → Transformed
  | 0, _, _ => ([], 0)
  | n + 1, done, l =>
    if l.isEmpty then ([], 0)
    else
      let m := eNat (l.take 4)
      let size := 8 * ((List.range 32).filter fun i => m.1.testBit i).length
      let words := (l.drop 4).take size
      if l.length < 4 + size || m.2 then ([], 2)
      else if 64 ≤ done then ([], 3)
      else
        let bad := words.any (·.2)
        let out := (spread m.1 32 0 words).map fun b => (b.1, bad)
        let r := decompress n (done + 1) (l.drop (4 + size))
        (out ++ r.1, r.2)

/-- Kind 2 (R123): FP8 to BF16. -/
def expandFp8 (opt : Nat) (l : List EByte) : List EByte :=
  let f := if opt = 0 then e4m3 else e5m2
  l.flatMap fun b => eBytes 2 (bf16.convert .rne true (f.value b.1.toNat), b.2)

/-- The BF16 code of an E2M1 element under a block scale (R123). -/
def mxElem (scale x : Nat) : Nat :=
  if scale = e8m0NaN then 0x7FC0 else bf16.pack .rne ((e2m1.value x).scale ((scale : Int) - 127))

/-- A group of 136 bytes as 256 BF16 values (R123). A poisoned byte poisons what the group gives (R425). -/
def mxGroup (l : List EByte) : List EByte :=
  let bad := l.any (·.2)
  let scales := (l.take 8).map fun b => b.1.toNat
  (scales.zip (chunks 16 (l.drop 8))).flatMap fun p =>
    (eElems 4 p.2).flatMap fun x => eBytes 2 (mxElem p.1 x.1, bad)

/-- A head vector rotated (R123, R346). A poisoned byte poisons the whole of it (R425). -/
def rotateHead (opt npair : Nat) (delta : Int) (l : List EByte) : List EByte :=
  let w := if opt = 0 then 16 else 32
  let f := if opt = 0 then bf16 else fp32
  let bad := l.any (·.2)
  (rope f npair delta ((eElems w l).map (·.1))).flatMap fun x => eBytes (w / 8) (x, bad)

/-- Whole input units of a size, each given to a function; LWHY is 1 where the input is not a whole number of them. -/
def byUnits (size : Nat) (f : List EByte → List EByte) (l : List EByte) : Transformed :=
  ((chunks size (l.take (l.length / size * size))).flatMap f, if l.length % size = 0 then 0 else 1)

/-- The bytes of an input unit of a transform of kind 4 (R123). -/
def headBytes (x : Word) : Nat := 2 * (xNpair x + 1) * (if xOpt x = 0 then 2 else 4)

/-- PARAM of kind 4, a signed delta. -/
def xDelta (x : Word) : Int := signedOf 24 (xParam x)

/-- The transform of kinds 0 to 4 (R123, R124). -/
def transform (x : Word) (l : List EByte) : Transformed :=
  match xKind x with
  | 1 => decompress (l.length + 1) 0 l
  | 2 => (expandFp8 (xOpt x) l, 0)
  | 3 => byUnits 136 mxGroup l
  | 4 => byUnits (headBytes x) (rotateHead (xOpt x) (xNpair x + 1) (xDelta x)) l
  | _ => (l, 0)

/-- The output length that follows from the input length, for the kinds other than 1 (R389). -/
def outputLength (x : Word) (n : Nat) : Nat :=
  match xKind x with
  | 1 => if 4 ≤ n then 256 else 0
  | 2 => 2 * n
  | 3 => n / 136 * 512
  | 4 => n / headBytes x * headBytes x
  | _ => n

/-- The state in which a transform error has been recorded in a tile's NISTAT (R124). -/
def State.recordError (s : State) (t : BitVec 10) (kind why : Nat) : State :=
  if why = 0 then s
  else s.modTile t fun x => { x with nerr := x.nerr + 1, lkind := BitVec.ofNat 4 kind, lwhy := BitVec.ofNat 4 why }

end Sys2Proof.Machine
end

