-- ==== Sys2Proof/Machine/Frames.lean ====
section
/-! DEFINITION. Contexts and attention frames (R187 to R205, R364 to R367, R426): `ctx.bind`, the frame acts `fpush`,
`farg`, `fpro`, `fpop` and `ffork`, and `finfo`. -/

namespace Sys2Proof.Machine

/-! Naming a context (R364 steps 2, 4, 5 and 7). -/

/-- Bits [63:56] of a context handle are 0 (R364 step 2). -/
def needCtxForm (s : State) (h : Word) : Except Stop Unit := need s (bits h 63 56 = 0) .handleInvalid

/-- Bytes at a physical address lie in some tile's scratchpad part. -/
def State.inSomeScratchpad (s : State) (pa n : Nat) : Bool :=
  arrayBase ≤ pa && pa < arrayEnd && s.inScratchpad (BitVec.ofNat 10 ((pa - arrayBase) / 0x400000)) pa n

/-- The CXD that a handle names, by its physical address, after steps 4 and 5 of R364. The thread's earlier accesses to
its home are performed before those of the act (R161). -/
def openCtx (s : State) (h : Word) (k : Kind) : Except Stop (State × Nat) := do
  let va := wd (h.toNat / 256 * 256)
  let (s, e) ← causeAt va (s.translate s.cur.tile s.self.region (s.lineage s.me) va 256 k)
  let pa := e.phys va.toNat
  if !s.inSomeScratchpad pa 256 then stopAt s .rangeNone va
  else do
    let s := s.drainHome pa
    let _ ← need s (s.cgen pa = bits h 7 0 && s.cstate pa ≠ 0) .ctxStale
    .ok (s, pa)

/-- The slab of a context is PRIVATE to the subtree of the current fibre (R78). -/
def State.slabPrivate (s : State) (cxd : Nat) : Bool :=
  let l := s.slabLeaves cxd
  !l.isEmpty && l.all fun x => s.mayWrite x.entry

/-- Step 7 of R364 for the acts that R78 allows only over a PRIVATE slab. -/
def checkSlab (s : State) (cxd : Nat) : Except Stop Unit := checkHeld s (s.slabPrivate cxd)

/-- A stop with PARTIAL_RESIDENCY that parks until the context returns to CSTATE 1 (R99, R190). -/
def parkCtx {α : Type} (s : State) (cxd : Nat) (h : Word) : Except Stop α :=
  .error (.park .partialResidency (.context cxd) h s)

/-- The reader count of the epoch that is not the current one (R194, R196). -/
def State.otherReaders (s : State) (cxd : Nat) : Nat := s.creaders cxd (1 - s.epoch cxd)

/-- The index of the top frame. -/
def State.topFrame (s : State) (cxd : Nat) : Nat := s.cdepth cxd - 1

/-- The position after the last that frame k may hold: START of the frame above. -/
def State.frameEnd (s : State) (cxd k : Nat) : Nat := s.fstart cxd (k + 1)

/-! `ctx.bind` (R366). -/

/-- The state in which the current fibre is bound to a context instead of the one it was bound to. -/
def State.bindTo (s : State) (h : Word) (cxd : Nat) : State :=
  let old := match s.fibre? s.me with
    | some f => f.bound
    | none => none
  let s := (s.setCx cxd 6 63 48 (s.binds cxd + 1)).modFibre s.me fun f => { f with bound := some (h, cxd) }
  match old with
  | some (_, c) => (s.setCx c 6 63 48 (s.binds c - 1)).releaseCtx c
  | none => s

/-- The handle of the context bound to the current fibre, or 0. -/
def State.boundHandle (s : State) : Word :=
  match s.fibre? s.me with
  | some f => match f.bound with
    | some b => b.1
    | none => 0
  | none => 0

/-- `ctx.bind ga`. A first binding needs an entry in the fibre's reference blocks, and waits while there is none (R327). -/
def execCtxBind (a : BitVec 5) (s : State) : Host.Outcome State Fault Refusal :=
  settle do
    let h := s.g a
    if h = 0 then .ok ((s.acqrel14 fun s => s.unbind s.me).advance 4)
    else do
      let _ ← needCtxForm s h
      let (s, c) ← openCtx s h .read
      let _ ← checkSlab s c
      let s ← if s.boundHandle = 0 then needBlock s s.me else .ok s
      .ok ((s.acqrel14 fun s => if s.boundHandle = h then s else s.bindTo h c).advance 4)

/-! `fpush`, `farg` and `fpro` (R189, R190). -/

/-- Frame serials on the stack. -/
def State.serials (s : State) (c : Nat) : List Nat := (List.range (s.cdepth c)).map fun k => s.fser c k

/-- The serial from n on that is neither 0 nor held by a frame on the stack (R189). -/
def freeSerial (held : List Nat) : Nat → Nat → Nat
  | 0, n => n
  | f + 1, n => if n = 0 || held.contains n then freeSerial held f ((n + 1) % 65536) else n

/-- The state with a frame pushed (R190, R414). FID is PFID, as the table of R189 gives it at the push, and every field that
R189 gives no other value is zero; the words of R190 alone would make FID zero (DEDUCED, log 95). -/
def State.pushFrame (s : State) (c : Nat) : State :=
  let k := s.cdepth c
  let held := s.serials c
  let ser := freeSerial held 18 (s.nser c)
  let pfid := s.ffid c (k - 1)
  let s := s.poke (c + 8 * frameWord k 0) (leBytes 8 (s.ccursor c + ser * 2 ^ 48) ++ leBytes 40 0 ++
    leBytes 8 pfid.toNat ++ leBytes 8 pfid.toNat)
  (s.setCx c 0 63 48 (freeSerial (ser :: held) 18 ((ser + 1) % 65536))).setCx c 0 6 2 (k + 1)

/-- `fpush ga`. -/
def execFpush (a : BitVec 5) (s : State) : Host.Outcome State Fault Refusal :=
  settle do
    let h := s.g a
    let _ ← needCtxForm s h
    let (s, c) ← openCtx s h .write
    let _ ← checkSlab s c
    if s.cstate c = 2 || s.cstate c = 3 then parkCtx s c h
    else do
      let _ ← need s (s.cdepth c < 16) .frameOverflow
      if s.cvalid c ≠ s.ccursor c then .error (.wait .retest (s.release setsDevice))
      else .ok ((s.acqrel14 fun s => s.pushFrame c).advance 4)

/-- The checks of an argument span of frame k (R190). -/
def State.spanOk (s : State) (c k start len : Nat) : Bool :=
  s.fnarg c k < 4 && s.ccursor c = s.fstart c k && s.cdepth c ≠ 1 && len ≠ 0 && start + len ≤ s.fstart c k &&
    start + len ≤ s.cvalid c &&
    (List.range k).any fun j => s.fstart c j ≤ start && start + len ≤ s.frameEnd c j

/-- `farg ga, gb`. -/
def execFarg (a b : BitVec 5) (s : State) : Host.Outcome State Fault Refusal :=
  settle do
    let h := s.g a
    let start := (s.g b).toNat
    let len := (s.g (pair b)).toNat
    let _ ← needCtxForm s h
    let (s, c) ← openCtx s h .write
    let _ ← checkSlab s c
    let k := s.topFrame c
    let _ ← need s (s.fseal c k = 0) .frameSharedWrite
    let _ ← need s (s.spanOk c k start len) .argSpanInvalid
    .ok ((s.acqrel14 fun s =>
      let n := s.fnarg c k
      (s.pokeNat (c + 8 * frameWord k (2 + n)) 8 (start + len * 2 ^ 32)).setCx c (frameWord k 1) 2 0 (n + 1)).advance 4)

/-- `fpro ga`. -/
def execFpro (a : BitVec 5) (s : State) : Host.Outcome State Fault Refusal :=
  settle do
    let h := s.g a
    let _ ← needCtxForm s h
    let (s, c) ← openCtx s h .write
    let _ ← checkSlab s c
    let k := s.topFrame c
    let n := s.ccursor c - s.fstart c k
    let _ ← need s (s.fseal c k = 0) .frameSharedWrite
    let _ ← need s (s.fproset c k = 0 && n ≤ 65535) .argSpanInvalid
    .ok ((s.acqrel14 fun s => (s.setCx c (frameWord k 0) 47 32 n).setCx c (frameWord k 1) 4 4 1).advance 4)

/-! Positions of the slab (R191). -/

/-- The slab address of chunk and index of a position. -/
def State.chunkAt (s : State) (c p : Nat) : Nat := s.slab c + (p - s.basepos c) / 256 * s.chunkBytes c

/-- The virtual address of meta(p). -/
def State.metaAt (s : State) (c p : Nat) : Nat := s.chunkAt c p + 8 * ((p - s.basepos c) % 256)

/-- The virtual address of the key row of a position and layer. -/
def State.keyAt (s : State) (c p l : Nat) : Nat :=
  s.chunkAt c p + 2048 + l * 256 * (s.rowK c + s.rowV c) + (p - s.basepos c) % 256 * s.rowK c

/-- The virtual address of the value row of a position and layer. -/
def State.valueAt (s : State) (c p l : Nat) : Nat :=
  s.chunkAt c p + 2048 + l * 256 * (s.rowK c + s.rowV c) + 256 * s.rowK c + (p - s.basepos c) % 256 * s.rowV c

/-- Where the current thread's tile finds a byte of a slab: its table or the tree translates the address (R131, R201). -/
def State.slabAt (s : State) (va : Nat) : Nat :=
  match s.lookup s.cur.tile s.self.region va with
  | .ok (_, e) => s.forwarded va (e.phys va)
  | .error _ => 0

/-- Bytes of a slab at their homes, as the current thread reads them, line by line (R201). -/
def State.slabRead (s : State) (va n : Nat) : List EByte := (linePieces va n).flatMap fun q => s.peekE (s.slabAt q.1) q.2

/-- The state after the homes of a slab's bytes have seen a read of the current thread (R141, R227). -/
def State.slabSeen (s : State) (va n : Nat) : State :=
  (linePieces va n).foldl (fun s q =>
    (s.drainStep s.cur.tile (s.slabAt q.1) q.2).watched s.issuer .rd (s.slabAt q.1) q.2) s

/-- The state in which a read of bytes of a slab has consumed their use-once lines (R156). -/
def State.slabUsed (s : State) (va n : Nat) : State :=
  (linePieces va n).foldl (fun s q => s.consumeOnce (s.slabAt q.1) q.2) s

/-- The state with bytes of a slab written at their homes by the current thread. -/
def State.slabWrite (s : State) (va : Nat) (bs : List EByte) : State :=
  (linePieces va bs.length).foldl (fun s q =>
    let pa := s.slabAt q.1
    let s := (s.drainStep s.cur.tile pa q.2).normalise pa q.2
    (s.pokeE pa ((bs.drop (q.1 - va)).take q.2)).watched s.issuer .wr pa q.2) s

/-- The bytes of a position that some layers use: its metadata word, and its rows of those layers. -/
def State.tokenSpans (s : State) (c p : Nat) (layers : List Nat) : List (Nat × Nat) :=
  (s.metaAt c p, 8) :: layers.flatMap fun l => [(s.keyAt c p l, s.rowK c), (s.valueAt c p l, s.rowV c)]

/-- Bytes of a slab as the current thread accesses them, in pieces of one line: each is translated, lies where a range may
reach, and is RESIDENT, or the act stops with the cause of the access (R106, R131, R154). -/
def slabSpans (s : State) (k : List Kind) (va n : Nat) : Except Stop (State × List Span) :=
  (linePieces va n).foldlM (fun (p : State × List Span) q => do
    let (s, e, pa) ← checkMapped p.1 (wd q.1) q.2 k
    let _ ← checkResident s (wd q.1) e q.2
    .ok (s, p.2 ++ [⟨q.1, q.2, e, pa⟩])) (s, [])

/-- Every one of several intervals of a slab may be accessed so. -/
def needSlab (s : State) (k : List Kind) : List (Nat × Nat) → Except Stop State
  | [] => .ok s
  | x :: r => do
    let (s, _) ← slabSpans s k x.1 x.2
    needSlab s k r

/-! Identities of frames (R205). -/

/-- FNV-1a over bytes (R205). -/
def fnv (h : Nat) (bs : List Byte) : Nat := bs.foldl (fun h b => (h ^^^ b.toNat) * 0x100000001B3 % 2 ^ 64) h

/-- The state with the FID of a frame extended by the TOKID of its position p; the first position of a frame starts
the hash with PFID. -/
def State.extendFid (s : State) (c k p tok : Nat) : State :=
  let h := if p = s.fstart c k then fnv 0xCBF29CE484222325 (leBytes 8 (s.peekNat (c + 8 * frameWord k 6) 8))
    else (s.ffid c k).toNat
  s.pokeNat (c + 8 * frameWord k 7) 8 (fnv h (leBytes 4 tok))

/-! `fpop` (R196, R197). -/

/-- A key row re-rotated by a position difference: whole heads, as transform kind 4 (R123, R197). What comes from a poisoned
unit stays poisoned (DESIGN CHOICE, log 96). -/
def State.rotateKeys (s : State) (c : Nat) (delta : Int) (row : List EByte) : List EByte :=
  (chunks (s.cdim c * kvBytes (s.ktag c)) row).flatMap (rotateHead (if s.ktag c = 1 then 1 else 0) (s.cdim c / 2) delta)

/-- The state with the token of one position moved to another, into frame k (R197). A poisoned row or word stops nothing: it
is moved with its poison, and its TOKID counts as its bits stand (DESIGN CHOICE, log 96). -/
def State.moveToken (s : State) (c k old new : Nat) : State :=
  let s := (List.range (s.clayers c + 1)).foldl (fun s l =>
    let s := (s.slabSeen (s.keyAt c old l) (s.rowK c)).slabSeen (s.valueAt c old l) (s.rowV c)
    let key := s.rotateKeys c ((new : Int) - old) (s.slabRead (s.keyAt c old l) (s.rowK c))
    let val := s.slabRead (s.valueAt c old l) (s.rowV c)
    (s.slabWrite (s.keyAt c new l) key).slabWrite (s.valueAt c new l) val) s
  let s := s.slabSeen (s.metaAt c old) 8
  let tok := (s.slabRead (s.metaAt c old) 8).take 4
  let n := (eNat tok).1
  let s := s.slabWrite (s.metaAt c new) (eBytes 8 (n + (s.clayers c + 1) * 2 ^ 32 + s.fser c k * 2 ^ 40, tok.any (·.2)))
  s.extendFid c k new n

/-- The publication of a pop (R196 step 7). -/
def State.publishPop (s : State) (c k len : Nat) : State :=
  let new := s.fstart c k + len
  let ep := s.epoch c
  let old := s.ccursor c
  let s := ((((s.setCx c 0 6 2 k).setCx c 3 31 0 new).setCx c 2 31 0 new).setCx c 3 63 32 old).setCx c 0 1 0 1
  let s := s.setCx c 0 12 12 (1 - ep)
  let s :=
    if s.self.readers.contains (c, ep = 1) then
      let s := (s.setReaders c ep (s.creaders c ep - 1)).setReaders c (1 - ep) (s.creaders c (1 - ep) + 1)
      s.modSelf fun t => { t with readers := t.readers.map fun r => if r = (c, decide (ep = 1)) then (c, decide (ep ≠ 1)) else r }
    else s
  s.unparkContext c

/-- The tokens of a pop's result moved down into the frame below (R197). The pop is one read of the use-once lines of
their old places (R156). -/
def State.moveTokens (s : State) (c k old new n : Nat) : State :=
  let layers := List.range (s.clayers c + 1)
  let s := (List.range n).foldl (fun s i => s.moveToken c k (old + i) (new + i)) s
  ((List.range n).flatMap fun i => s.tokenSpans c (old + i) layers).foldl (fun s x => s.slabUsed x.1 x.2) s

/-- `fpop ga, gb`. The move and the publication are one step here. -/
def execFpop (a b : BitVec 5) (s : State) : Host.Outcome State Fault Refusal :=
  settle do
    let h := s.g a
    let rs := (s.g b).toNat
    let rl := (s.g (pair b)).toNat
    let _ ← needCtxForm s h
    let (s, c) ← openCtx s h .write
    let _ ← checkSlab s c
    let k := s.topFrame c
    if s.cstate c = 2 then parkCtx s c h
    else do
      let _ ← need s (s.cdepth c ≠ 1 && s.seald c ≤ k) .frameUnderflow
      let _ ← need s (s.fseal c k = 0) .frameSharedWrite
      let _ ← need s (s.fstart c k ≤ rs && rs + rl ≤ s.ccursor c && rl ≤ 2 ^ 20) .resultSpanInvalid
      if s.cvalid c ≠ s.ccursor c || s.otherReaders c ≠ 0 then .error (.wait .retest (s.release setsDevice))
      else do
        let first := s.fstart c k
        let layers := List.range (s.clayers c + 1)
        let s ← needSlab s [.read] ((List.range rl).flatMap fun i => s.tokenSpans c (rs + i) layers)
        let s ← needSlab s [.write] ((List.range rl).flatMap fun i => s.tokenSpans c (first + i) layers)
        .ok ((s.acqrel14 fun s => (s.moveTokens c (k - 1) rs first rl).publishPop c k rl).advance 4)

/-! `ffork` (R202 to R204). -/

/-- The state with the frames of a context sealed (R202 step 1). -/
def State.sealFrames (s : State) (c : Nat) : State :=
  if s.fseal c (s.topFrame c) = 1 then s
  else
    let n := s.cdepth c
    let s := (List.range n).foldl (fun s k => s.setCx c (frameWord k 1) 3 3 1) s
    let s := s.setCx c 0 17 13 n
    let r := s.ctxRegion c
    ((s.slabLeaves c).filter fun l => l.entry.priv).foldl (fun s l =>
      let e := { l.entry with priv := false, owner := 0, gen := l.entry.gen + 1 }
      (s.writeLeaf l.addr e).dropEntries (s.treeOf r) setsDevice s.cur.tile e.vbase e.limit) s

/-- Free context slots of a tile's context area: offset and slab slot, lowest first (R204, R426). -/
def State.freeCtxSlot (s : State) (r : BitVec 16) (t : BitVec 10) : Option CtxSlot :=
  match s.region? r with
  | none => none
  | some x =>
    best (fun a b => decide (a.cxd < b.cxd))
      (x.ctxs.filter fun y => !y.loader && ctxHome y.cxd = t && s.cstate y.cxd = 0 &&
        !(s.releases.any fun z => z.freed = some y.cxd))

/-- The entry of a new slab of a fork (R188, R202), of GEN 0 (DESIGN CHOICE, log 75). -/
def slabEntry (vbase size : Nat) (run : Run) (owner : Word) : RangeEntry :=
  { vbase := vbase, limit := vbase + size, offset := wd (run.base + 2 ^ 64 - vbase), permR := true, permW := true,
    permX := false, priv := true, shared := false, cow := false, vol := false, tiered := false, forwarding := false,
    gen := 0, fscope := 0, rtag := 0, owner := owner, fbase := 0, foff := 0, btier := 0, baddr := 0 }

/-- The state with the CXD and the frame records of a child written (R202). -/
def State.writeChild (s : State) (p : Nat) (ph : Word) (x : CtxSlot) (slab gen : Nat) (owner : Word) : State :=
  let c := x.cxd
  let base := s.ccursor p
  let w0 := setBits (setBits (setBits (s.peekNat p 8) 1 0 1) 11 7 8) 12 12 0
  let w0 := setBits (setBits w0 43 43 0) 47 44 (s.chain p + 1)
  let frames := s.peek (p + 256) (64 * s.cdepth p)
  s.poke c (leBytes 8 w0 ++ leBytes 8 slab ++ leBytes 8 base ++ leBytes 8 base ++ leBytes 8 0 ++ leBytes 8 ph.toNat ++
    leBytes 8 base ++ leBytes 8 owner.toNat ++ leBytes 8 gen ++ leBytes 184 0 ++ frames ++ leBytes (1024 - frames.length) 0)

/-- A child of a context created (R202 step 2): its handle, or the null handle where the store room, the tile or the
tree refuses. An error is the state in which the fork waits for a compaction. The context area and the slab window are those
of the parent context's region, and a slab that would pass its slot, or meet another range of the tree, is refused as the
store room refuses (DESIGN CHOICE, log 83). -/
def State.forkCtx (s : State) (p : Nat) (ph : Word) : Except State (Word × State) :=
  let t := s.cur.tile
  let r := s.ctxRegion p
  let d := dieOf t
  let k := s.slabOrder p 8
  match s.newRun d k with
  | .later s => .error s
  | .refused s => .ok (0, s)
  | .given run s' =>
    match s'.freeCtxSlot r t, s'.region? r with
    | some x, some y =>
      let vbase := y.slabwin + x.slabSlot * 2 ^ y.slablog
      let size := 2 ^ k * 65536
      let e := slabEntry vbase size run (fibreHandle s'.me)
      if 2 ^ y.slablog < size || ((s'.leaves r).any fun l => l.entry.overlaps e) then .ok (0, s'.giveRun d run)
      else match s'.addRange r e 0 with
        | none => .ok (0, (s'.giveRun d run).refuseNode)
        | some s =>
          let gen := if s.cgen x.cxd = 0 then 1 else s.cgen x.cxd
          let s := s.writeChild p ph x vbase gen (fibreHandle s.me)
          let s := s.setCx p 6 47 32 (s.cforks p + 1)
          let s := s.modCtxSlot x.cxd fun z => { z with slab := [(d, run)], parent := p }
          .ok (wd (windowBase + (x.cxd - arrayBase) + gen), s)
    | _, _ => .ok (0, s'.giveRun d run)

/-- `ffork gd, ga`. -/
def execFfork (d a : BitVec 5) (s : State) : Host.Outcome State Fault Refusal :=
  settle do
    let h := s.g a
    let _ ← needCtxForm s h
    let (s, c) ← openCtx s h .write
    let _ ← checkSlab s c
    let _ ← need s (s.chain c ≠ 15) .frameOverflow
    if s.cstate c = 2 then parkCtx s c h
    else if s.cvalid c ≠ s.ccursor c then .error (.wait .retest (s.release setsDevice))
    else match ((s.release setsDevice).sealFrames c).forkCtx c h with
      | .error s => .error (.wait .retest s)
      | .ok (ch, s) => .ok ((s.acquire setsDevice).putG d ch)

/-! `finfo` (R367). -/

/-- What `finfo` reads of a context. -/
def State.ctxInfo (s : State) (c sel : Nat) : Word :=
  match sel with
  | 0 => s.peekWord c
  | 1 => wd (s.cvalid c)
  | 2 => s.peekWord (c + 24)
  | 3 => s.ffid c (s.topFrame c)
  | 4 => s.peekWord (c + 8 * frameWord (s.topFrame c) 0)
  | 5 => s.peekWord (c + 48)
  | _ => s.parentcx c

/-- What `finfo` reads of the issuing fibre. -/
def State.fibreInfo (s : State) (sel : Nat) : Word :=
  if sel = 7 then s.boundHandle
  else match s.fibre? s.me with
    | some f => if sel = 8 then f.word0 else f.parent
    | none => 0

/-- `finfo gd, ga, #sel`: an acquire at `sc14`. -/
def execFinfo (d a : BitVec 5) (sel : BitVec 4) (s : State) : Host.Outcome State Fault Refusal :=
  settle do
    let n := sel.toNat
    let _ ← need s (n < 10 && (n < 7 || a = 0)) .reservedField
    if n < 7 then do
      let h := s.g a
      let _ ← needCtxForm s h
      let (s, c) ← openCtx s h .read
      .ok ((s.acquire setsDevice).putG d (s.ctxInfo c n))
    else .ok ((s.acquire setsDevice).putG d (s.fibreInfo n))

end Sys2Proof.Machine
end

