-- ==== Sys2Proof/Machine/Matrix.lean ====
section
/-! DEFINITION. Tile and matrix commands (R355 to R363): the checks at issue, and what each command does when it runs
(R242, R359 to R363, R425). -/

namespace Sys2Proof.Machine

/-- What a command does when it runs: the state, and whether it completed. -/
abbrev Effect := Except EStop (State × Bool)

/-- The width of the elements of a tile register by their tag: bytes for raw (R357, R359). -/
def tileWidth (tag : BitVec 4) : Nat := if tag = 0 then 8 else tagWidth tag

/-- The shape word that a tile load sets (R357). -/
def shapeOf (tag : BitVec 4) : BitVec 32 := BitVec.ofNat 32 (127 + 1024 / tileWidth tag * 2 ^ 8)

/-- The carve-out provides a tile register; an index beyond it is a reserved value (R114, R258, R259 step 3). -/
def needTreg (s : State) (r : BitVec 4) : Except Stop Unit :=
  need s (decide (r.toNat < (s.tile s.cur.tile).tregs.toNat)) .reservedField

/-- The carve-out provides an accumulator; an index beyond it is a reserved value (R114, R258, R259 step 3). -/
def needAcc (s : State) (r : BitVec 2) : Except Stop Unit :=
  need s (decide (r.toNat < (s.tile s.cur.tile).accs.toNat)) .reservedField

/-- The interval of a tile register of the current thread. -/
def State.treg (s : State) (r : BitVec 4) : Nat × Nat := (s.tile s.cur.tile).tregInterval s.cur.thread r

/-- The interval of an accumulator of the current thread. -/
def State.acc (s : State) (r : BitVec 2) : Nat × Nat := (s.tile s.cur.tile).accInterval s.cur.thread r

/-- `tld` and `tld.t` at issue (R359). -/
def issueTld (i : Instr) (d : BitVec 4) (a : BitVec 5) (f : BitVec 4) (s : State) : Body := do
  let _ ← needTreg s d
  let _ ← need s (f ≠ tagAcc48 && f ≠ tagMask) .formatOperand
  let _ ← commandPoint s ctxMatrix
  let va := s.g a
  let _ ← checkAligned s va 128
  let (s, x) ← matrixOperand s va 16384 .read
  let s := s.enterCmd { s.newCmd i ctxMatrix with
    opa := va, tags := [f], reads := ownIntervals s.cur.tile [x], writes := [s.treg d] }
  .ok ((s.modSelf fun t => t.wtile d f (shapeOf f)).advance 4)

/-- `tld td, [ga], fmt` (R359). -/
def execTld (d : BitVec 4) (a : BitVec 5) (f : BitVec 4) (s : State) : Host.Outcome State Fault Refusal :=
  settle (issueTld (.tld d a f) d a f s)

/-- `tld.t td, [ga], fmt` (R359). -/
def execTldT (d : BitVec 4) (a : BitVec 5) (f : BitVec 4) (s : State) : Host.Outcome State Fault Refusal :=
  settle (issueTld (.tldT d a f) d a f s)

/-- `tld` as it runs: memory row r becomes register row r; a failed translation ends it at the bytes that it read. -/
def runTld (t : BitVec 10) (c : Cmd) (d : BitVec 4) (s : State) : Effect := do
  let s ← ready t c .read c.opa 16384 s
  let (s, bs, ok) ← readSome t c c.opa 16384 s
  .ok (s.setRegBytes t ((s.tile t).tregOff c.thr d.toNat) bs, ok)

/-- The rows of a transposed load: element k of row j is element j of memory row k, or the old element where memory row
k was not read. -/
def transposed (w : Nat) (new old : List EElem) : List EElem :=
  let nk := 1024 / w
  let n := new.toArray
  old.zipIdx.map fun p => n[p.2 % nk * 128 + p.2 / nk]?.getD p.1

/-- `tld.t` as it runs. -/
def runTldT (t : BitVec 10) (c : Cmd) (d : BitVec 4) (s : State) : Effect := do
  let s ← ready t c .read c.opa 16384 s
  let (s, bs, ok) ← readSome t c c.opa 16384 s
  let w := match c.tags with
    | f :: _ => tileWidth f
    | [] => 8
  let off := (s.tile t).tregOff c.thr d.toNat
  let rows := transposed w (eElems w bs) (eElems w (s.regBytes t off 16384))
  .ok (s.setRegBytes t off (eJoin w rows), ok)

/-- `tst [ga], td` (R360). -/
def execTst (d : BitVec 4) (a : BitVec 5) (s : State) : Host.Outcome State Fault Refusal :=
  settle do
    let _ ← needTreg s d
    let _ ← commandPoint s ctxMatrix
    let va := s.g a
    let _ ← checkAligned s va 128
    let (s, x) ← matrixOperand s va 16384 .write
    let _ ← checkWrites s [x]
    let s := s.enterCmd { s.newCmd (.tst d a) ctxMatrix with
      opa := va, reads := [s.treg d], writes := ownIntervals s.cur.tile [x] }
    .ok (s.advance 4)

/-- `tst` as it runs. -/
def runTst (t : BitVec 10) (c : Cmd) (d : BitVec 4) (s : State) : Effect := do
  let s ← ready t c .write c.opa 16384 s
  let s ← writeAll t c c.opa (s.regBytes t ((s.tile t).tregOff c.thr d.toNat) 16384) s
  .ok (s, true)

/-! Matrix multiply. -/

/-- The tags that `mma` accepts (R361). -/
def mmaTags : List (BitVec 4) := [6, 4, 5, 8, 9, 2, 3]

/-- The tags that `mma.s` accepts (R361). -/
def mmaScaledTags : List (BitVec 4) := [6, 4, 5]

/-- ROWS of a shape word, as held. -/
def shapeRows (x : BitVec 32) : Nat := x.toNat % 2 ^ 8

/-- COLS of a shape word. -/
def shapeCols (x : BitVec 32) : Nat := x.toNat / 2 ^ 8 % 2 ^ 9

/-- Step 4 of R355 for `mma` and `mma.s`, in the order of R361. -/
def checkMma (s : State) (a b : BitVec 4) (k : Option (BitVec 4)) : Except Stop Unit := do
  let t := s.self
  let x := t.rttag a
  let y := t.rttag b
  let ok := if k.isSome then mmaScaledTags else mmaTags
  let _ ← need s (ok.contains x && ok.contains y) .tagUnsupported
  let _ ← if (x = 4 && y = 5) || (x = 5 && y = 4) then .ok () else needAgree s x y
  let _ ← need s (match k with | some k => t.rttag k = tagE8m0 | none => true) .tagUnsupported
  need s (shapeRows (t.rshape a) = 127 && shapeRows (t.rshape b) = 127 &&
      shapeCols (t.rshape a) = shapeCols (t.rshape b) &&
      match k with
      | some k => shapeRows (t.rshape k) = 127 && shapeCols (t.rshape k) = 128
      | none => true) .shapeMismatch

/-- `mma` and `mma.s` at issue (R361). -/
def issueMma (i : Instr) (d : BitVec 2) (a b : BitVec 4) (k : Option (BitVec 4)) (s : State) : Body := do
  let _ ← needAcc s d
  let _ ← needTreg s a
  let _ ← needTreg s b
  let _ ← match k with
    | some k => needTreg s k
    | none => .ok ()
  let _ ← commandPoint s ctxMatrix
  let _ ← checkMma s a b k
  let s := s.enterCmd { s.newCmd i ctxMatrix with
    tags := [s.self.rttag a, s.self.rttag b], writes := [s.acc d],
    reads := s.treg a :: s.treg b :: match k with
      | some k => [s.treg k]
      | none => [] }
  .ok (s.advance 4)

/-- `mma accd, ta, tb` (R361). -/
def execMma (d : BitVec 2) (a b : BitVec 4) (s : State) : Host.Outcome State Fault Refusal :=
  settle (issueMma (.mma d a b) d a b none s)

/-- `mma.s accd, ta, tb, tK` (R361). -/
def execMmaS (d : BitVec 2) (a b k : BitVec 4) (s : State) : Host.Outcome State Fault Refusal :=
  settle (issueMma (.mmaS d a b k) d a b (some k) s)

/-- The value of an element of a tagged tile register (R242). -/
def mmaVal (tag : BitVec 4) (x : Nat) : Val :=
  match tagFmt tag, tagClass tag with
  | some f, _ => f.value x
  | none, .s => Val.ofInt (signedOf (tagWidth tag) x)
  | none, _ => Val.ofInt x

/-- Products in a k-group (R242). -/
def groupSize (tag : BitVec 4) : Nat := if tag = 2 ∨ tag = 3 then 16 else 32

/-- The exact sum of the products of a group (R242). -/
def groupSum (x y : List Val) : Val :=
  match List.zipWith Val.mul x y with
  | [] => Val.zero
  | p :: r => r.foldl (Val.add false) p

/-- A group sum with the scales of its row and column (R241, R242). -/
def scaleSum (v : Val) (sa sb : Nat) : Val :=
  if sa = e8m0NaN ∨ sb = e8m0NaN then .nan false else v.scale ((sa : Int) - 127 + (sb - 127))

/-- The sum of an integer group is an integer: its zero has no sign (R242). -/
def Val.integral : Val → Val
  | .fin _ 0 _ => .zero
  | v => v

/-- One element of C = C + A × B transposed: its code, over the groups of a row and a column and their scales; `int` says
that the elements are integers. -/
def mmaElem (int : Bool) (c : Nat) (x y : List (List Val)) (sc : List (Nat × Nat)) : Nat :=
  ((x.zip y).zip (sc.map some ++ List.replicate x.length none)).foldl (fun c p =>
    let v := groupSum p.1.1 p.1.2
    let v := if int then v.integral else v
    let v := match p.2 with
      | some q => scaleSum v q.1 q.2
      | none => v
    acc48.pack .rne ((acc48.unpack c).add false v)) c

/-- A row of a tile register: the groups of its elements, whether a byte is poisoned, and its scales with theirs. -/
structure MmaRow where
  groups : List (List Val)
  bad : Bool
  scales : List EElem

/-- The 128 rows of a tile register with tag, and the scales that start at a byte of tK. -/
def mmaRows (tag : BitVec 4) (bs : List EByte) (scales : List EByte) (at' : Nat) : List MmaRow :=
  let nb := 1024 / tagWidth tag / 32
  (chunks 128 bs).zipIdx.map fun p =>
    { groups := chunks (groupSize tag) ((eElems (tagWidth tag) p.1).map fun x => mmaVal tag x.1),
      bad := p.1.any (·.2),
      scales := ((scales.drop (at' + p.2 * nb)).take nb).map fun b => (b.1.toNat, b.2) }

/-- `mma` and `mma.s` as they run (R361, R425). -/
def runMma (t : BitVec 10) (c : Cmd) (d : BitVec 2) (a b : BitVec 4) (k : Option (BitVec 4)) (s : State) : Effect :=
  let x := s.tile t
  let reg (r : BitVec 4) : List EByte := s.regBytes t (x.tregOff c.thr r.toNat) 16384
  let scales := match k with
    | some k => reg k
    | none => []
  let (ta, tb) : BitVec 4 × BitVec 4 := match c.tags with
    | [p, q] => (p, q)
    | _ => (2, 2)
  let rows := mmaRows ta (reg a) scales 0
  let cols := mmaRows tb (reg b) scales 1024
  let off := x.accOff c.thr d.toNat
  let old := chunks (128 * 6) (s.regBytes t off 98304)
  let new := (rows.zip old).flatMap fun p =>
    (cols.zip (chunks 6 p.2)).flatMap fun q =>
      let e := eNat q.2
      let sc := List.zipWith (fun u v => (u.1, v.1)) p.1.scales q.1.scales
      let bad := p.1.bad || q.1.bad || e.2 || p.1.scales.any (·.2) || q.1.scales.any (·.2)
      eBytes 6 (mmaElem (ta = 8 || ta = 9) e.1 p.1.groups q.1.groups sc, bad)
  .ok (s.setRegBytes t off new, true)

/-! Accumulator moves. -/

/-- `azero accd` (R362). -/
def execAzero (d : BitVec 2) (s : State) : Host.Outcome State Fault Refusal :=
  settle do
    let _ ← needAcc s d
    let _ ← commandPoint s ctxMatrix
    .ok ((s.enterCmd { s.newCmd (.azero d) ctxMatrix with writes := [s.acc d] }).advance 4)

/-- `azero` as it runs. -/
def runAzero (t : BitVec 10) (c : Cmd) (d : BitVec 2) (s : State) : Effect :=
  let off := tileBase t.toNat + (s.tile t).accOff c.thr d.toNat
  .ok ({ s with mem := zeroBytes s.mem off (off + 98304), poison := clearPoison s.poison off 98304 }, true)

/-- `ald accd, [ga]` (R362). -/
def execAld (d : BitVec 2) (a : BitVec 5) (s : State) : Host.Outcome State Fault Refusal :=
  settle do
    let _ ← needAcc s d
    let _ ← commandPoint s ctxMatrix
    let va := s.g a
    let _ ← checkAligned s va 128
    let (s, x) ← matrixOperand s va 98304 .read
    let s := s.enterCmd { s.newCmd (.ald d a) ctxMatrix with
      opa := va, reads := ownIntervals s.cur.tile [x], writes := [s.acc d] }
    .ok (s.advance 4)

/-- `ald` as it runs. -/
def runAld (t : BitVec 10) (c : Cmd) (d : BitVec 2) (s : State) : Effect := do
  let s ← ready t c .read c.opa 98304 s
  let (s, bs, ok) ← readSome t c c.opa 98304 s
  .ok (s.setRegBytes t ((s.tile t).accOff c.thr d.toNat) bs, ok)

/-- `ast accd, [ga]` (R362). -/
def execAst (d : BitVec 2) (a : BitVec 5) (s : State) : Host.Outcome State Fault Refusal :=
  settle do
    let _ ← needAcc s d
    let _ ← commandPoint s ctxMatrix
    let va := s.g a
    let _ ← checkAligned s va 128
    let (s, x) ← matrixOperand s va 98304 .write
    let _ ← checkWrites s [x]
    let s := s.enterCmd { s.newCmd (.ast d a) ctxMatrix with
      opa := va, reads := [s.acc d], writes := ownIntervals s.cur.tile [x] }
    .ok (s.advance 4)

/-- `ast` as it runs. -/
def runAst (t : BitVec 10) (c : Cmd) (d : BitVec 2) (s : State) : Effect := do
  let s ← ready t c .write c.opa 98304 s
  let s ← writeAll t c c.opa (s.regBytes t ((s.tile t).accOff c.thr d.toNat) 98304) s
  .ok (s, true)

/-- `arow vd, acca, gb` (R363). -/
def execArow (d : BitVec 5) (a : BitVec 2) (b : BitVec 5) (s : State) : Host.Outcome State Fault Refusal :=
  settle do
    let _ ← needAcc s a
    let _ ← commandPoint s ctxMatrix
    let x := s.g b
    let _ ← need s (bits x 63 9 = 0) .laneIndex
    let s := s.enterCmd { s.newCmd (.arow d a b) ctxMatrix with
      opb := x, reads := [s.acc a], vdst := some d }
    .ok (s.advance 4)

/-- `arow` as it runs: container e of vd receives element (r, 32q + e). A poisoned element leaves vd as it is and stops
the activation later (R425). -/
def runArow (t : BitVec 10) (c : Cmd) (d : BitVec 5) (a : BitVec 2) (s : State) : Effect :=
  let first := 128 * bits c.opb 6 0 + 32 * bits c.opb 8 7
  let els := (chunks 6 (s.regBytes t ((s.tile t).accOff c.thr a.toNat + 6 * first) 192)).map eNat
  if els.any (·.2) then
    .ok (s.defer t c { c.stopDeferred .poison with addr := 0, vreg := some d }, false)
  else if c.owned then
    .ok (s.modThread ⟨t, c.thr⟩ fun x => x.wv d (ofElems 64 (els.map (·.1))) tagAcc48, true)
  else .ok (s, true)

end Sys2Proof.Machine
end

