-- ==== Sys2Proof/Machine/Rows.lean ====
section
/-! DEFINITION. State rows of attention (R372): their update by a key and a value (R243), their merge (R209), and their
finish (R373). Every number is an FP32 code. -/

namespace Sys2Proof.Machine

/-- A state row: M, L and O. -/
structure Row where
  m : Nat
  l : Nat
  o : List Nat
  deriving DecidableEq, Repr

/-- The row that has seen no token (R209, R243). -/
def Row.empty (d : Nat) : Row := ⟨ninf32, 0, List.replicate d 0⟩

/-- The bytes of a state row of d lanes (R372). -/
def rowSize (d : Nat) : Nat := 16 + 4 * d

/-- D of the bytes of a state row. -/
def rowD (bs : List EByte) : Nat := (eNat ((bs.drop 8).take 4)).1

/-- A state row from its bytes. -/
def rowOf (bs : List EByte) : Row :=
  ⟨(eNat (bs.take 4)).1, (eNat ((bs.drop 4).take 4)).1, (eWords (bs.drop 16)).map (·.1)⟩

/-- The bytes of a state row with its D, all poisoned or none. -/
def Row.bytes (r : Row) (d : Nat) (bad : Bool) : List EByte :=
  eBytes 4 (r.m, bad) ++ eBytes 4 (r.l, bad) ++ eBytes 4 (d, bad) ++ eBytes 4 (0, bad) ++ r.o.flatMap fun x => eBytes 4 (x, bad)

/-- An FP32 code is a NaN. -/
def nan32? (x : Nat) : Bool := (f32 x).isNan

/-- A row whose score was a NaN (R243). -/
def Row.nan (r : Row) : Row := ⟨nan32, nan32, r.o.map fun _ => nan32⟩

/-- The score of a key (R243): the dot product over d, exact and rounded once, times τ. -/
def score (q key : List Val) (tau : Nat) : Nat := mul32 (to32 (Val.sum (List.zipWith Val.mul q key))) tau

/-- The update of a row by a score and a value (R243); the value's elements are widened to FP32. -/
def Row.update (r : Row) (s : Nat) (val : List Nat) : Row :=
  if nan32? s then r.nan
  else if s = ninf32 then r
  else
    let r : Row := if (f32 r.m).lt (f32 s) then
        let c := exp32 (sub32 r.m s)
        ⟨s, mul32 r.l c, r.o.map fun x => mul32 x c⟩
      else r
    let e := exp32 (sub32 s r.m)
    ⟨r.m, add32 r.l e, List.zipWith (fun x v => add32 x (mul32 e v)) r.o val⟩

/-- The merge of the row that arrives, b, into the row that is held, a (R209). -/
def Row.merge (a b : Row) : Row :=
  let m := to32 ((f32 a.m).max (f32 b.m))
  if m = ninf32 then ⟨ninf32, 0, a.o.map fun _ => 0⟩
  else
    let sa := exp32 (sub32 a.m m)
    let sb := exp32 (sub32 b.m m)
    let mix (x y : Nat) : Nat := add32 (mul32 x sa) (mul32 y sb)
    ⟨m, mix a.l b.l, List.zipWith mix a.o b.o⟩

/-- L is a zero of either sign (R373). -/
def Row.emptySum (r : Row) : Bool := r.l % 2 ^ 31 = 0

/-- The finished outputs of a row (R373). -/
def Row.finish (r : Row) : List Nat := if r.emptySum then r.o.map fun _ => 0 else r.o.map fun x => div32 x r.l

end Sys2Proof.Machine
end

