-- ==== Sys2Proof/Machine/Attention.lean ====
section
/-! DEFINITION. Appends and attention (R193 to R195, R200, R201, R207, R243, R368 to R373): `kvapp`, `attn` and `attn.fin`,
slab growth and the request for a regeneration. -/

namespace Sys2Proof.Machine

/-! `kvapp` (R194, R195, R368, R369). -/

/-- A position is complete (R192). -/
def State.complete (s : State) (c p : Nat) : Bool :=
  (eNat (s.slabRead (s.metaAt c p) 8)).1 / 2 ^ 32 % 256 = s.clayers c + 1

/-- The state with VALID raised over complete positions, and FID extended with their TOKIDs (R195). A poisoned metadata word
of a later position is judged as its bits stand (DESIGN CHOICE, log 63). -/
def State.raiseValid (s : State) (c : Nat) : Nat → State
  | 0 => s
  | n + 1 =>
    let v := s.cvalid c
    if v < s.ccursor c && s.complete c v then
      let tok := (eNat (s.slabRead (s.metaAt c v) 4)).1
      ((s.extendFid c (s.topFrame c) v tok).setCx c 2 31 0 (v + 1)).raiseValid c n
    else s

/-- The state in which VALID has risen from a position, with the words that this has read: the append is one read of their
use-once lines (R156, R195). -/
def State.raised (s : State) (c p : Nat) : State :=
  let s := s.raiseValid c (s.ccursor c - p)
  let top := min (s.cvalid c + 1) (s.ccursor c)
  (List.range (top - p)).foldl (fun s i => s.slabUsed (s.metaAt c (p + i)) 8) s

/-- The metadata word of an append (R194): a first layer sets it, a later one adds 1 to LCNT. -/
def appendMeta (old tok fser : Nat) (first : Bool) : Nat :=
  if first then tok + 2 ^ 32 + fser * 2 ^ 40 else setBits old 39 32 (old / 2 ^ 32 + 1)

/-- Bytes stored by the current thread as plain stores to pieces of a slab (R181, R369). -/
def slabStore (s : State) : List Span → List Byte → State
  | [], _ => s
  | x :: l, bs => slabStore (storePlain s (wd x.va) x.entry x.pa (bs.take x.len)) l (bs.drop x.len)

/-- Every store to a slab that is on its way has been performed: VALID passes a position only then (R181, R195). -/
def State.settleSlab (s : State) (c : Nat) : State :=
  s.performThose fun a => s.treeOf a.region = s.treeOf s.self.region && s.inSlab c a.va

/-- Where an append accesses its slab: the pieces of its key row and of its value row, and its metadata word. -/
structure AppendSpans where
  keys : List Span
  vals : List Span
  word : Span
  deriving DecidableEq, Repr

/-- The metadata word of a position updated by one atomic at its home (R110, R130, R194). -/
def State.appendWord (s : State) (c : Nat) (x : Span) (tok : Nat) (first : Bool) : State :=
  let s := (s.volPoint x.entry).drainAt x.va x.pa
  let qa := s.forwarded x.va x.pa
  let w := appendMeta (s.peekNat qa 8) tok (s.fser c (s.topFrame c)) first
  (s.dropBoth s.cur.tile x.pa qa).performStore s.issuer .amo x.va x.pa (leBytes 8 w)

/-- An append performed (R194, R195). VALID rises only where the append completes the position at VALID. The thread's tile
keeps no older copy of the CXD in its L1 (R186). -/
def State.append (s : State) (c p tok : Nat) (x : AppendSpans) (key val : List Byte) (sets : Sets) : State :=
  let first := p = s.ccursor c
  let s := if first then s.setCx c 3 31 0 (p + 1) else s
  let s := slabStore (slabStore s x.keys key) x.vals val
  let s := s.appendWord c x.word tok first
  let s := if p = s.cvalid c && s.complete c p then
    ((s.settleSlab c).release sets).raised c (s.cvalid c)
  else s
  s.dropLines s.cur.tile c 1280

/-- An append that waits keeps the sets of its scope (R170), and is judged again (R194). -/
def waitAppend {α : Type} (s : State) (sets : Sets) : Except Stop α :=
  .error (.wait .retest (s.modSelf fun t => { t with captured := some sets }))

/-- The judgement of an append at the context's home (R194). -/
def judgeAppend (s : State) (c : Nat) (h : Word) (p : Nat) (sets : Sets) : Except Stop Unit := do
  let k := s.topFrame c
  if s.cstate c = 3 then waitAppend s sets
  else do
    let _ ← need s (s.fseal c k = 0) .frameSharedWrite
    let _ ← need s (max (s.cvalid c) (s.fstart c k) ≤ p && p ≤ s.ccursor c) .frameNotTop
    if p = s.basepos c + 2 ^ s.caplog c then
      if s.cstate c = 2 then parkCtx s c h
      else match s.growSlab c with
        | .ok s => parkCtx s c h
        | .error s => .error (.fault .slabFull 0 0 s)
    else if p < s.oldlen c && s.otherReaders c ≠ 0 then waitAppend s sets
    else .ok ()

/-- The metadata word of a position may be accessed by the current thread. -/
def metaWord (s : State) (c p : Nat) (k : List Kind) : Except Stop (State × Span) := do
  let va := s.metaAt c p
  let (s, e, pa) ← checkMapped s (wd va) 8 k
  let _ ← checkResident s (wd va) e 8
  .ok (s, ⟨va, 8, e, pa⟩)

/-- The metadata words of at most n positions from v on that the rise of VALID reads, up to the first that is not complete,
may be read (R154, R195). -/
def raiseReady (s : State) (c : Nat) : Nat → Nat → Except Stop State
  | 0, _ => .ok s
  | n + 1, v => do
    let (s, _) ← metaWord s c v [.read]
    if s.complete c v then raiseReady s c n (v + 1) else .ok s

/-- An append accesses its slab as any other access of the thread does (R131, R141, R154): the pieces that it writes. A
metadata word whose count it raises is not poisoned (R146; DEDUCED, log 63). -/
def appendReady (s : State) (c p l : Nat) : Except Stop (State × AppendSpans) := do
  let (s, keys) ← slabSpans s [.write] (s.keyAt c p l) (s.rowK c)
  let (s, vals) ← slabSpans s [.write] (s.valueAt c p l) (s.rowV c)
  let (s, word) ← metaWord s c p [.read, .write]
  let first := p = s.ccursor c
  let qa := s.forwarded word.va word.pa
  let _ ← if first then .ok () else checkPoison s (wd word.va) qa 8
  let done := (if first then 1 else s.peekNat qa 8 / 2 ^ 32 % 256 + 1) = s.clayers c + 1
  let s ← if p = s.cvalid c && done then raiseReady s c (s.ccursor c - (p + 1)) (p + 1) else .ok s
  .ok (s, ⟨keys, vals, word⟩)

/-- `kvapp gd, ga, gb, sc`. A stop leaves the reads of the two rows undone, so the checks stand in the state before them. -/
def execKvapp (d a b : BitVec 5) (sc : BitVec 4) (s : State) : Host.Outcome State Fault Refusal :=
  settle do
    let h := s.g a
    let x := s.g b
    let tok := bits (s.g (pair b)) 31 0
    let _ ← needCtxForm s h
    let sets ← match s.self.captured with
      | some y => .ok y
      | none => useScope s sc
    let (s, c) ← openCtx s h .write
    let l := bits x 38 32
    let _ ← need s (l ≤ s.clayers c && bits x 63 39 = 0) .laneIndex
    let (s', key) ← loadChecked s (s.g d) (s.rowK c) 32
    let (s', val) ← loadChecked s' (s.g (pair d)) (s.rowV c) 32
    let _ ← checkSlab s c
    let p := bits x 31 0
    let _ ← judgeAppend s c h p sets
    let _ ← appendReady s c p l
    let (s', x) ← appendReady s' c p l
    .ok ((s'.append c p tok x key val sets).advance 4)

/-! `attn` (R193, R243, R370, R371). -/

/-- QPOS of an attention descriptor. -/
def atQpos (d : List Byte) : Nat := bits (wordAt d 0) 31 0
/-- LAYER. -/
def atLayer (d : List Byte) : Nat := bits (wordAt d 0) 38 32
/-- KVHEAD. -/
def atHead (d : List Byte) : Nat := bits (wordAt d 0) 44 39
/-- Query rows. -/
def atRows (d : List Byte) : Nat := bits (wordAt d 0) 50 45 + 1
/-- INIT. -/
def atInit (d : List Byte) : Bool := bit (wordAt d 0) 51
/-- QADDR. -/
def atQaddr (d : List Byte) : Word := wd (bits (wordAt d 1) 55 0)
/-- SADDR. -/
def atSaddr (d : List Byte) : Word := wd (bits (wordAt d 2) 55 0)
/-- TAU. -/
def atTau (d : List Byte) : Nat := bits (wordAt d 3) 31 0
/-- LO. -/
def atLo (d : List Byte) : Nat := bits (wordAt d 4) 31 0
/-- HI, with 0 as 2^31. -/
def atHi (d : List Byte) : Nat := if bits (wordAt d 4) 63 32 = 0 then 2 ^ 31 else bits (wordAt d 4) 63 32

/-- The reserved bits of an attention descriptor are 0, and its positions lie below 2^31. -/
def atForm (d : List Byte) : Bool :=
  bits (wordAt d 0) 63 52 = 0 && bits (wordAt d 1) 63 56 = 0 && bits (wordAt d 2) 63 56 = 0 &&
    bits (wordAt d 3) 63 32 = 0 && (d.drop 40).all (fun x => x = 0) && atQpos d + (atRows d - 1) < 2 ^ 31

/-- The snapshot of a context (R193). -/
def State.snapshotOf (s : State) (c : Nat) : Snapshot :=
  let ks := List.range (s.cdepth c)
  let k := s.topFrame c
  { valid := s.cvalid c, starts := ks.map (s.fstart c), prolens := ks.map (s.fprolen c), fsers := ks.map (s.fser c),
    spans := (List.range (s.fnarg c k)).map fun j => (s.cx c (frameWord k (2 + j)) 31 0, s.cx c (frameWord k (2 + j)) 63 32) }

/-- The current activation joins the context's reader epoch, once (R198). -/
def State.joinEpoch (s : State) (c : Nat) : State :=
  if s.self.readers.any fun r => r.1 = c then s
  else
    let e := s.epoch c
    (s.setReaders c e (s.creaders c e + 1)).modSelf fun t => { t with readers := t.readers ++ [(c, decide (e = 1))] }

/-- `attn ga, gb, sc` at issue. -/
def execAttn (a b : BitVec 5) (sc : BitVec 4) (s : State) : Host.Outcome State Fault Refusal :=
  settle do
    let h := s.g a
    let dva := s.g b
    let _ ← commandPoint s ctxMatrix
    let _ ← needCtxForm s h
    let sets ← useScope s sc
    let (s, c) ← openCtx s h .read
    let (s, desc) ← readDesc s dva
    let _ ← need s (atForm desc) .reservedField
    let _ ← need s (atLayer desc ≤ s.clayers c && atHead desc ≤ s.kvh c) .laneIndex
    let _ ← checkAligned s (atQaddr desc) 16
    let _ ← checkAligned s (atSaddr desc) 16
    let (s, q) ← matrixOperand s (atQaddr desc) (atRows desc * 4 * s.cdim c) .read
    let (s, x) ← matrixOperand s (atSaddr desc) (atRows desc * rowSize (s.cdim c)) .write
    let (s, _) ← if atInit desc then .ok (s, x) else matrixOperand s (atSaddr desc) (atRows desc * rowSize (s.cdim c)) .read
    let _ ← checkWrites s [x]
    let _ ← need s (s.fstart c (s.topFrame c) ≤ atQpos desc) .frameNotTop
    let s := (s.acquire sets).joinEpoch c
    let t := s.cur.tile
    .ok ((s.enterCmd { s.newCmd (.attn a b sc) ctxMatrix with
      opa := dva, opd := h, opb1 := wd c, desc := desc, sets := some sets, snapshot := some (s.snapshotOf c),
      reads := ownIntervals t (if atInit desc then [q] else [q, x]), writes := ownIntervals t [x] }).advance 4)

/-- The context that holds a position in its own slab: the context itself, or the parent that it lies in (R191). -/
def State.holderOf (s : State) (p : Nat) : Nat → Nat → Nat
  | 0, c => c
  | n + 1, c =>
    if s.basepos c ≤ p then c
    else match s.ctxSlot? c with
      | some x => if x.parent = 0 then c else s.holderOf p n x.parent
      | none => c

/-- The frame of the snapshot that holds a position. -/
def Snapshot.frameOf (x : Snapshot) (p : Nat) : Nat :=
  (List.range x.starts.length).foldl (fun j k => if x.starts[k]?.getD 0 ≤ p then k else j) 0

/-- `visible` of R193, for a position below the query and VALID, given its metadata word. -/
def Snapshot.visible (x : Snapshot) (layers p meta' : Nat) : Bool :=
  let k := x.starts.length - 1
  let j := x.frameOf p
  if meta' / 2 ^ 40 % 2 ^ 16 ≠ x.fsers[j]?.getD 0 || meta' / 2 ^ 32 % 256 ≠ layers + 1 then false
  else j = k || p < x.starts[j]?.getD 0 + x.prolens[j]?.getD 0 ||
    x.spans.any fun s => s.1 ≤ p && p < s.1 + s.2

/-- What the attention path reads of one position. -/
structure Token where
  pos : Nat
  key : List Val
  val : List Nat
  bad : Bool
  deriving Repr

/-- The FP32 codes of the elements of a value row, widened exactly. -/
def widen (tag : BitVec 4) (bs : List EByte) : List Nat :=
  (eElems (tagWidth tag) bs).map fun x => match tagFmt tag with
    | some f => fp32.convert .rne true (f.value x.1)
    | none => x.1

/-- Bytes of a slab read by a running command, as any operand of it: it waits while a block is not RESIDENT, and finishes
cancelled where they do not translate (R131, R154, R201, R358). -/
def slabFetch (t : BitVec 10) (c : Cmd) (va n : Nat) (s : State) : Except EStop (State × List EByte) := do
  let s ← ready t c .read (wd va) n s
  readAll t c (wd va) n s

/-- The key and the value of a position for the layer and the head of a command. -/
def slabToken (t : BitVec 10) (c : Cmd) (holder p : Nat) (s : State) :
    Except EStop (State × Token) := do
  let l := atLayer c.desc
  let h := atHead c.desc
  let nk := s.cdim holder * kvBytes (s.ktag holder)
  let nv := s.cdim holder * kvBytes (s.cvtag holder)
  let (s, kb) ← slabFetch t c (s.keyAt holder p l + h * nk) nk s
  let (s, vb) ← slabFetch t c (s.valueAt holder p l + h * nv) nv s
  .ok (s, { pos := p, key := (widen (BitVec.ofNat 4 (s.ktag holder)) kb).map f32,
            val := widen (BitVec.ofNat 4 (s.cvtag holder)) vb, bad := kb.any (·.2) || vb.any (·.2) })

/-- The visible ones of n positions from p on, in ascending order, and whether a metadata word among them is poisoned
(R193, R371). -/
def slabTokens (t : BitVec 10) (c : Cmd) (cxd : Nat) (x : Snapshot) : Nat → Nat → State →
    Except EStop (State × List Token × Bool)
  | 0, _, s => .ok (s, [], false)
  | n + 1, p, s => do
    let holder := s.holderOf p 16 cxd
    let (s, m) ← slabFetch t c (s.metaAt holder p) 8 s
    let w := eNat m
    if x.visible (s.clayers cxd) p w.1 then do
      let (s, y) ← slabToken t c holder p s
      let (s, l, bad) ← slabTokens t c cxd x n (p + 1) s
      .ok (s, y :: l, w.2 || bad)
    else do
      let (s, l, bad) ← slabTokens t c cxd x n (p + 1) s
      .ok (s, l, w.2 || bad)

/-- The rows that a command performs: with INIT 0, those before the first whose state has another D (R371). -/
def rowsPerformed (t : BitVec 10) (c : Cmd) (dim : Nat) : Nat → Nat → State → Except EStop (State × Nat)
  | 0, i, s => .ok (s, i)
  | n + 1, i, s => do
    let (s, old, all) ← readSome t c (atSaddr c.desc + wd (rowSize dim * i)) 12 s
    if all && rowD old = dim then rowsPerformed t c dim n (i + 1) s else .ok (s, i)

/-- One row visits the tokens in order; a NaN score ends its update (R243). -/
def visit (q : List Val) (qpos tau : Nat) : List Token → Row → Row
  | [], r => r
  | t :: ts, r =>
    if qpos < t.pos then r
    else
      let sc := score q t.key tau
      if nan32? sc then r.nan else visit q qpos tau ts (r.update sc t.val)

/-- The query rows from row i on (R371): the state, and whether all rows were done. -/
def attnRows (t : BitVec 10) (c : Cmd) (dim : Nat) (toks : List Token) : Nat → Nat → State → Effect
  | 0, _, s => .ok (s, true)
  | n + 1, i, s => do
    let d := c.desc
    let (s, q) ← readAll t c (atQaddr d + wd (4 * dim * i)) (4 * dim) s
    let sva := atSaddr d + wd (rowSize dim * i)
    let (s, old) ← if atInit d then .ok (s, []) else readAll t c sva (rowSize dim) s
    if !atInit d && rowD old ≠ dim then .ok (s, false)
    else do
      let start := if atInit d then Row.empty dim else rowOf old
      let row := visit ((eWords q).map fun x => f32 x.1) (atQpos d + i) (atTau d) toks start
      let s ← writeAll t c sva (row.bytes dim (q.any (·.2) || old.any (·.2))) s
      attnRows t c dim toks n (i + 1) s

/-- A regeneration of a run of positions asked for at the context's home, in the context's region (R207): whether there is one
is that region's affair (DESIGN CHOICE, log 91). -/
def State.askRegen (s : State) (cxd : Nat) (h : Word) (first count : Nat) : State :=
  let r := s.ctxRegion cxd
  match s.regen? r with
  | none => s
  | some (hd, tl) =>
    if s.rgpend cxd = 1 then
      let lo := min first (s.cx cxd 9 31 0)
      let hi := max (first + count) (s.cx cxd 9 31 0 + s.cx cxd 9 63 32)
      (s.setCx cxd 9 31 0 lo).setCx cxd 9 63 32 (hi - lo)
    else
      let s := ((s.setCx cxd 9 31 0 first).setCx cxd 9 63 32 count).setCx cxd 0 43 43 1
      let home := ctxHome cxd
      let (id, s) := s.tileId home
      let (colour, s) := s.emit home r
      s.post
        { uid := 0, kind := .regen cxd, msgid := id, dest := handlerDest hd 2 tl, arg := h, cls := 2, region := r,
          len := 8, payload := leBytes 4 first ++ leBytes 4 count, xform := 0, sets := some setsDevice,
          colour := some colour }

/-- The poison that an `attn` has met: a stop left for its activation, and a request for a regeneration. Where it has met a
poisoned key or value and a poisoned metadata word, both stops are left, KV_RETRY first, and the activation takes the first
(R207, R208; DESIGN CHOICE, log 91). -/
def State.metPoison (s : State) (t : BitVec 10) (c : Cmd) (cxd : Nat) (toks : List Token) (metaBad : Bool) : State :=
  let bad := (toks.filter (·.bad)).map (·.pos)
  let s := match bad with
    | [] => s
    | p :: ps =>
      let last := ps.foldl max p
      (s.askRegen cxd c.opd p (last + 1 - p)).defer t c { c.stopDeferred .kvRetry with cxd := cxd }
  if metaBad then s.defer t c (c.stopDeferred .poison) else s

/-- `attn` as it runs (R371): the keys, values and metadata words of the positions that its rows visit are read, and
then the rows are computed. -/
def runAttn (t : BitVec 10) (c : Cmd) (s : State) : Effect :=
  let cxd := c.opb1.toNat
  let d := c.desc
  match c.snapshot with
  | none => .ok (s, false)
  | some x => do
    let dim := s.cdim cxd
    let s ← ready t c .read (atQaddr d) (atRows d * 4 * dim) s
    let s ← ready t c .write (atSaddr d) (atRows d * rowSize dim) s
    let (s, n) ← if atInit d then .ok (s, atRows d) else rowsPerformed t c dim (atRows d) 0 s
    let top := if n = 0 then 0 else min (min (atHi d) x.valid) (atQpos d + n)
    let (s, toks, metaBad) ← slabTokens t c cxd x (top - atLo d) (atLo d) s
    attnRows t c dim toks (atRows d) 0 (s.metPoison t c cxd toks metaBad)

/-! `attn.fin` (R373). -/

/-- `attn.fin gd, ga` at issue. D stands in the row and is known only when the command runs: its footprint takes in the
largest row, 1,040 bytes read, and the largest output, 1,024 bytes written (R117; DESIGN CHOICE, log 92). -/
def execAttnFin (d a : BitVec 5) (s : State) : Host.Outcome State Fault Refusal :=
  settle do
    let _ ← commandPoint s ctxMatrix
    let out := s.g d
    let row := s.g a
    let _ ← checkAligned s row 16
    let _ ← checkAligned s out 16
    let (s, x) ← matrixOperand s row 16 .read
    let (s, y) ← matrixOperand s out 64 .write
    let _ ← checkWrites s [y]
    let t := s.cur.tile
    let wide (l : List (Nat × Nat)) (n : Nat) : List (Nat × Nat) := l.map fun i => (i.1, i.1 + n)
    .ok ((s.enterCmd { s.newCmd (.attnFin d a) ctxMatrix with
      opa := row, opd := out, p7dst := true,
      reads := wide (ownIntervals t [x]) (rowSize 256), writes := wide (ownIntervals t [y]) 1024 }).advance 4)

/-- How many of the first bytes of an operand lie in the issuing tile's scratchpad part, piece by piece as it
translates. -/
def localPart (t : BitVec 10) (c : Cmd) (k : Kind) (va : Word) (n : Nat) (s : State) : State × Nat :=
  let r := cmdPieces t c k n s va.toNat n
  (r.1, ((r.2.1.takeWhile fun x => r.1.inScratchpad t x.pa x.len).map (·.len)).sum)

/-- The output of `attn.fin` written up to where it does not translate or leaves the scratchpad part: there the command
is cancelled, and what it wrote remains (R358, R373). -/
def writeLocal (t : BitVec 10) (c : Cmd) (out : List EByte) (s : State) : Except EStop State := do
  let (s, m) := localPart t c .write c.opd out.length s
  let s ← writeAll t c c.opd (out.take m) s
  if m < out.length then .error (.cancel s) else .ok s

/-- `attn.fin` as it runs. -/
def runAttnFin (t : BitVec 10) (c : Cmd) (s : State) : Effect := do
  let s ← ready t c .read c.opa 16 s
  let (s, head) ← readAll t c c.opa 16 s
  let d := rowD head
  if ((head.drop 8).take 4).any (·.2) || d < 16 || 256 < d || d % 16 ≠ 0 then .ok (s, false)
  else do
    let s ← ready t c .read c.opa (16 + 4 * d) s
    let s ← ready t c .write c.opd (4 * d) s
    let (s, m) := localPart t c .read (c.opa + 16) (4 * d) s
    if m < 4 * d then .error (.cancel s)
    else do
      let (s, rest) ← readAll t c (c.opa + 16) (4 * d) s
      let r := rowOf (head ++ rest)
      let bad := (head.take 8).any (·.2)
      let s ← writeLocal t c ((r.finish.zip (eWords rest)).flatMap fun p => eBytes 4 (p.1, bad || p.2.2)) s
      .ok (if c.owned then s.modThread ⟨t, c.thr⟩ fun x => x.wp 7 (!bad && !r.emptySum) else s, true)

end Sys2Proof.Machine
end

