-- ==== Sys2Proof/Machine/Copy.lean ====
section
/-! DEFINITION. The copy commands `cpy`, `cpy.t`, `cpy.mc`, `gath`, `scat` and `promo`, and `wptr` (R119, R120, R156, R387
to R391, R394, R395): their checks at issue, and what each does when it runs. -/

namespace Sys2Proof.Machine

/-- What a copy command does when it runs: the state, and whether it completed. -/
abbrev CopyEffect := Except EStop (State × Bool)

/-- The state in which a running command has written its destination up to an offset (R119). -/
def State.reached (s : State) (t : BitVec 10) (c : Cmd) (p : Nat) : State :=
  let s := s.modCmd t c fun d => { d with progress := p }
  if usesChannel c.insn then s.setWp t c (c.opd + wd p) else s

/-- How much of n bytes at a destination a command writes whose issuer has been reclaimed (R75, R120): up to the next
4 KiB boundary at or after what it has written. One that stands on a boundary, or has written nothing yet from one, stops
there at once: the rules do not say whether that boundary counts as the next (DESIGN CHOICE, log 93). -/
def stopPoint (c : Cmd) (p n : Nat) : Nat :=
  if c.cancelled then
    let at' := c.opd.toNat + p
    min n (p + (4096 - at' % 4096) % 4096)
  else n

/-- The state in which a command that was cancelled while it streamed has STOP set (R119). -/
def State.stopChannel (s : State) (t : BitVec 10) (c : Cmd) : State :=
  s.modTile t fun x => x.setChannel (channelOf c.thr) { x.channel (channelOf c.thr) with stop := true }

/-! `cpy` (R388). -/

/-- `cpy [gd], [ga], gb` at issue. -/
def execCpy (d a b : BitVec 5) (s : State) : Host.Outcome State Fault Refusal :=
  settle do
    let _ ← commandPoint s ctxCopy
    let n := s.g b
    let _ ← needLength s n
    let (s, src) ← operand s (s.g a) n.toNat .read
    let (s, dst) ← operand s (s.g d) n.toNat .write
    let _ ← checkWrites s dst
    let t := s.cur.tile
    .ok ((s.enterCmd { s.newCmd (.cpy d a b) ctxCopy with
      opd := s.g d, opa := s.g a, opb := n, reads := ownIntervals t src, writes := ownIntervals t dst }).advance 4)

/-- A beat of a copy: n bytes at an offset, read in full before they are written. -/
def copyBeat (t : BitVec 10) (c : Cmd) (p n : Nat) (s : State) : Except EStop State := do
  let s ← ready t c .read (c.opa + wd p) n s
  let s ← ready t c .write (c.opd + wd p) n s
  let (s, bs) ← readAll t c (c.opa + wd p) n s
  let s ← writeAll t c (c.opd + wd p) bs s
  .ok (s.reached t c (p + n))

/-- Beats of 64 bytes from an offset up to another. -/
def beats (f : Nat → Nat → State → Except EStop State) (stop : Nat) : Nat → Nat → State → Except EStop State
  | 0, _, s => .ok s
  | k + 1, p, s =>
    if stop ≤ p then .ok s
    else do
      let n := min 64 (stop - p)
      let s ← f p n s
      beats f stop k (p + n) s

/-- The rest of a stream of n bytes as its command finishes: whether it reached its end. One of a reclaimed issuer that
reaches its end at or before the boundary at which R75 stops it has copied everything, and finishes completed
(DESIGN CHOICE, log 76). -/
def streamRest (f : Nat → Nat → State → Except EStop State) (t : BitVec 10) (c : Cmd) (n : Nat) (s : State) : CopyEffect := do
  let stop := stopPoint c c.progress n
  let s ← beats f stop (n / 64 + 2) c.progress s
  if stop < n then .error (.cancel s) else .ok (s.reached t c n, true)

/-- `cpy` as it finishes: the beats that are left. -/
def runCpy (t : BitVec 10) (c : Cmd) (s : State) : CopyEffect := streamRest (copyBeat t c) t c c.opb.toNat s

/-! `cpy.t` (R389). -/

/-- The pieces of an interval, as far as it translates in a region now; no translation is made by looking. -/
def State.piecesSeen (s : State) (t : BitVec 10) (r : BitVec 16) (who : List Word) (k : Kind) : Nat → Nat → Nat → List Span
  | 0, _, _ => []
  | f + 1, va, n =>
    if n = 0 then []
    else match s.firstSpan t r who va n k with
      | .error _ => []
      | .ok (_, x) => x :: s.piecesSeen t r who k f (va + x.len) (n - x.len)

/-- The pieces that the current thread would write at an address. -/
def State.writesSeen (s : State) (va : Word) (n : Nat) : List Span :=
  s.piecesSeen s.cur.tile s.self.region (s.lineage s.me) .write n va.toNat n

/-- The longest output that an input of n bytes can have (R123, R124): for kind 1, groups that are masks alone. -/
def outputBound (x : Word) (n : Nat) : Nat := if xKind x = 1 then min 64 (n / 4) * 256 else outputLength x n

/-- `cpy.t [gd], [ga], gb` at issue. Its footprint holds all that it may write (R117). -/
def execCpyT (d a b : BitVec 5) (s : State) : Host.Outcome State Fault Refusal :=
  settle do
    let _ ← commandPoint s ctxCopy
    let n := s.g b
    let x := s.g (pair b)
    let _ ← needLength s n
    let _ ← need s (xformOk x && xKind x ≠ 5) .reservedField
    let (s, src) ← operand s (s.g a) n.toNat .read
    let (s, dst) ← operand s (s.g d) (outputLength x n.toNat) .write
    let _ ← checkWrites s dst
    let t := s.cur.tile
    let bound := outputBound x n.toNat
    .ok ((s.enterCmd { s.newCmd (.cpyT d a b) ctxCopy with
      opd := s.g d, opa := s.g a, opb := n, opb1 := x,
      reads := ownIntervals t src, writes := ownIntervals t (s.writesSeen (s.g d) bound) }).advance 4)

/-- What a decoding command makes of its input, which it reads once: from then on the scoreboard holds the output (R123,
R389). A poisoned mask word ends it (R425). -/
def decoded (t : BitVec 10) (c : Cmd) (s : State) : Except EStop (State × List EByte × Nat × Bool) :=
  match (s.cmdNow t c).output with
  | some o => .ok (s, o)
  | none => do
    let s ← ready t c .read c.opa c.opb.toNat s
    let (s, bs, all) ← readSome t c c.opa c.opb.toNat s
    let x := transform c.opb1 bs
    .ok (s.modCmd t c fun d => { d with output := some (x.1, x.2, all), pages := d.pages.filter (·.write) }, x.1, x.2, all)

/-- A beat of `cpy.t`: n bytes of its output at an offset. -/
def decodedBeat (t : BitVec 10) (c : Cmd) (out : List EByte) (p n : Nat) (s : State) : Except EStop State := do
  let s ← ready t c .write (c.opd + wd p) n s
  let s ← writeAll t c (c.opd + wd p) ((out.drop p).take n) s
  .ok (s.reached t c (p + n))

/-- The end of a decoding command: input that does not translate and input errors leave it cancelled (R124, R358,
R389). -/
def decodedEnd (t : BitVec 10) (c : Cmd) (why : Nat) (all : Bool) (s : State) : CopyEffect :=
  if all then .ok (s.recordError t (xKind c.opb1) why, decide (why = 0)) else .error (.cancel s)

/-- `cpy.t` as it finishes: the beats that are left. -/
def runCpyT (t : BitVec 10) (c : Cmd) (s : State) : CopyEffect := do
  let (s, out, why, all) ← decoded t c s
  let (s, _) ← streamRest (decodedBeat t c out) t c out.length s
  decodedEnd t c why all s

/-! `cpy.mc` (R390). -/

/-- `cpy.mc [gd], [ga], gb, sc` at issue. -/
def execCpyMc (d a b : BitVec 5) (c : BitVec 4) (s : State) : Host.Outcome State Fault Refusal :=
  settle do
    let _ ← commandPoint s ctxCopy
    let sets ← useScope s c
    let n := s.g b
    let _ ← needLength s n
    let (s, src) ← operand s (s.g a) n.toNat .read
    let (s, dst) ← localOperand s (s.g d) n.toNat .write
    let _ ← checkHeld s false
    let t := s.cur.tile
    .ok ((s.enterCmd { s.newCmd (.cpyMc d a b c) ctxCopy with
      opd := s.g d, opa := s.g a, opb := n, sets := some sets,
      reads := ownIntervals t src, writes := ownIntervals t dst }).advance 4)

/-- The window offset of a multicast's destination (R390). -/
def windowOffset (t : BitVec 10) (va : Word) : Nat := (va - wd (windowBase + t.toNat * 0x400000)).toNat

/-- The tiles of a multicast whose scratchpad part holds the whole destination. -/
def State.targets (s : State) (t : BitVec 10) (c : Cmd) : List (BitVec 10) :=
  match c.sets with
  | some x => x.tileList.filter fun i => windowOffset t c.opd + c.opb.toNat ≤ (s.tile i).lzOff
  | none => []

/-- The state with bytes written at an offset of a tile's array by a command of another tile, after those with some
marks. -/
def State.deliver (s : State) (t : BitVec 10) (c : Cmd) (i : BitVec 10) (off : Nat) (old : List Bool) (bs : List EByte) :
    State :=
  let pa := tileBase i.toNat + off
  ((s.pokeAfter pa old bs).dropLines t pa bs.length).watched (c.issuer t) .eng pa bs.length

/-- A beat of a multicast, whose destination u(gd) translates as that of a copy does (R376): every tile receives it at the
same offset. -/
def multicastBeat (t : BitVec 10) (c : Cmd) (p n : Nat) (s : State) : Except EStop State := do
  let s ← ready t c .read (c.opa + wd p) n s
  let (s, bs) ← readAll t c (c.opa + wd p) n s
  let (s, _, all) := cmdPieces t c .write n s (c.opd + wd p).toNat n
  if !all then .error (.cancel s)
  else
    let off := windowOffset t c.opd + p
    let old := (s.cmdNow t c).trailAt off
    let s := (s.targets t c).foldl (fun s i => s.deliver t c i off old bs) s
    .ok ((s.setTrail t c (off + n) (old ++ bs.map (·.2))).reached t c (p + n))

/-- `cpy.mc` as it finishes: cancelled if some tile of the set received nothing. -/
def runCpyMc (t : BitVec 10) (c : Cmd) (s : State) : CopyEffect := do
  let (s, _) ← streamRest (multicastBeat t c) t c c.opb.toNat s
  .ok (s, match c.sets with
    | some x => c.opb = 0 || (s.targets t c).length = x.tileList.length
    | none => false)

/-! `gath` and `scat` (R391). -/

/-- COUNT of a gather descriptor. -/
def gsCount (d : List Byte) : Nat := bits (wordAt d 0) 19 0
/-- ELEM of a gather descriptor. -/
def gsElem (d : List Byte) : Nat := bits (wordAt d 0) 32 20
/-- BASE of a gather descriptor. -/
def gsBase (d : List Byte) : Word := wd (bits (wordAt d 1) 55 0)
/-- IDX of a gather descriptor. -/
def gsIdx (d : List Byte) : Word := wd (bits (wordAt d 2) 55 0)

/-- The fields of a gather descriptor are in their ranges. -/
def gsForm (d : List Byte) : Bool :=
  gsCount d ≠ 0 && 4 ≤ gsElem d && gsElem d ≤ 4096 && gsElem d % 4 = 0 && bits (wordAt d 0) 63 33 = 0 &&
    bits (wordAt d 1) 63 56 = 0 && bits (wordAt d 2) 63 56 = 0 && (d.drop 24).all fun x => x = 0

/-- The address of an element, given its offset (R391). -/
def gsAddr (d : List Byte) (off : Nat) : Word := gsBase d + wd off

/-- The remote pieces that an unconfirmed `scat` would write, as its list stands at issue (R78). -/
def State.scatTargets (s : State) (desc : List Byte) (list : List Byte) : List Span :=
  (chunks 8 list).flatMap fun o =>
    s.writesSeen (gsAddr desc (leNat o)) (gsElem desc)

/-- `gath` and `scat` at issue. -/
def issueGs (i : Instr) (gather : Bool) (d a : BitVec 5) (s : State) : Body := do
  let _ ← commandPoint s ctxCopy
  let (s, desc) ← readDesc s (s.g a)
  let _ ← need s (gsForm desc) .reservedField
  let (s, area) ← localOperand s (s.g d) (gsCount desc * gsElem desc) (if gather then .write else .read)
  let (s, list) ← localOperand s (gsIdx desc) (8 * gsCount desc) .read
  let _ ← checkWrites s (if gather then area else if s.confirmed then [] else
    s.scatTargets desc (list.flatMap fun x => s.peek x.pa x.len))
  let t := s.cur.tile
  .ok ((s.enterCmd { s.newCmd i ctxCopy with
    opd := s.g d, opa := s.g a, desc := desc,
    reads := ownIntervals t (if gather then list else area ++ list),
    writes := if gather then ownIntervals t area else [] }).advance 4)

/-- `gath [gd], ga` at issue. -/
def execGath (d a : BitVec 5) (s : State) : Host.Outcome State Fault Refusal := settle (issueGs (.gath d a) true d a s)

/-- `scat [gd], ga` at issue. -/
def execScat (d a : BitVec 5) (s : State) : Host.Outcome State Fault Refusal := settle (issueGs (.scat d a) false d a s)

/-- An element of the list: its number, its remote address, and the mark of the offset's bytes. -/
structure GsElem where
  index : Nat
  addr : Word
  bad : Bool
  deriving DecidableEq, Repr

/-- The elements that a command's list names. -/
def gsElems (c : Cmd) (list : List EByte) : List GsElem :=
  (chunks 8 list).zipIdx.map fun x => ⟨x.2, gsAddr c.desc (eNat x.1).1, (eNat x.1).2⟩

/-- The remote blocks of every element are RESIDENT, or the command waits. -/
def gsReady (t : BitVec 10) (c : Cmd) (k : Kind) : List GsElem → State → Except EStop State
  | [], s => .ok s
  | e :: r, s => do
    let s ← if e.addr.toNat % 4 = 0 && !e.bad then ready t c k e.addr (gsElem c.desc) s else .ok s
    gsReady t c k r s

/-- An element is performed (R391): its remote address is a multiple of 4, and all of it translates. -/
def gsPerforms (t : BitVec 10) (c : Cmd) (k : Kind) (e : GsElem) (s : State) : State × Bool :=
  if e.addr.toNat % 4 ≠ 0 then (s, false)
  else
    let r := cmdPieces t c k (gsElem c.desc) s e.addr.toNat (gsElem c.desc)
    (r.1, r.2.2 && (k = .read || r.2.1.all fun x => r.1.cmdWrites c x.entry))

/-- One element gathered: the state, and whether it was performed. A poisoned offset leaves the element poisoned
(R425). -/
def gathOne (t : BitVec 10) (c : Cmd) (e : GsElem) (s : State) : Except EStop (State × Bool) := do
  let n := gsElem c.desc
  let (s, ok) := gsPerforms t c .read e s
  if ok then do
    let (s, bs) ← readAll t c e.addr n s
    let s ← writeAll t c (c.opd + wd (e.index * n)) (if e.bad then bs.map fun b => (b.1, true) else bs) s
    .ok (s, true)
  else .ok (s, false)

/-- One element scattered. An element whose offset is poisoned is not performed (log 13). -/
def scatOne (t : BitVec 10) (c : Cmd) (e : GsElem) (s : State) : Except EStop (State × Bool) := do
  let n := gsElem c.desc
  let (s, ok) := gsPerforms t c .write e s
  if ok && !e.bad then do
    let (s, bs) ← readAll t c (c.opd + wd (e.index * n)) n s
    let s ← writeAll t c e.addr bs s
    .ok (s, true)
  else .ok (s, false)

/-- Elements performed in ascending order: the state, and whether all were. -/
def gsEach (f : GsElem → State → Except EStop (State × Bool)) : List GsElem → State → Except EStop (State × Bool)
  | [], s => .ok (s, true)
  | e :: r, s => do
    let (s, ok) ← f e s
    let (s, ok') ← gsEach f r s
    .ok (s, ok && ok')

/-- `gath` as it runs. -/
def runGath (t : BitVec 10) (c : Cmd) (s : State) : CopyEffect := do
  let (s, list) ← readAll t c (gsIdx c.desc) (8 * gsCount c.desc) s
  let es := gsElems c list
  let s ← gsReady t c .read es s
  gsEach (gathOne t c) es s

/-- `scat` as it runs. -/
def runScat (t : BitVec 10) (c : Cmd) (s : State) : CopyEffect := do
  let (s, list) ← readAll t c (gsIdx c.desc) (8 * gsCount c.desc) s
  let es := gsElems c list
  let s ← gsReady t c .write es s
  gsEach (scatOne t c) es s

/-! `wptr` (R119, R394). -/

/-- The word of a channel (R119). -/
def Channel.word (c : Channel) : Word :=
  wd (c.wp.toNat + c.thr.toNat * 2 ^ 56 + nb c.act * 2 ^ 59 + nb c.stop * 2 ^ 60 + nb c.mov * 2 ^ 61)

/-- `wptr gd, #ch`. -/
def execWptr (d : BitVec 5) (h : BitVec 2) (s : State) : Host.Outcome State Fault Refusal :=
  .next (s.putG d ((s.tile s.cur.tile).channel h).word)

/-! `promo` (R156, R395). -/

/-- `promo [gd], [ga], gb, #kind` at issue. -/
def execPromo (d a b : BitVec 5) (k : BitVec 2) (s : State) : Host.Outcome State Fault Refusal :=
  settle do
    let _ ← commandPoint s ctxCopy
    let n := s.g b
    let _ ← need s (k ≠ 0 || d = 0) .reservedField
    let _ ← needLength s n
    let (s, src) ← operand s (s.g a) n.toNat .read
    let (s, dst) ← operand s (s.g d) (if k = 0 then 0 else outputLength (k.setWidth 64) n.toNat) .write
    let _ ← if dst.all fun x => decide (x.pa < hbmEnd) then .ok () else stopAt s .rangeNone (s.g d)
    let _ ← checkHeld s false
    .ok ((s.enterCmd { s.newCmd (.promo d a b k) ctxCopy with
      opd := s.g d, opa := s.g a, opb := n, opb1 := k.setWidth 64,
      reads := ownIntervals s.cur.tile src }).advance 4)

/-- `promo` as it starts: every block of a kind 0 interval receives its event (R153). -/
def startPromo (t : BitVec 10) (c : Cmd) (s : State) : State :=
  let event (s : State) (x : Span) : State := match s.residency c.region x.entry x.va x.len with
    | .ok () => s
    | .error (s, _) => s
  if c.opb1 = 0 then (foldSpans t c .read event c.opb.toNat s c.opa.toNat c.opb.toNat).1 else s

/-- A line of a cluster memory becomes use-once for a region, if it is not: what HBM held stands beside it (R156). The least
recently used normal line gives way where all lines are taken (R145). -/
def State.makeOnce (s : State) (r : BitVec 16) (pa n : Nat) : State :=
  (hbmLines pa n).foldl (fun s l => s.modCmem (hbmHome l) fun m =>
    if (m.once? l).isSome then { m with useOnce := m.useOnce.map fun o => if o.base = l then { o with region := r } else o }
    else
      let normal := (m.lines.filter fun x => !(x.1 = l)).take (131072 - (m.useOnce.length + 1))
      { m with
      lines := normal
      high := max m.high (normal.length + m.useOnce.length + 1)
      useOnce := m.useOnce ++ [⟨l, r, BitVec.ofNat 1024 (s.peekNat l 128), poisoned s.poison l 128⟩] }) s

/-- Use-once lines fill at most 4 MiB of a cluster memory (R156): the lines of n bytes find room. -/
def State.onceRoom (s : State) (pa n : Nat) : Bool :=
  (hbmLines pa n).all fun l => ((s.cmem (hbmHome l)).once? l).isSome || (s.cmem (hbmHome l)).useOnce.length < 32768

/-- Decoded bytes written as use-once lines, piece by piece. -/
def oncePieces (t : BitVec 10) (c : Cmd) : Nat → State → Nat → List EByte → Except EStop State
  | 0, s, _, _ => .ok s
  | f + 1, s, va, bs =>
    if bs.isEmpty then .ok s
    else match s.cmdSpan t c va bs.length .write with
      | .error (_, s) => .error (.cancel s)
      | .ok (s, x) =>
        let s := s.drainStep t x.pa x.len
        let pa := s.spanAt x
        if hbmEnd ≤ pa then .error (.cancel s)
        else if !s.onceRoom pa x.len then .error (.wait s)
        else
          let s := (((s.makeOnce c.region pa x.len).pokeE pa (bs.take x.len)).dropLines t x.pa x.len).dropLines t pa x.len
          oncePieces t c f (s.watched (c.issuer t) .eng pa x.len) (va + x.len) (bs.drop x.len)

/-- A beat of a decoding `promo`: what is left of one 128-byte line. It waits while the line's home has no room. -/
def promoBeat (t : BitVec 10) (c : Cmd) (out : List EByte) (p n : Nat) (s : State) : Except EStop State := do
  let s ← ready t c .write (c.opd + wd p) n s
  let s ← oncePieces t c n s (c.opd + wd p).toNat ((out.drop p).take n)
  .ok (s.reached t c (p + n))

/-- The beats of a decoding `promo`, line by line, up to where it stops. -/
def promoBeats (t : BitVec 10) (c : Cmd) (out : List EByte) (stop : Nat) : Nat → Nat → State → Except EStop State
  | 0, _, s => .ok s
  | k + 1, p, s =>
    if stop ≤ p then .ok s
    else do
      let n := min (128 - (c.opd.toNat + p) % 128) (stop - p)
      let s ← promoBeat t c out p n s
      promoBeats t c out stop k (p + n) s

/-- `promo` as it runs: kind 0 finishes when its blocks are RESIDENT, and finishes cancelled where
its interval does not translate any more (R358) or where its issuer has been reclaimed; the other kinds decode ahead, line by
line, and wait while a home that they write has no room (R156, R395). One whose issuer has been reclaimed stops at the next
4 KiB boundary of its destination (R75). -/
def runPromo (t : BitVec 10) (c : Cmd) (s : State) : CopyEffect :=
  if c.opb1 = 0 && c.cancelled then .error (.cancel s)
  else if c.opb1 = 0 then do
    let s ← ready t c .read c.opa c.opb.toNat s
    let (s, _, all) := cmdPieces t c .read c.opb.toNat s c.opa.toNat c.opb.toNat
    if all then .ok (s, true) else .error (.cancel s)
  else do
    let (s, out, why, all) ← decoded t c s
    let stop := stopPoint c c.progress out.length
    let s ← promoBeats t c out stop (out.length / 128 + 2) c.progress s
    if stop < out.length then .error (.cancel s) else decodedEnd t c why all s

end Sys2Proof.Machine
end

