-- ==== Sys2Proof/Machine/Draw.lean ====
section
/-! DEFINITION. The draw commands and `route` (R246 to R252, R377 to R386): filtering, drawing, and what each command
reads and writes. Scores, weights and probabilities are FP32 codes. -/

namespace Sys2Proof.Machine

/-! Filtering and drawing (R247 to R250). -/

/-- A candidate: its index and its logit. -/
structure Cand where
  index : Nat
  logit : Val
  deriving Repr

/-- A member of a filtered set: its index, its score s and its weight w (R248). -/
structure Member where
  index : Nat
  score : Nat
  weight : Nat
  deriving DecidableEq, Repr

/-- x goes before y: the larger score, the lower index among equal ones. -/
def Member.before (x y : Member) : Bool :=
  (f32 y.score).lt (f32 x.score) || ((f32 x.score).eq (f32 y.score) && decide (x.index ≤ y.index))

/-- The scores of candidates that stay in the set, without weights (R248 step 2). -/
def scored (tau : Nat) (l : List Cand) : List Member :=
  l.filterMap fun c =>
    let s := to32 (c.logit.mul (f32 tau))
    if nan32? s || s = ninf32 then none else some ⟨c.index, s, 0⟩

/-- FP32 codes summed in order, rounded at each step. -/
def sum32 (l : List Nat) : Nat := l.foldl add32 0

/-- The shortest prefix whose running sum is at least a bound; all of the list where there is none. Where the largest score
is +∞ its weight is exp2(∞ − ∞), a NaN, and so are the sums: no prefix reaches the bound, of which R248 does not speak, and
the whole list stays (DESIGN CHOICE, log 94). -/
def prefixTo (bound : Val) : Nat → List Member → List Member
  | _, [] => []
  | run, x :: r =>
    let run := add32 run x.weight
    if (f32 run).isNan || (f32 run).lt bound then x :: prefixTo bound run r else [x]

/-- Step 5 of R248 on a list in descending score. -/
def topP (p : Nat) (l : List Member) : List Member :=
  let v := f32 p
  if v.isNan || !(Val.zero.lt v) then l.take 1
  else if !(v.lt (f32 0x3F800000)) then l
  else prefixTo (f32 (mul32 p (sum32 (l.map (·.weight))))) 0 l

/-- Steps 2 to 5 of R248 on candidates that the mask leaves: the members in descending score. -/
def filterSet (tau k p : Nat) (l : List Cand) : List Member :=
  let ms := sortBy Member.before (scored tau l)
  match ms with
  | [] => []
  | top :: _ =>
    let ms := ms.map fun x => { x with weight := exp32 (sub32 x.score top.score) }
    topP p (if k = 0 then ms else ms.take k)

/-- Members in ascending index. -/
def ascending (l : List Member) : List Member := sortBy (fun x y => decide (x.index ≤ y.index)) l

/-- The uniform variate of a generator word (R247). -/
def uniform (r : Nat) : Val := .fin false (r / 256) (-24)

/-- The first of some weights whose running sum exceeds T, as an index and whether the last was taken for want of one
(R249). -/
def pickFrom (bound : Val) : Nat → List (Nat × Nat) → Nat × Bool
  | _, [] => (0, true)
  | run, (j, w) :: r =>
    let run := add32 run w
    if bound.lt (f32 run) then (j, false)
    else match r with
      | [] => (j, true)
      | _ => pickFrom bound run r

/-- One draw from weights in ascending index order (R249). -/
def drawFrom (l : List (Nat × Nat)) (r : Nat) : Nat × Bool :=
  pickFrom (f32 (to32 ((uniform r).mul (f32 (sum32 (l.map (·.2))))))) 0 l

/-- Indices and weights of a filtered set in ascending index. -/
def weights (l : List Member) : List (Nat × Nat) := (ascending l).map fun x => (x.index, x.weight)

/-- The probabilities of a filtered set (R250), in ascending index. -/
def probs (l : List Member) : List (Nat × Nat) :=
  let ws := weights l
  let total := sum32 (ws.map (·.2))
  ws.map fun x => (x.1, div32 x.2 total)

/-- A probability by its index; 0 elsewhere. -/
def probOf (l : List (Nat × Nat)) (j : Nat) : Nat :=
  match l.find? fun x => x.1 = j with
  | some x => x.2
  | none => 0

/-! The draw descriptor (R378). -/

/-- N. -/
def dwN (d : List Byte) : Nat := bits (wordAt d 0) 19 0
/-- LTAG. -/
def dwTag (d : List Byte) : BitVec 4 := BitVec.ofNat 4 (bits (wordAt d 0) 23 20)
/-- MODE. -/
def dwMode (d : List Byte) : Nat := bits (wordAt d 0) 25 24
/-- TOPK. -/
def dwTopk (d : List Byte) : Nat := bits (wordAt d 0) 51 32
/-- KEY. -/
def dwKey (d : List Byte) : Nat := (wordAt d 1).toNat
/-- CTR. -/
def dwCtr (d : List Byte) : Nat := (wordAt d 2).toNat
/-- TAU. -/
def dwTau (d : List Byte) : Nat := bits (wordAt d 3) 31 0
/-- TOPP. -/
def dwTopp (d : List Byte) : Nat := bits (wordAt d 3) 63 32
/-- LADDR. -/
def dwLaddr (d : List Byte) : Word := wd (bits (wordAt d 4) 55 0)
/-- MADDR. -/
def dwMaddr (d : List Byte) : Word := wd (bits (wordAt d 5) 55 0)
/-- XADDR. -/
def dwXaddr (d : List Byte) : Word := wd (bits (wordAt d 6) 55 0)
/-- DRAFT. -/
def dwDraft (d : List Byte) : Nat := bits (wordAt d 7) 31 0

/-- Word i of the generator for a command (R246). -/
def dwGen (d : List Byte) (i : Nat) : Nat := gen (dwKey d) ((dwCtr d + i) % 2 ^ 64)

/-- The draw forms. -/
inductive DrawForm where
  | rng | topk | gmask | draw | drawv | accept
  deriving DecidableEq, Repr

/-- The reserved bits of a draw descriptor are 0, N is not, and MODE is assigned. -/
def dwForm (f : DrawForm) (d : List Byte) : Bool :=
  dwN d ≠ 0 && bits (wordAt d 0) 31 26 = 0 && bits (wordAt d 0) 63 52 = 0 && bits (wordAt d 4) 63 56 = 0 &&
    bits (wordAt d 5) 63 56 = 0 && bits (wordAt d 6) 63 56 = 0 && bits (wordAt d 7) 63 32 = 0 &&
    !(f = .accept && dwMode d = 3)

/-- A tag of logits. -/
def logitTag (t : BitVec 4) : Bool := t = 1 || t = 2 || t = 3

/-- The form draws in two stages (R383). -/
def DrawForm.twoStage (f : DrawForm) (d : List Byte) : Bool := f = .drawv || (f = .accept && dwMode d ≠ 1)

/-- The form is the residual mode of `accept`. -/
def DrawForm.residual (f : DrawForm) (d : List Byte) : Bool := f = .accept && dwMode d = 1

/-- Bytes of n elements of a logit tag. -/
def logitBytes (t : BitVec 4) (n : Nat) : Nat := n * (tagWidth t / 8)

/-- Bytes of a form's output (R377). -/
def DrawForm.outBytes (f : DrawForm) (d : List Byte) : Nat :=
  match f with
  | .rng => 4 * dwN d
  | .topk => 8 + 8 * dwN d
  | .gmask => logitBytes (dwTag d) (dwN d)
  | .draw => 8
  | .drawv => 16
  | .accept => 16

/-- The areas that a descriptor names directly, read by the form. -/
def DrawForm.areas (f : DrawForm) (d : List Byte) : List (Word × Nat) :=
  if f = .rng then []
  else
    (dwLaddr d, logitBytes (dwTag d) (dwN d)) ::
      ((if dwMaddr d = 0 then [] else [(dwMaddr d, (dwN d + 7) / 8)]) ++
        if f.twoStage d then [(dwXaddr d, 64)]
        else if f.residual d then [(dwXaddr d, logitBytes (dwTag d) (dwN d))]
        else [])

/-- Areas translated for reading at issue. -/
def readAreas : List (Word × Nat) → State → Except Stop (State × List Span)
  | [], s => .ok (s, [])
  | (va, n) :: r, s => do
    let (s, l) ← operand s va n .read
    let (s, m) ← readAreas r s
    .ok (s, l ++ m)

/-- A draw command at issue (R375, R377, R378). -/
def issueDraw (i : Instr) (f : DrawForm) (d a : BitVec 5) (s : State) : Body := do
  let _ ← commandPoint s ctxDraw
  let va := s.g a
  let (s, desc) ← readDesc s va
  let _ ← need s (dwForm f desc) .reservedField
  let _ ← need s (f = .rng || logitTag (dwTag desc)) .formatOperand
  let _ ← need s (!(f.twoStage desc && (dwXaddr desc = 0 || dwMaddr desc ≠ 0)) && !(f.residual desc && dwXaddr desc = 0))
    .reservedField
  let _ ← if f.twoStage desc then checkAligned s (dwXaddr desc) 64 else .ok ()
  let (s, src) ← readAreas (f.areas desc) s
  let (s, dst) ← localOperand s (s.g d) (f.outBytes desc) .write
  let s ← if f = .accept && dwMode desc = 2 then do
      let (s, block) ← loadChecked s (dwXaddr desc) 64 64
      let _ ← need s (bits (wordAt block 3) 55 0 ≠ 0) .maskMissing
      .ok s
    else .ok s
  let _ ← checkWrites s dst
  let t := s.cur.tile
  .ok ((s.enterCmd { s.newCmd i ctxDraw with
    opa := va, opd := s.g d, desc := desc, reads := ownIntervals t src, writes := ownIntervals t dst }).advance 4)

/-- `rng gd, ga`. -/
def execRng (d a : BitVec 5) (s : State) : Host.Outcome State Fault Refusal := settle (issueDraw (.rng d a) .rng d a s)
/-- `topk gd, ga`. -/
def execTopk (d a : BitVec 5) (s : State) : Host.Outcome State Fault Refusal := settle (issueDraw (.topk d a) .topk d a s)
/-- `gmask gd, ga`. -/
def execGmask (d a : BitVec 5) (s : State) : Host.Outcome State Fault Refusal :=
  settle (issueDraw (.gmask d a) .gmask d a s)
/-- `draw gd, ga`. -/
def execDraw (d a : BitVec 5) (s : State) : Host.Outcome State Fault Refusal := settle (issueDraw (.draw d a) .draw d a s)
/-- `drawv gd, ga`. -/
def execDrawv (d a : BitVec 5) (s : State) : Host.Outcome State Fault Refusal :=
  settle (issueDraw (.drawv d a) .drawv d a s)
/-- `accept gd, ga`. -/
def execAccept (d a : BitVec 5) (s : State) : Host.Outcome State Fault Refusal :=
  settle (issueDraw (.accept d a) .accept d a s)

/-! Reads of a running draw command. -/

/-- What a running command has read: the state, and whether a byte was poisoned. -/
structure Reader where
  s : State
  bad : Bool

/-- n bytes read. -/
def Reader.read (t : BitVec 10) (c : Cmd) (va : Word) (n : Nat) (r : Reader) : Except EStop (Reader × List Byte) :=
  if n = 0 then .ok (r, [])
  else do
    let s ← ready t c .read va n r.s
    let (s, bs) ← readAll t c va n s
    .ok (⟨s, r.bad || bs.any (·.2)⟩, bs.map (·.1))

/-- The values of elements of a tag in bytes. -/
def valuesOf (tag : BitVec 4) (bs : List Byte) : List Val :=
  (chunks (tagWidth tag / 8) bs).map fun x => match tagFmt tag with
    | some f => f.value (leNat x)
    | none => .zero

/-- n values of a tag read. -/
def Reader.values (t : BitVec 10) (c : Cmd) (tag : BitVec 4) (va : Word) (n : Nat) (r : Reader) :
    Except EStop (Reader × List Val) := do
  let (r, bs) ← r.read t c va (n * (tagWidth tag / 8))
  .ok (r, valuesOf tag bs)

/-- Bits first to first + count - 1 of a mask, in the bit order of R378; an address of 0 gives ones. -/
def Reader.mask (t : BitVec 10) (c : Cmd) (va : Word) (first count : Nat) (r : Reader) :
    Except EStop (Reader × List Bool) :=
  if va = 0 || count = 0 then .ok (r, List.replicate count true)
  else do
    let lo := first / 8
    let (r, bs) ← r.read t c (va + wd lo) ((first + count - 1) / 8 - lo + 1)
    let m := leNat bs
    .ok (r, (List.range count).map fun i => m.testBit (first - 8 * lo + i))

/-- Candidates whose mask bit is 1. -/
def candidates (l : List Val) (m : List Bool) : List Cand :=
  (l.zip m).zipIdx.filterMap fun x => if x.1.2 then some ⟨x.2, x.1.1⟩ else none

/-- The flat candidates of a command, with logits at an address. -/
def Reader.flat (t : BitVec 10) (c : Cmd) (va : Word) (r : Reader) : Except EStop (Reader × List Cand) := do
  let d := c.desc
  let (r, xs) ← r.values t c (dwTag d) va (dwN d)
  let (r, m) ← r.mask t c (dwMaddr d) 0 (dwN d)
  .ok (r, candidates xs m)

/-- The filtered set of a command. -/
def dwFilter (d : List Byte) (l : List Cand) : List Member := filterSet (dwTau d) (dwTopk d) (dwTopp d) l

/-- The status word of R252. -/
def status (token : Nat) (acc rz bonus last : Bool) (nset : Nat) : List Byte :=
  leBytes 8 (token % 2 ^ 32 + nb acc * 2 ^ 32 + nb rz * 2 ^ 33 + nb bonus * 2 ^ 34 + nb last * 2 ^ 35
    + min nset 4095 * 2 ^ 36)

/-- An output of a draw command. -/
abbrev Drawn := Except EStop (Reader × List Byte)

/-- A stop that R376 leaves for the activation. -/
def Reader.stop {α : Type} (r : Reader) (c : Cause) : Except EStop α := .error (.fault c r.s)

/-! `topk` and `draw` (R381, R382). -/

/-- What `topk` writes. -/
def topkOut (t : BitVec 10) (c : Cmd) (r : Reader) : Drawn := do
  let (r, cs) ← r.flat t c (dwLaddr c.desc)
  let ms := dwFilter c.desc cs
  if ms.isEmpty then r.stop .drawEmptySet
  else .ok (r, leBytes 4 ms.length ++ leBytes 4 (sum32 ((weights ms).map (·.2))) ++
    ms.flatMap fun x => leBytes 4 x.index ++ leBytes 4 x.weight)

/-- What `draw` writes. -/
def drawOut (t : BitVec 10) (c : Cmd) (r : Reader) : Drawn := do
  let (r, cs) ← r.flat t c (dwLaddr c.desc)
  let ms := dwFilter c.desc cs
  if ms.isEmpty then r.stop .drawEmptySet
  else
    let (tok, last) := drawFrom (weights ms) (dwGen c.desc 0)
    .ok (r, status tok false false false last ms.length)

/-! Two stages (R383, R384). -/

/-- The two-stage block. -/
structure Block2 where
  ctab : Word
  haddr : Word
  dim : Nat
  tmaddr : Word

/-- A cluster: FIRST, COUNT and SLICE. -/
structure Cluster where
  first : Nat
  count : Nat
  slice : Word

/-- The fields of a two-stage block are in their ranges (R383). -/
def block2Form (b : List Byte) : Bool :=
  let n := bits (wordAt b 2) 12 0
  bits (wordAt b 0) 63 56 = 0 && bits (wordAt b 1) 63 56 = 0 && bits (wordAt b 2) 63 13 = 0 &&
    bits (wordAt b 3) 63 56 = 0 && (b.drop 32).all (fun x => x = 0) && 16 ≤ n && n ≤ 4096 && n % 16 = 0

/-- The two-stage block read as the command starts. -/
def Reader.block2 (t : BitVec 10) (c : Cmd) (r : Reader) : Except EStop (Reader × Block2) := do
  let (r, b) ← r.read t c (dwXaddr c.desc) 64
  if block2Form b then
    .ok (r, ⟨wd (bits (wordAt b 0) 55 0), wd (bits (wordAt b 1) 55 0), bits (wordAt b 2) 12 0, wd (bits (wordAt b 3) 55 0)⟩)
  else r.stop .reservedField

/-- The cluster entry in 16 bytes. -/
def clusterOfBytes (b : List Byte) : Cluster :=
  ⟨bits (wordAt b 0) 31 0, bits (wordAt b 0) 51 32, wd (bits (wordAt b 1) 55 0)⟩

/-- A command draws in two stages. -/
def Cmd.twoStage (c : Cmd) : Bool :=
  match c.insn with
  | .drawv _ _ => true
  | .accept _ _ => dwMode c.desc ≠ 1
  | _ => false

/-- The pieces of an interval that a command reads, and the bytes that they hold. -/
def State.seenBy (s : State) (t : BitVec 10) (c : Cmd) (va : Word) (n : Nat) : List Span :=
  s.piecesSeen t c.region c.who .read n va.toNat n

/-- The bytes that a command would read at an address. -/
def State.bytesSeen (s : State) (t : BitVec 10) (c : Cmd) (va : Word) (n : Nat) : List Byte :=
  (s.seenBy t c va n).flatMap fun x => s.peek (s.spanAt x) x.len

/-- The areas that a two-stage block names, as memory holds it: cluster table, hidden vector, and the token mask and the
slice of each cluster (R383). -/
def State.blockAreas (s : State) (t : BitVec 10) (c : Cmd) : List (Word × Nat) :=
  let b := s.bytesSeen t c (dwXaddr c.desc) 64
  if b.length ≠ 64 || !block2Form b then []
  else
    let ctab := wd (bits (wordAt b 0) 55 0)
    let dim := bits (wordAt b 2) 12 0
    let tm := wd (bits (wordAt b 3) 55 0)
    let ks := (chunks 16 (s.bytesSeen t c ctab (16 * dwN c.desc))).map clusterOfBytes
    let cluster (k : Cluster) : List (Word × Nat) :=
      if k.count = 0 then []
      else
        let mask := (tm + wd (k.first / 8), (k.first + k.count - 1) / 8 + 1 - k.first / 8)
        (k.slice, 2 * dim * k.count) :: if tm = 0 then [] else [mask]
    (ctab, 16 * dwN c.desc) :: (wd (bits (wordAt b 1) 55 0), 4 * dim) :: ks.flatMap cluster

/-- A waiting command with its whole footprint (R117): a two-stage draw reads what its block names, as the block stands
(DEDUCED, log 64). -/
def State.footprint (s : State) (t : BitVec 10) (c : Cmd) : Cmd :=
  if c.twoStage && !c.running then
    { c with reads := c.reads ++ (s.blockAreas t c).flatMap fun x => ownIntervals t (s.seenBy t c x.1 x.2) }
  else c

/-- A tile whose commands have their whole footprints. -/
def State.scoreboard (s : State) (t : BitVec 10) : Tile :=
  { s.tile t with cmds := (s.tile t).cmds.map (s.footprint t) }

/-- Which clusters are candidates: those with a token whose mask bit is 1 (R249, R383). -/
def clusterMask (t : BitVec 10) (c : Cmd) (tm : Word) : List Cluster → Reader → Except EStop (Reader × List Bool)
  | [], r => .ok (r, [])
  | k :: ks, r => do
    let (r, m) ← r.mask t c tm k.first k.count
    let (r, l) ← clusterMask t c tm ks r
    .ok (r, m.any (fun x => x) :: l)

/-- The logits of the tokens of a cluster whose mask bit is 1 (R384). -/
def tokenCands (t : BitVec 10) (c : Cmd) (b : Block2) (h : List Val) (k : Cluster) (m : List Bool) :
    Nat → Reader → Except EStop (Reader × List Cand)
  | 0, r => .ok (r, [])
  | n + 1, r => do
    let i := k.count - (n + 1)
    if m[i]?.getD false then do
      let (r, row) ← r.values t c 2 (k.slice + wd (2 * b.dim * i)) b.dim
      let (r, l) ← tokenCands t c b h k m n r
      .ok (r, ⟨i, f32 (to32 (Val.sum (List.zipWith Val.mul h row)))⟩ :: l)
    else tokenCands t c b h k m n r

/-- The filtered token set of a cluster. -/
def tokenSet (t : BitVec 10) (c : Cmd) (b : Block2) (h : List Val) (k : Cluster) (r : Reader) :
    Except EStop (Reader × List Member) := do
  let (r, m) ← r.mask t c b.tmaddr k.first k.count
  let (r, cs) ← tokenCands t c b h k m k.count r
  .ok (r, dwFilter c.desc cs)

/-- The two-stage draw (R384). -/
def drawTwo (t : BitVec 10) (c : Cmd) (b : Block2) (h : List Val) (ks : List Cluster) (cset : List Member) (bonus : Bool)
    (r : Reader) : Drawn := do
  if cset.isEmpty then r.stop .drawEmptySet
  else
    let (j, _) := drawFrom (weights cset) (dwGen c.desc 0)
    let k := ks[j]?.getD ⟨0, 0, 0⟩
    let (r, ms) ← tokenSet t c b h k r
    if ms.isEmpty then r.stop .drawEmptySet
    else
      let (i, last) := drawFrom (weights ms) (dwGen c.desc 1)
      .ok (r, status (k.first + i) false false bonus last ms.length ++ leBytes 8 (j % 2 ^ 20))

/-- The membership test of a draft token: the filtered set of its cluster, if it passes (R250, R385). Of several entries of
the cluster table that include the token, the one of the lowest index is its cluster (DESIGN CHOICE, log 85). -/
def membership (t : BitVec 10) (c : Cmd) (b : Block2) (h : List Val) (ks : List Cluster) (cset : List Member) (r : Reader) :
    Except EStop (Reader × Option (Nat × Nat)) :=
  let d := dwDraft c.desc
  match ks.findIdx? fun k => k.first ≤ d && d < k.first + k.count with
  | none => .ok (r, none)
  | some j =>
    if cset.any fun x => x.index = j then do
      let k := ks[j]?.getD ⟨0, 0, 0⟩
      let (r, ms) ← tokenSet t c b h k r
      .ok (r, if ms.any fun x => k.first + x.index = d then some (j, ms.length) else none)
    else .ok (r, none)

/-- What `drawv` and `accept` in modes 0 and 2 write (R384, R385). -/
def twoOut (t : BitVec 10) (c : Cmd) (test bonus : Bool) (r : Reader) : Drawn := do
  let d := c.desc
  let (r, b) ← r.block2 t c
  let (r, tab) ← r.read t c b.ctab (16 * dwN d)
  let ks := (chunks 16 tab).map clusterOfBytes
  let (r, xs) ← r.values t c (dwTag d) (dwLaddr d) (dwN d)
  let (r, m) ← clusterMask t c b.tmaddr ks r
  let cset := dwFilter d (candidates xs m)
  let (r, h) ← r.values t c 1 b.haddr b.dim
  let (r, hit) ← if test then membership t c b h ks cset r else .ok (r, none)
  match hit with
  | some (j, n) => .ok (r, status (dwDraft d) true false false false n ++ leBytes 8 (j % 2 ^ 20))
  | none => drawTwo t c b h ks cset bonus r

/-! Residual mode (R250, R385). -/

/-- The residuals r_j over the target's set. -/
def residuals (p q : List (Nat × Nat)) : List (Nat × Nat) :=
  p.map fun x => (x.1, to32 ((f32 (sub32 x.2 (probOf q x.1))).max .zero))

/-- What `accept` in mode 1 writes. -/
def residualOut (t : BitVec 10) (c : Cmd) (r : Reader) : Drawn := do
  let d := c.desc
  let (r, cs) ← r.flat t c (dwLaddr d)
  let (r, qs) ← r.flat t c (dwXaddr d)
  let ms := dwFilter d cs
  if ms.isEmpty then r.stop .drawEmptySet
  else
    let p := probs ms
    let q := probs (dwFilter d qs)
    let tok := dwDraft d
    if ((uniform (dwGen d 0)).mul (f32 (probOf q tok))).lt (f32 (probOf p tok)) then
      .ok (r, status tok true false false false ms.length ++ leBytes 8 0)
    else
      let res := residuals p q
      let rz := sum32 (res.map (·.2)) = 0
      let (tok, last) := drawFrom (if rz then p else res) (dwGen d 1)
      .ok (r, status tok false rz false last ms.length ++ leBytes 8 0)

/-! The commands as they run. -/

/-- A command's output written whole, poisoned where an input byte was (R425). -/
def writeDrawn (t : BitVec 10) (c : Cmd) (o : Drawn) : CopyEffect := do
  let (r, out) ← o
  let s ← writeAll t c c.opd (out.map fun b => (b, r.bad)) r.s
  .ok (s, true)

/-- A form that reads before it writes. -/
def runDrawn (t : BitVec 10) (c : Cmd) (f : Reader → Drawn) (s : State) : CopyEffect := writeDrawn t c (f ⟨s, false⟩)

/-- `rng` as it runs (R379). -/
def runRng (t : BitVec 10) (c : Cmd) (s : State) : CopyEffect := do
  let out := (List.range (dwN c.desc)).flatMap fun i => leBytes 4 (dwGen c.desc i)
  let s ← writeAll t c c.opd (out.map fun b => (b, false)) s
  .ok (s, true)

/-- `topk` as it runs. -/
def runTopk (t : BitVec 10) (c : Cmd) (s : State) : CopyEffect := runDrawn t c (topkOut t c) s

/-- `draw` as it runs. -/
def runDraw (t : BitVec 10) (c : Cmd) (s : State) : CopyEffect := runDrawn t c (drawOut t c) s

/-- `drawv` as it runs. -/
def runDrawv (t : BitVec 10) (c : Cmd) (s : State) : CopyEffect := runDrawn t c (twoOut t c false false) s

/-- `accept` as it runs. -/
def runAccept (t : BitVec 10) (c : Cmd) (s : State) : CopyEffect :=
  if dwMode c.desc = 1 then runDrawn t c (residualOut t c) s
  else runDrawn t c (twoOut t c (dwMode c.desc = 0) (dwMode c.desc = 2)) s

/-- `gmask` as it runs (R380, R425): element by element. -/
def runGmask (t : BitVec 10) (c : Cmd) (s : State) : CopyEffect := do
  let d := c.desc
  let n := dwN d
  let w := tagWidth (dwTag d) / 8
  let m := dwMaddr d
  let s ← ready t c .read (dwLaddr d) (n * w) s
  let s ← if m = 0 then .ok s else ready t c .read m ((n + 7) / 8) s
  let (s, bs) ← readAll t c (dwLaddr d) (n * w) s
  let (s, mask) ← if m = 0 then .ok (s, []) else readAll t c m ((n + 7) / 8) s
  let ninf := match tagFmt (dwTag d) with
    | some f => f.pack .rne (.inf true)
    | none => 0
  let one (x : List EByte × Nat) : List EByte :=
    let b := if m = 0 then (0xFF, false) else mask[x.2 / 8]?.getD (0, false)
    let e := eNat x.1
    eBytes w (if b.1.toNat.testBit (x.2 % 8) then e.1 else ninf, e.2 || b.2)
  let s ← writeAll t c c.opd ((chunks w bs).zipIdx.flatMap one) s
  .ok (s, true)

/-! `route` (R386). -/

/-- T. -/
def rtTokens (d : List Byte) : Nat := bits (wordAt d 0) 12 0
/-- K. -/
def rtRanks (d : List Byte) : Nat := bits (wordAt d 0) 16 13
/-- The number of experts. -/
def rtExperts (d : List Byte) : Nat := bits (wordAt d 0) 28 17 + 1
/-- LTAG. -/
def rtTag (d : List Byte) : BitVec 4 := BitVec.ofNat 4 (bits (wordAt d 0) 32 29)
/-- ROWB. -/
def rtRow (d : List Byte) : Nat := bits (wordAt d 0) 45 33
/-- LADDR. -/
def rtLaddr (d : List Byte) : Word := wd (bits (wordAt d 1) 55 0)
/-- XADDR. -/
def rtXaddr (d : List Byte) : Word := wd (bits (wordAt d 2) 55 0)
/-- DADDR. -/
def rtDaddr (d : List Byte) : Word := wd (bits (wordAt d 3) 55 0)
/-- TAU. -/
def rtTau (d : List Byte) : Nat := bits (wordAt d 4) 31 0

/-- The fields of a router descriptor are in their limits. -/
def rtForm (d : List Byte) : Bool :=
  1 ≤ rtTokens d && rtTokens d ≤ 4096 && 1 ≤ rtRanks d && rtRanks d ≤ 8 && rtRow d ≤ 4096 &&
    bits (wordAt d 0) 63 46 = 0 && bits (wordAt d 1) 63 56 = 0 && bits (wordAt d 2) 63 56 = 0 &&
    bits (wordAt d 3) 63 56 = 0 && bits (wordAt d 4) 63 32 = 0 && (d.drop 40).all fun x => x = 0

/-- The areas that `route` reads. -/
def rtAreas (d : List Byte) : List (Word × Nat) :=
  [(rtLaddr d, logitBytes (rtTag d) (rtTokens d * rtExperts d)), (rtXaddr d, rtTokens d * rtRow d),
   (rtDaddr d, 8 * rtExperts d)]

/-- `route gd, ga, sc` at issue. -/
def execRoute (d a : BitVec 5) (c : BitVec 4) (s : State) : Host.Outcome State Fault Refusal :=
  settle do
    let _ ← commandPoint s ctxExchange
    let sets ← useScope s c
    let va := s.g a
    let (s, desc) ← readDesc s va
    let _ ← need s (rtForm desc) .reservedField
    let _ ← need s (logitTag (rtTag desc)) .formatOperand
    let (s, src) ← readAreas (rtAreas desc) s
    let (s, dst) ← localOperand s (s.g d) (8 * rtTokens desc * rtRanks desc) .write
    let _ ← checkHeld s false
    let t := s.cur.tile
    .ok ((s.enterCmd { s.newCmd (.route d a c) ctxExchange with
      opa := va, opd := s.g d, opb1 := wd (nb s.privileged), desc := desc, sets := some sets,
      reads := ownIntervals t src, writes := ownIntervals t dst }).advance 4)

/-- The experts that a token goes to, in the order of ranks, with their weights. -/
def rtChoose (tau k : Nat) (logits : List Val) : List (Nat × Nat) :=
  let ms := (sortBy Member.before (scored tau (logits.zipIdx.map fun x => ⟨x.2, x.1⟩))).take k
  match ms with
  | [] => []
  | top :: _ =>
    let ws := ms.map fun x => (x.index, exp32 (sub32 x.score top.score))
    let total := sum32 (ws.map (·.2))
    ws.map fun x => (x.1, div32 x.2 total)

/-- A message that `route` emits. -/
structure Routed where
  dest : Word
  arg : Word
  payload : List Byte

/-- What `route` does for one token: its records, its messages, and whether all went well. Poison counts in its logits
and in its payload (R425); a destination word is used as it stands (log 32). -/
def rtToken (ok : Word → Bool) (d : List Byte) (n : Nat) (logits payload : List EByte) (dests : List EElem) :
    List EByte × List Routed × Bool :=
  let chosen := rtChoose (rtTau d) (rtRanks d) (valuesOf (rtTag d) (logits.map (·.1)))
  let bad := logits.any (·.2) || payload.any (·.2)
  let dest (e : Nat) : Word := wd (dests[e]?.getD (0, false)).1
  let record (k : Nat) : List EByte :=
    match chosen[k]? with
    | some (e, w) => eBytes 4 (if ok (dest e) then e else 0xFFFFFFFF, bad) ++ eBytes 4 (w, bad)
    | none => eBytes 4 (0xFFFFFFFF, bad) ++ eBytes 4 (0, bad)
  let messages := chosen.zipIdx.filterMap fun x =>
    if ok (dest x.1.1) then
      some ⟨dest x.1.1, wd (n + x.2 * 2 ^ 16 + x.1.2 * 2 ^ 32), payload.map (·.1)⟩
    else none
  ((List.range (rtRanks d)).flatMap record, if bad then [] else messages, !bad && chosen.all fun x => ok (dest x.1))

/-- `route` as it runs. No message leaves before everything has been read. -/
def runRoute (t : BitVec 10) (c : Cmd) (s : State) : CopyEffect := do
  let d := c.desc
  let nl := logitBytes (rtTag d) (rtTokens d * rtExperts d)
  let nx := rtTokens d * rtRow d
  let s ← ready t c .read (rtLaddr d) nl s
  let s ← ready t c .read (rtXaddr d) nx s
  let s ← ready t c .read (rtDaddr d) (8 * rtExperts d) s
  let (s, ls) ← readAll t c (rtLaddr d) nl s
  let (s, xs) ← readAll t c (rtXaddr d) nx s
  let (s, ds) ← readAll t c (rtDaddr d) (8 * rtExperts d) s
  let dests := eElems 64 ds
  let ok (x : Word) : Bool := s.destOkFor c.region (c.opb1 = 1) x
  let rowl := nl / rtTokens d
  let all := (List.range (rtTokens d)).map fun n =>
    rtToken ok d n ((ls.drop (rowl * n)).take rowl) ((xs.drop (rtRow d * n)).take (rtRow d)) dests
  let s ← writeAll t c c.opd (all.flatMap (·.1)) s
  let s := (all.flatMap (·.2.1)).foldl (fun s m => s.sendMessage t c.region m.dest m.arg 0 m.payload c.sets) s
  .ok (s, all.all (·.2.2))

end Sys2Proof.Machine
end

