-- ==== Sys2Proof/Machine/Exchange.lean ====
section
/-! DEFINITION. The exchange commands `coll` and `ring` (R392, R393): their checks at issue, and the transfers between
members as they run. A transfer between two tiles counts once as emitted and once as received (R219, R220). -/

namespace Sys2Proof.Machine

/-! `coll` (R392). -/

/-- OP of a collective. -/
def collOp (d : List Byte) : Nat := bits (wordAt d 0) 2 0
/-- TAG of a collective. -/
def collTag (d : List Byte) : BitVec 4 := BitVec.ofNat 4 (bits (wordAt d 0) 6 3)
/-- SEQ of a collective. -/
def collSeq (d : List Byte) : Nat := bits (wordAt d 0) 63 32
/-- COUNT of a collective. -/
def collCount (d : List Byte) : Nat := bits (wordAt d 1) 19 0
/-- ROOT of a collective. -/
def collRoot (d : List Byte) : Nat := bits (wordAt d 1) 29 20
/-- SRC of a collective. -/
def collSrc (d : List Byte) : Word := wd (bits (wordAt d 2) 55 0)
/-- DST of a collective. -/
def collDst (d : List Byte) : Word := wd (bits (wordAt d 3) 55 0)

/-- The fields of a collective's descriptor are in their ranges. -/
def collForm (d : List Byte) : Bool :=
  collOp d < 5 && bits (wordAt d 0) 31 7 = 0 && collCount d ≠ 0 && bits (wordAt d 1) 63 30 = 0

/-- The formats that a collective accepts (R235, R392). -/
def collFormat (d : List Byte) : Bool := collTag d = 1 || collTag d = 2 || collTag d = 11

/-- The bytes of one member's input. -/
def collBytes (d : List Byte) : Nat := collCount d * (tagWidth (collTag d) / 8)

/-- The bytes of a member's output among n members. -/
def collOut (d : List Byte) (n : Nat) : Nat := if collOp d = 3 then n * collBytes d else collBytes d

/-- Two commands are parts of one exchange: of one region and scope. -/
def Cmd.sameGroup (c d : Cmd) : Bool := c.region = d.region && c.sets = d.sets

/-- A command is a `coll` with a number. -/
def Cmd.isColl (c d : Cmd) : Bool :=
  c.sameGroup d && collSeq c.desc = collSeq d.desc && match d.insn with
    | .coll _ _ => true
    | _ => false

/-- A `coll` issued where its tile has an unfinished one with the same scope and SEQ (R392). -/
def State.secondColl (s : State) (c : Cmd) : Bool := (s.tile s.cur.tile).cmds.any c.isColl

/-- `coll ga, sc` at issue. Whether it is a second one of an unfinished (scope, SEQ) is judged now (R392). -/
def execColl (a : BitVec 5) (c : BitVec 4) (s : State) : Host.Outcome State Fault Refusal :=
  settle do
    let _ ← commandPoint s ctxExchange
    let sets ← useScope s c
    let (s, desc) ← readDesc s (s.g a)
    let _ ← need s (collForm desc) .reservedField
    let _ ← need s (collFormat desc) .formatOperand
    let (s, src) ← localOperand s (collSrc desc) (collBytes desc) .read
    let (s, dst) ← localOperand s (collDst desc) (collOut desc sets.tileList.length) .write
    let _ ← checkHeld s false
    let t := s.cur.tile
    let new : Cmd := { s.newCmd (.coll a c) ctxExchange with
      opa := s.g a, desc := desc, sets := some sets, reads := ownIntervals t src, writes := ownIntervals t dst }
    .ok ((if s.secondColl new then s.enterCancelled new else s.enterCmd new).advance 4)

/-- A command is of the single step that its thread makes now: the issuer of `sstep` waits for that step (R229). -/
def State.inStep (s : State) (t : BitVec 10) (c : Cmd) : Bool :=
  c.icnt = (s.thread ⟨t, c.thr⟩).icnt &&
    s.tiles.any fun x => x.2.threads.toList.any fun y => y.hold = Hold.stepping ⟨t, c.thr⟩

/-- The part of a member in the collective of a command: the first of that number on the member's tile, once it
runs. -/
def State.collPart (s : State) (c : Cmd) (i : BitVec 10) : Option Cmd :=
  match (s.tile i).cmds.find? fun d => c.isColl d with
  | some d => if d.running && !d.cancelled then some d else none
  | none => none

/-- The parts of all members, if every one has issued and runs. -/
def State.collParts (s : State) (c : Cmd) : List (BitVec 10) → Option (List (BitVec 10 × Cmd))
  | [] => some []
  | i :: r =>
    match s.collPart c i, s.collParts c r with
    | some d, some l => some ((i, d) :: l)
    | _, _ => none

/-- The members agree, and ROOT is one of them. -/
def collAgrees (c : Cmd) (members : List (BitVec 10)) (parts : List (BitVec 10 × Cmd)) : Bool :=
  members.contains (BitVec.ofNat 10 (collRoot c.desc)) &&
    parts.all fun p => collOp p.2.desc = collOp c.desc && collTag p.2.desc = collTag c.desc &&
      collCount p.2.desc = collCount c.desc && collRoot p.2.desc = collRoot c.desc

/-- The lane operation of a reduction. -/
def collLane (op : Nat) : LaneOp :=
  match op with
  | 0 => .add
  | 1 => .max
  | _ => .min

/-- Element by element, r = op(r, x). -/
def collFold (d : List Byte) (r x : List EElem) : List EElem :=
  List.zipWith (fun p q => ((collLane (collOp d)).apply (collTag d) p.1 q.1 0, p.2 || q.2)) r x

/-- What every member's output holds, given the inputs in the order of ranks. -/
def collResult (d : List Byte) (root : Nat) (xs : List (List EByte)) : List EByte :=
  let w := tagWidth (collTag d)
  if collOp d = 3 then xs.flatten
  else if collOp d = 4 then xs[root]?.getD []
  else match xs.map (eElems w) with
    | [] => []
    | x :: r => eJoin w (r.foldl (collFold d) x)

/-- The inputs of the parts read; a part whose input does not translate finishes cancelled alone. -/
def collRead : List (BitVec 10 × Cmd) → State → Except EStop (State × List (List EByte))
  | [], s => .ok (s, [])
  | (i, d) :: r, s =>
    match readAll i d (collSrc d.desc) (collBytes d.desc) s with
    | .ok (s, bs) => do
      let (s, l) ← collRead r s
      .ok (s, bs :: l)
    | .error (.cancel s) => .error (.wait (s.finishCmd i d false))
    | .error e => .error e

/-- The outputs of the parts written; each finishes. -/
def collWrite (out : List EByte) : List (BitVec 10 × Cmd) → State → Except EStop State
  | [], s => .ok s
  | (i, d) :: r, s =>
    match writeAll i d (collDst d.desc) out s with
    | .ok s => collWrite out r (s.finishCmd i d true)
    | .error (.cancel s) => collWrite out r (s.finishCmd i d false)
    | .error e => .error e

/-- A transfer from one tile to another counted (R219). -/
def State.countTransfer (s : State) (r : BitVec 16) (src dst : BitVec 10) : State :=
  let (colour, s) := s.emit src r
  s.modCut dst r fun c => c.recv colour

/-- Each member's transfers to every other counted. -/
def State.countAll (s : State) (r : BitVec 16) (members : List (BitVec 10)) : State :=
  members.foldl (fun s i => members.foldl (fun s j => if i = j then s else s.countTransfer r i j) s) s

/-- The place of a member among the ranks. -/
def rankOf (members : List (BitVec 10)) (i : BitVec 10) : Option Nat := members.findIdx? fun j => j = i

/-- The members of an exchange, in the order of their ranks. -/
def Cmd.members (c : Cmd) : List (BitVec 10) :=
  match c.sets with
  | some x => x.tileList
  | none => []

/-- A `coll` is the first of its tile with its scope and number (R392). -/
def State.firstColl (s : State) (t : BitVec 10) (c : Cmd) : Bool :=
  match (s.tile t).cmds.find? fun d => c.isColl d with
  | some d => d.same c
  | none => false

/-- A collective stands still: a tile of it has stopped (R220), and no part of it is of a single step, which runs to
completion (R229; DEDUCED, log 24). -/
def State.collStands (s : State) (c : Cmd) (parts : List (BitVec 10 × Cmd)) : Bool :=
  (c.members.any fun i => (s.cut i c.region).stopped) && !(parts.any fun p => s.inStep p.1 p.2)

/-- `coll` as it runs. It finishes on every member at once, when all of them run their parts and it does not stand
still. -/
def finishColl (t : BitVec 10) (c : Cmd) (s : State) : Except EStop State :=
  let members := c.members
  if !members.contains t || !s.firstColl t c then .ok (s.finishCmd t c false)
  else match s.collParts c members with
    | none => .error (.wait s)
    | some parts =>
      if s.collStands c parts then .error (.wait s)
      else if !collAgrees c members parts then .ok (parts.foldl (fun s p => s.finishCmd p.1 p.2 false) s)
      else do
        let (s, xs) ← collRead parts s
        let root := (rankOf members (BitVec.ofNat 10 (collRoot c.desc))).getD 0
        collWrite (collResult c.desc root xs) parts (s.countAll c.region members)

/-! `ring` (R393). -/

/-- Rows of a ring step. -/
def ringRows (d : List Byte) : Nat := bits (wordAt d 0) 5 0 + 1
/-- D of a ring step. -/
def ringDim (d : List Byte) : Nat := bits (wordAt d 0) 14 6
/-- STEP of a ring step. -/
def ringStep (d : List Byte) : Nat := bits (wordAt d 0) 63 32
/-- HELD of a ring step. -/
def ringHeld (d : List Byte) : Word := wd (bits (wordAt d 1) 55 0)
/-- FWD of a ring step. -/
def ringFwd (d : List Byte) : Word := wd (bits (wordAt d 2) 55 0)
/-- RCV of a ring step. -/
def ringRcv (d : List Byte) : Word := wd (bits (wordAt d 3) 55 0)

/-- The fields of a ring descriptor are in their ranges. -/
def ringForm (d : List Byte) : Bool :=
  16 ≤ ringDim d && ringDim d ≤ 256 && ringDim d % 16 = 0 && bits (wordAt d 0) 31 15 = 0 &&
    bits (wordAt d 1) 63 56 = 0 && bits (wordAt d 2) 63 56 = 0 && bits (wordAt d 3) 63 56 = 0 &&
    (d.drop 32).all fun x => x = 0

/-- The bytes of the rows of a ring step. -/
def ringBytes (d : List Byte) : Nat := ringRows d * rowSize (ringDim d)

/-- `ring ga, sc` at issue. -/
def execRing (a : BitVec 5) (c : BitVec 4) (s : State) : Host.Outcome State Fault Refusal :=
  settle do
    let _ ← commandPoint s ctxExchange
    let sets ← useScope s c
    let (s, desc) ← readDesc s (s.g a)
    let _ ← need s (ringForm desc) .reservedField
    let n := ringBytes desc
    let (s, held) ← localOperand s (ringHeld desc) n .write
    let (s, _) ← localOperand s (ringHeld desc) n .read
    let (s, fwd) ← localOperand s (ringFwd desc) n .read
    let (s, rcv) ← localOperand s (ringRcv desc) n .write
    let (s, _) ← localOperand s (ringRcv desc) n .read
    let _ ← checkHeld s false
    let t := s.cur.tile
    .ok ((s.enterCmd { s.newCmd (.ring a c) ctxExchange with
      opa := s.g a, desc := desc, sets := some sets, reads := ownIntervals t (held ++ fwd ++ rcv),
      writes := ownIntervals t (held ++ rcv) }).advance 4)

/-- The `ring` of a tile with the step of a command that has not received its rows. -/
def State.ringPart (s : State) (c : Cmd) (i : BitVec 10) : Option Cmd :=
  (s.tile i).cmds.find? fun d => c.sameGroup d && ringStep d.desc = ringStep c.desc && d.progress = 0 && !d.cancelled &&
    match d.insn with
      | .ring _ _ => true
      | _ => false

/-- The member after a tile, from the highest rank to rank 0. -/
def nextMember (members : List (BitVec 10)) (t : BitVec 10) : Option (BitVec 10) :=
  match rankOf members t with
  | some k => members[(k + 1) % members.length]?
  | none => none

/-- A row that holds a poisoned byte, poisoned whole (R425). -/
def smearRows (d : Nat) (l : List EByte) : List EByte :=
  (chunks (rowSize d) l).flatMap fun r => if r.any (·.2) then r.map fun b => (b.1, true) else r

/-- The state in which a tile's L1 has lost the lines that a command of another tile has written at an operand of its
own (R180). -/
def State.dropWritten (s : State) (t i : BitVec 10) (d : Cmd) (va : Word) (n : Nat) : State :=
  let r := cmdPieces i d .write n s va.toNat n
  r.2.1.foldl (fun s x => s.dropLines t (s.spanAt x) x.len) r.1

/-- The rows at FWD sent to the next member, if it has issued its `ring` of the step. -/
def ringSend (t : BitVec 10) (c : Cmd) (members : List (BitVec 10)) (s : State) : Except EStop State :=
  match nextMember members t with
  | none => .ok s
  | some i =>
    match s.ringPart c i with
    | none => .ok s
    | some d => do
      let (s, bs) ← readAll t c (ringFwd c.desc) (ringBytes c.desc) s
      let s := s.countTransfer c.region t i
      let s := s.modCmd t c fun x => { x with emitted := true }
      match writeAll i d (ringRcv d.desc) (smearRows (ringDim c.desc) bs) s with
      | .ok s =>
        let s := s.dropWritten t i d (ringRcv d.desc) (ringBytes c.desc)
        .ok (s.modCmd i d fun x => { x with progress := 1 })
      | .error (.cancel s) => .ok (s.finishCmd i d false)
      | .error e => .error e

/-- The bytes of a held row with the row that arrived merged into it (R209): D stays. -/
def mergeBytes (d : Nat) (a b : List EByte) : List EByte :=
  let r := Row.merge (rowOf a) (rowOf b)
  Row.bytes { r with o := r.o.take d } (rowD a) (a.any (·.2) || b.any (·.2))

/-- The rows that have arrived merged into the rows held. -/
def ringMerge (t : BitVec 10) (c : Cmd) (s : State) : Except EStop State := do
  let n := ringBytes c.desc
  let d := ringDim c.desc
  let (s, rcv) ← readAll t c (ringRcv c.desc) n s
  let (s, held) ← readAll t c (ringHeld c.desc) n s
  let out := (List.zipWith (mergeBytes d) (chunks (rowSize d) held) (chunks (rowSize d) rcv)).flatten
  let s ← writeAll t c (ringHeld c.desc) out s
  .ok (s.modCmd t c fun x => { x with progress := 2 })

/-- A `ring` that is held on a stopped tile sends its rows only to a part that is of a single step, which runs to completion
(R220, R229; DEDUCED, log 24). -/
def ringHolds (t : BitVec 10) (c : Cmd) (s : State) : Except EStop State :=
  match nextMember c.members t with
  | some i => match s.ringPart c i with
    | some d => if s.inStep i d && !c.emitted then do
        let s ← ringSend t c c.members s
        .error (.wait s)
      else .error (.wait s)
    | none => .error (.wait s)
  | none => .error (.wait s)

/-- `ring` as it runs: it sends, merges, and finishes when both are done. On a stopped tile it is held where it stands
(R220), but for one of a single step (R229). -/
def finishRing (t : BitVec 10) (c : Cmd) (s : State) : Except EStop State :=
  let members := c.members
  if !members.contains t then .ok (s.finishCmd t c false)
  else if members.length = 1 then .ok (s.finishCmd t c true)
  else if (s.cut t c.region).stopped && !s.inStep t c then ringHolds t c s
  else do
    let s ← if c.emitted then .ok s else ringSend t c members s
    let s ← if (s.cmdNow t c).progress = 1 then ringMerge t c s else .ok s
    let c := s.cmdNow t c
    if c.emitted && c.progress = 2 then .ok (s.finishCmd t c true) else .error (.wait s)

/-- A running `coll` or `ring` command waits for a partner's part (R220). -/
def State.awaitsPartner (s : State) (t : BitVec 10) (c : Cmd) : Bool :=
  c.running && !c.cancelled && c.members.contains t && match c.insn with
    | .coll _ _ =>
      s.firstColl t c && match s.collParts c c.members with
        | some l => s.collStands c l
        | none => true
    | .ring _ _ =>
      c.members.length ≠ 1 && c.progress ≠ 1 && (c.emitted || match nextMember c.members t with
        | some i => (s.ringPart c i).isNone
        | none => false)
    | _ => false

end Sys2Proof.Machine
end

