-- ==== Sys2Proof/Machine/Commands.lean ====
section
/-! DEFINITION. The events that start and finish engine commands (R114, R116, R117, R120), and the beats of running copies
(R119). -/

namespace Sys2Proof.Machine

/-- What a command does as it starts, beside running. -/
def startEffect (t : BitVec 10) (c : Cmd) (s : State) : State :=
  match c.insn with
  | .evict _ _ => startEvict t c s
  | .rmove _ _ _ => startRmove t c s
  | .promo _ _ _ _ => startPromo t c s
  | _ => s

/-- The command acts with the effective values of the activation that issued it (R58). -/
def State.asCommand (s : State) (c : Cmd) : State := s.actsFor (some c.eff)

/-- The outcome of a command's event, after which no activation acts. -/
def settled (o : Host.Outcome State Fault Refusal) : Host.Outcome State Fault Refusal :=
  match o with
  | .next s => .next (s.actsFor none)
  | o => o

/-- ENGINE_COMMAND_START (R116, R117, R120): a command that may start runs; its footprint is fixed now. -/
def State.startCommand (s : State) (t : BitVec 10) (n : Nat) : State :=
  match (s.tile t).cmds[n]? with
  | none => s
  | some c =>
    let s := s.asCommand c
    let c := s.footprint t c
    if !(s.scoreboard t).startable n c then s.actsFor none
    else
      let c := { c with running := true }
      let s := s.modCmd t c fun _ => c
      let s := if usesChannel c.insn then
          s.modTile t fun x => x.setChannel (channelOf c.thr) ⟨c.opd.setWidth 56, c.thr, true, false, false, some c.thr⟩
        else s
      (startEffect t c s).actsFor none

/-- ENGINE_COMMAND_START. -/
def execEngineCommandStart (tile : BitVec 10) (n : Nat) (s : State) : Host.Outcome State Fault Refusal :=
  .next (s.startCommand tile n)

/-- What the commands that finish in one effect do when they run. -/
def runEffect (t : BitVec 10) (c : Cmd) (s : State) : Effect :=
  match c.insn with
  | .tld d _ _ => runTld t c d s
  | .tldT d _ _ => runTldT t c d s
  | .tst d _ => runTst t c d s
  | .mma d a b => runMma t c d a b none s
  | .mmaS d a b k => runMma t c d a b (some k) s
  | .azero d => runAzero t c d s
  | .ald d _ => runAld t c d s
  | .ast d _ => runAst t c d s
  | .arow d a _ => runArow t c d a s
  | .attn _ _ _ => runAttn t c s
  | .attnFin _ _ => runAttnFin t c s
  | .rng _ _ => runRng t c s
  | .topk _ _ => runTopk t c s
  | .gmask _ _ => runGmask t c s
  | .draw _ _ => runDraw t c s
  | .drawv _ _ => runDrawv t c s
  | .accept _ _ => runAccept t c s
  | .route _ _ _ => runRoute t c s
  | .cpy _ _ _ => runCpy t c s
  | .cpyT _ _ _ => runCpyT t c s
  | .cpyMc _ _ _ _ => runCpyMc t c s
  | .gath _ _ => runGath t c s
  | .scat _ _ => runScat t c s
  | .promo _ _ _ _ => runPromo t c s
  | _ => .ok (s, true)

/-- The state in which a running command has been stopped where it stands: it finishes cancelled, and what it wrote remains;
its channel shows that it was cancelled while it streamed (R119, R358, R376). -/
def State.cutCmd (s : State) (t : BitVec 10) (c : Cmd) : State :=
  (if usesChannel c.insn then s.stopChannel t c else s).finishCmd t c false

/-- A running command's effect as the outcome of the event. -/
def finishWith (t : BitVec 10) (c : Cmd) (e : Effect) : Host.Outcome State Fault Refusal :=
  match e with
  | .ok (s, ok) => .next (s.finishCmd t c ok)
  | .error (.cancel s) => .next (s.cutCmd t c)
  | .error (.fault cause s) => .next ((s.defer t c (c.stopDeferred cause)).finishCmd t c false)
  | .error (.wait s) => .next s
  | .error (.hole pa) => .fault (.noMemory pa)

/-- An exchange's progress as the outcome of the event. -/
def exchanged (e : Except EStop State) : Host.Outcome State Fault Refusal :=
  match e with
  | .ok s => .next s
  | .error (.cancel s) => .next s
  | .error (.fault _ s) => .next s
  | .error (.wait s) => .next s
  | .error (.hole pa) => .fault (.noMemory pa)

/-- A running command finishes, or goes on as far as it can. -/
def finishRunning (t : BitVec 10) (c : Cmd) (s : State) : Host.Outcome State Fault Refusal :=
  match c.insn with
  | .rmove _ _ _ => .next s
  | .evict _ _ => .next (if c.cancelled then s.finishCmd t c false else finishEvict t c s)
  | .coll _ _ => if c.cancelled then .next (s.finishCmd t c false) else exchanged (finishColl t c s)
  | .ring _ _ =>
    if c.cancelled then .next (s.finishCmd t c false)
    else match finishRing t c s with
      | .error (.cancel s) => .next (s.finishCmd t c false)
      | e => exchanged e
  | _ => if c.cancelled && !streams c.insn then .next (s.finishCmd t c false) else finishWith t c (runEffect t c s)

/-- ENGINE_COMMAND_FINISH (R75, R114): a running command finishes, and one that was cancelled before it started finishes
cancelled. -/
def execEngineCommandFinish (tile : BitVec 10) (n : Nat) (s : State) : Host.Outcome State Fault Refusal :=
  match (s.tile tile).cmds[n]? with
  | none => .next s
  | some c =>
    if c.running then settled (finishRunning tile c (s.asCommand c))
    else .next (if c.cancelled then s.finishCmd tile c false else s)

/-- The next beat of a command that streams: its state, or where it waits or ends. -/
def nextBeat (t : BitVec 10) (c : Cmd) (s : State) : Except EStop State :=
  let p := c.progress
  let beat (n : Nat) (f : Nat → State → Except EStop State) : Except EStop State :=
    if stopPoint c p n ≤ p then .ok s else f (min 64 (stopPoint c p n - p)) s
  match c.insn with
  | .cpy _ _ _ => beat c.opb.toNat fun n => copyBeat t c p n
  | .cpyMc _ _ _ _ => beat c.opb.toNat fun n => multicastBeat t c p n
  | .cpyT _ _ _ => do
    let (s, out, _, _) ← decoded t c s
    if stopPoint c p out.length ≤ p then .ok s
    else decodedBeat t c out p (min 64 (stopPoint c p out.length - p)) s
  | .promo _ _ _ _ =>
    if c.opb1 = 0 then .ok s
    else do
      let (s, out, _, _) ← decoded t c s
      let stop := stopPoint c p out.length
      if stop ≤ p then .ok s
      else promoBeat t c out p (min (128 - (c.opd.toNat + p) % 128) (stop - p)) s
  | _ => .ok s

/-- One beat of a command that streams, where its operands are ready. A translation that fails stops the command at once
(R358, R376, R389). -/
def State.streamOne (s : State) (t : BitVec 10) (c : Cmd) : State :=
  if !c.running then s
  else match nextBeat t c (s.asCommand c) with
    | .ok s => s.actsFor none
    | .error (.wait s) => s.actsFor none
    | .error (.cancel s) => (s.cutCmd t c).actsFor none
    | .error (.fault cause s) => ((s.defer t c (c.stopDeferred cause)).finishCmd t c false).actsFor none
    | .error (.hole _) => s

/-- The beats of one cycle (R119). -/
def State.stream (s : State) : State :=
  s.tiles.foldl (fun s x => x.2.cmds.foldl (fun s c => s.streamOne (BitVec.ofNat 10 x.1) c) s) s

end Sys2Proof.Machine
end

