-- ==== Sys2Proof/Machine/AtHome.lean ====
section
/-! DEFINITION. What messages and decrements that take no queue entry do at their homes (R67, R68, R79, R124, R326): the
additions of a sum-into, and the lowering of dependence counters. -/

namespace Sys2Proof.Machine

/-- The state with the additions of a sum-into performed (R124): in rising order, each as an atomic at home. A poisoned
unit has the sum of its raw bytes and stays poisoned: the spec names no activation that could stop (DESIGN CHOICE, log
65). -/
def State.sumInto (s : State) (m : Message) : State :=
  let t := dTile m.dest
  let p := xParam m.xform
  if m.len = 0 then s
  else if 8192 * (s.tile t).spb < p + m.len then s.recordError t 5 4
  else (List.range (m.len / 4)).foldl (fun s i =>
    let pa := tileBase t.toNat + p + 4 * i
    let x := leNat ((m.payload.drop (4 * i)).take 4)
    s.performAt ⟨BitVec.ofNat 10 (bits m.msgid 55 46), 0, 0, m.msgid, 0⟩ .amo pa (leBytes 4 (add32 (s.peekNat pa 4) x))) s

/-- The word at a physical address lowered by k for a decrement from a tile, never below zero, as an atomic at home
(R67). Watch pairs see it; R227 gives it no thread, and none is named (DEDUCED, log 26). -/
def State.lower (s : State) (src : BitVec 10) (pa k : Nat) : State :=
  s.performAt ⟨src, 0, 0, 0, 0⟩ .amo pa (leBytes 8 (s.peekNat pa 8 - k))

/-- The state with a decrement's scope noted for the acquire of an activation that it may start (R68). -/
def State.noteAcquire (s : State) (h : Word) (x : Option Sets) : State :=
  s.modFibre h fun f => { f with acquires := f.acquires ++ x.toList }

/-- The counter of a group has reached zero (R79): its members become ready, and the completion future resolves if none
is left, as that of an empty group does now (R80). -/
def State.releaseGroup (s : State) (g : Word) (x : Future) : State :=
  let s := s.modFuture g fun x => { x with released := true }
  let s := x.members.foldl (fun s m => s.wakeCounter m) s
  if x.gleft = 0 && x.fstat = .pending then
    let s := s.resolve g 0
    (if x.detach then s.dropRef g else s).tryFree g
  else s

/-- The state with a decrement applied at the handle's home (R67, R79, R326), or discarded and counted in DECDROP
of the sender's region, as a stale handle names none (DESIGN CHOICE, log 76). -/
def State.decrement (s : State) (d : Decrement) : State :=
  let h := d.handle
  match s.fibre? h with
  | some f =>
    let pa := f.depctr.toNat
    if f.depctr = 0 || s.peekNat pa 8 = 0 then s.decDrop d.region
    else ((s.lower d.src pa d.k).noteAcquire h d.sets).wakeCounter h
  | none =>
    match s.future? h with
    | some x =>
      match x.counter with
      | some pa =>
        if s.peekNat pa 8 = 0 then s.decDrop d.region
        else
          let s := x.members.foldl (fun s m => s.noteAcquire m d.sets) (s.lower d.src pa d.k)
          if s.peekNat pa 8 = 0 then s.releaseGroup h x else s
      | none => s.decDrop d.region
    | none => s.decDrop d.region

end Sys2Proof.Machine
end

