-- ==== Sys2Proof/Machine/HostPort.lean ====
section
/-! DEFINITION. The control space of the host port (R40 to R43, R49, R53, R54): its registers as words, MSI-X, and the
answer of the mailbox. -/

namespace Sys2Proof.Machine

/-- STAT (R42). -/
def Hub.stat (h : Hub) : Word :=
  wd (nb h.ready + 2 * nb h.fail + h.phase.toNat * 2 ^ 2 + h.failstep.toNat * 2 ^ 6 + nb h.tsync * 2 ^ 16
    + nb h.early * 2 ^ 17 + nb h.hmerr * 2 ^ 18 + h.linkup.toNat * 2 ^ 32 + h.driveup.toNat * 2 ^ 48)

/-- ID (R43). -/
def Hub.idWord (h : Hub) : Word := wd (0x1024 + Config.stepping.toNat * 2 ^ 16 + h.devnum.toNat * 2 ^ 20)

/-- MBXSTAT (R49). -/
def Hub.mbxStat (h : Hub) : Word :=
  wd (h.mbxSeq.toNat + nb h.mbxBusy * 2 ^ 16 + nb h.mbxDone * 2 ^ 17 + nb h.mbxOvr * 2 ^ 18
    + h.mbxStatus.toNat * 2 ^ 24)

/-- GANGCTLn (R54). -/
def Gang.ctl (g : Gang) : Word := wd (g.state.toNat * 2 ^ 2 + g.cause.toNat * 2 ^ 4)

/-- The state with the hub changed. -/
def State.modHub (s : State) (f : Hub → Hub) : State := { s with hub := f s.hub }

/-- The state with an MSI-X vector raised once more (R40). -/
def State.raise (s : State) (vec : BitVec 4) : State :=
  s.modHub fun h => { h with msix := h.msix.set vec.toNat (h.msix[vec.toNat]'vec.isLt + 1) vec.isLt }

/-- The state with the hub changed: where STAT has changed, vector 1 is raised (R40). -/
def State.modStat (s : State) (f : Hub → Hub) : State :=
  let t := s.modHub f
  if t.hub.stat = s.hub.stat then t else t.raise 1

/-- A sparse buffer with bytes written from an offset; zero bytes are not listed. -/
def bufferBytes (b : List (Nat × Byte)) (off : Nat) (bs : List Byte) : List (Nat × Byte) :=
  (bs.zipIdx).foldl (fun b x => if x.1 = 0 then mdel b (off + x.2) else mset b (off + x.2) x.1) b

/-- A little-endian number of n bytes of a sparse buffer. -/
def bufferNat (b : List (Nat × Byte)) (off n : Nat) : Nat :=
  leNat ((List.range n).map fun i => mget 0 b (off + i))

/-- The mailbox answers the command that it is processing (R49): the response, then MBXSTAT, then vector 0. A STATUS
other than OK carries no data. -/
def State.answer (s : State) (status : BitVec 8) (data : List Byte) : State :=
  (s.modHub fun h =>
    { h with
        response := bufferBytes (bufferBytes h.response 4 (leBytes 4 data.length)) 8 data
        mbxSeq := h.mbxPending.getD h.mbxSeq
        mbxPending := none
        mbxBusy := false
        mbxDone := true
        mbxStatus := status }).raise 0

/-- Statuses of R49. -/
def statusOk : BitVec 8 := 0
/-- BADCMD. -/
def statusBadcmd : BitVec 8 := 1
/-- BADARG. -/
def statusBadarg : BitVec 8 := 2
/-- AUTH. -/
def statusAuth : BitVec 8 := 3
/-- NOTREADY. -/
def statusNotready : BitVec 8 := 4
/-- NOREGION. -/
def statusNoregion : BitVec 8 := 5

/-! The message window (R44 to R48). -/

/-- The module takes messages: it is ready, and neither a lost link nor the stop temperature has ended that (R27, R56). -/
def Hub.takes (h : Hub) : Bool := h.ready && !h.fail

/-- A window message is discarded: HMDROP counts it and STAT.HMERR is set (R44, R45). -/
def State.hmError (s : State) : State :=
  s.modStat fun h => { h with hmdrop := h.hmdrop + 1, hmerr := true }

/-- DEST of a header flit. -/
def flitDest (f : List Byte) : Word := wd (leNat (f.take 8))
/-- ARG of a header flit. -/
def flitArg (f : List Byte) : Word := wd (leNat ((f.drop 8).take 8))
/-- The third word of a header flit. -/
def flitWord (f : List Byte) : Word := wd (leNat ((f.drop 16).take 8))
/-- LEN of a header flit. -/
def flitLen (f : List Byte) : Nat := bits (flitWord f) 12 0

/-- A header flit keeps R44, R45 and R312 for a slot: no reserved field, LEN at most 4,096, and the slot's tile. -/
def headerOk (slot : Nat) (f : List Byte) : Bool :=
  let d := flitDest f
  let w := flitWord f
  bits d 15 12 = 0 && bits d 63 26 = 0 && bits w 15 13 = 0 && bits w 31 18 = 0 && bits w 63 48 = 0 &&
    decide (flitLen f ≤ 4096) && bits d 25 16 = slot

/-- The state with a complete host message given an id and sent on its way (R47, R48, R314). -/
def State.inject (s : State) (header payload : List Byte) : State :=
  let (id, s) := s.hubId
  let w := flitWord header
  s.post
    { uid := 0, kind := .host, msgid := id, dest := flitDest header, arg := flitArg header,
      cls := BitVec.ofNat 2 (bits w 17 16), region := BitVec.ofNat 16 (bits w 47 32), len := flitLen header,
      payload := payload.take (flitLen header), xform := 0, sets := some setsSystem, colour := none }

/-- The flits of a host message of a length. -/
def flitCount (len : Nat) : Nat := if len ≤ 40 then 1 else 1 + (len - 40 + 63) / 64

/-- The hub buffer has room for n more flits: 512 flits of complete messages may wait in it (R47). -/
def State.hubRoom (s : State) (n : Nat) : Bool :=
  decide ((s.net.filter fun m => m.kind = .host).foldl (fun n m => n + flitCount m.len) 0 + n ≤ 512)

/-- A message has not arrived whole within 2^20 ticks of its header (R45). Exactly 2^20 ticks after it still counts as
within (DESIGN CHOICE, log 67). -/
def Assembly.late (a : Assembly) (time : Word) : Bool := decide (a.since + 2 ^ 20 < time.toNat)

/-- The message that a slot assembles is discarded. -/
def State.dropAssembly (s : State) (slot : Nat) : State :=
  (s.modHub fun h => { h with assemblies := h.assemblies.filter fun x => x.slot ≠ slot }).hmError

/-- The state after a flit that a slot reads as a header (R44, R45). -/
def State.headerFlit (s : State) (slot : Nat) (f : List Byte) : State :=
  if !headerOk slot f then s.hmError
  else if flitLen f ≤ 40 then s.inject f (f.drop 24)
  else s.modHub fun h => { h with assemblies := h.assemblies ++ [⟨slot, f, f.drop 24, s.time.toNat⟩] }

/-- The state after a flit to a slot (R44, R45): a header begins a message, and a continuation adds 64 bytes. A flit that
comes too late for its message is read as a header. -/
def State.flit (s : State) (slot : Nat) (f : List Byte) : State :=
  match s.hub.assemblies.find? fun a => a.slot = slot with
  | none => s.headerFlit slot f
  | some a =>
    if a.late s.time then (s.dropAssembly slot).headerFlit slot f
    else
      let p := a.payload ++ f
      if flitLen a.header ≤ p.length then
        (s.modHub fun h => { h with assemblies := h.assemblies.filter fun x => x.slot ≠ slot }).inject a.header p
      else s.modHub fun h =>
        { h with assemblies := replaceFirst (fun x => x.slot = slot) (fun x => { x with payload := p }) h.assemblies }

/-- The flits of the message that a flit completes; 0 if it completes none. -/
def State.completes (s : State) (slot : Nat) (f : List Byte) : Nat :=
  match s.hub.assemblies.find? fun a => a.slot = slot with
  | some a =>
    if a.late s.time then (if headerOk slot f && flitLen f ≤ 40 then 1 else 0)
    else if flitLen a.header ≤ a.payload.length + f.length then flitCount (flitLen a.header) else 0
  | none => if headerOk slot f && flitLen f ≤ 40 then 1 else 0

/-- Flits taken in order, up to one that completes a message for which the hub buffer has no room: from there on they
wait (R47). -/
def takeFlits : List (Nat × List Byte) → State → State
  | [], s => s.modHub fun h => { h with stalled := [] }
  | (slot, f) :: r, s =>
    let gang : Bool := slot = 1024
    if !s.hubRoom (if gang then 1 else s.completes slot f) then s.modHub fun h => { h with stalled := (slot, f) :: r }
    else takeFlits r (if gang then s.inject f (f.drop 24) else s.flit slot f)

/-- The state in which flits have been offered to the hub, after those that wait. -/
def State.offer (s : State) (l : List (Nat × List Byte)) : State := takeFlits (s.hub.stalled ++ l) s

/-- The state in which the flits that wait have been offered again, as room may have come (R47); a module that takes
no further messages takes none of them (R27, R56; log 40). -/
def State.resumeFlits (s : State) : State := if s.hub.stalled.isEmpty || !s.hub.takes then s else s.offer []

/-! Gang slots (R54, R55). -/

/-- A gang slot. -/
def Hub.gang (h : Hub) (n : BitVec 3) : Gang := h.gangs[n.toNat]'n.isLt

/-- The hub with a gang slot changed. -/
def Hub.setGang (h : Hub) (n : BitVec 3) (g : Gang) : Hub := { h with gangs := h.gangs.set n.toNat g n.isLt }

/-- The staged flit. -/
def Gang.flit (g : Gang) : List Byte := (List.range 64).map fun i => mget 0 g.staged i

/-- The staged flit keeps R44, R45 and the limit of 40 bytes. -/
def Gang.flitOk (g : Gang) : Bool :=
  headerOk (bits (flitDest g.flit) 25 16) g.flit && decide (flitLen g.flit ≤ 40)

/-- The tick of an armed slot has come. -/
def Gang.due (g : Gang) (time : Word) : Bool := g.state = 1 && decide (g.tick.toNat ≤ time.toNat)

/-- A gang slot fires: its message is injected as one that arrives through the window, unless the module takes no further
messages (R27, R56; log 40). -/
def State.fireGang (s : State) (n : BitVec 3) : State :=
  let g := s.hub.gang n
  let s := s.modHub fun h => h.setGang n { g with state := 2, cause := 0 }
  if s.hub.takes then s.offer [(1024, g.flit)] else s

/-- Every gang slot whose tick has come fires, in the order of the ticks (R55). Of two with the same tick the lower slot
fires first (DESIGN CHOICE, log 81). -/
def State.fireDue (s : State) : State :=
  let due := ((List.range 8).map (BitVec.ofNat 3)).filter fun n => (s.hub.gang n).due s.time
  (sortBy (fun a b => decide ((s.hub.gang a).tick.toNat ≤ (s.hub.gang b).tick.toNat)) due).foldl State.fireGang s

/-! Reads of BAR0 (R41). -/

/-- The word of BAR0 at an offset that is a multiple of 8, as one aligned read sees it; what the map does not list reads as
zero, and so does what only takes writes: MBXDB and the message window (DESIGN CHOICE, log 77). -/
def State.barWord (s : State) (off : Nat) : Word :=
  let h := s.hub
  if off = 0 then h.stat
  else if off = 8 then h.idWord
  else if off = 0x10 then h.hmdrop
  else if off = 0x100 then s.time
  else if 0x200 ≤ off ∧ off < 0x240 then (h.gang (BitVec.ofNat 3 ((off - 0x200) / 8))).ctl
  else if 0x240 ≤ off ∧ off < 0x280 then (h.gang (BitVec.ofNat 3 ((off - 0x240) / 8))).tick
  else if off = 0x1008 then h.mbxStat
  else if 0x2000 ≤ off ∧ off < 0x3000 then wd (bufferNat h.request (off - 0x2000) 8)
  else if 0x4000 ≤ off ∧ off < 0x6000 then wd (bufferNat h.response (off - 0x4000) 8)
  else if 0x6000 ≤ off ∧ off < 0x6200 then
    wd (leNat (((h.gang (BitVec.ofNat 3 ((off - 0x6000) / 64))).flit.drop (off % 64)).take 8))
  else 0

/-- A host read of n bytes of BAR0. -/
def State.barRead (s : State) (off n : Nat) : List Byte :=
  (List.range n).map fun i =>
    BitVec.ofNat 8 ((s.barWord ((off + i) / 8 * 8)).toNat / 2 ^ (8 * ((off + i) % 8)))

/-- The class code of the PCIe function (R40): a processing accelerator. -/
def classCode : BitVec 24 := 0x120000

end Sys2Proof.Machine
end

