-- ==== Sys2Proof/Machine/Freeze.lean ====
section
/-! DEFINITION. Freezing and thawing a group of regions (R218 to R222, R408, R422): the stop of a tile, the closing of
the cut, and the thaw. -/

namespace Sys2Proof.Machine

/-- The colour that a region's messages carry now: that of its first tile. -/
def State.colourOf (s : State) (r : BitVec 16) : Bool :=
  match s.tilesOf r with
  | t :: _ => (s.cut t r).colour
  | [] => false

/-- A thread as a stop leaves it (R220 step 1, R422): a wait that has not ended is issued again later, and so is a
`pause` whose count runs. -/
def Thread.suspend (t : Thread) : Thread :=
  match t.hold with
  | .stepping _ => { t with suspended := true }
  | .pause _ =>
    { t with suspended := true, hold := .free, pc := if t.counted then t.pc else t.pc - 4, counted := false, polls := 0,
             captured := none }
  | _ => { t with suspended := true, hold := .free, counted := false, polls := 0, captured := none }

/-- A thread's activation is suspended by the stop of its region. -/
def Thread.stopFor (r : BitVec 16) (t : Thread) : Thread :=
  if t.active && t.region = r && !t.suspended then t.suspend else t

/-- The engine commands of a region's threads on a tile have finished, as far as a stop waits for them, and so have the
instructions that they have issued: no store of theirs is on its way, so that none changes the cut (R52, R220 steps 1
and 2). -/
def State.drained (s : State) (t : BitVec 10) (r : BitVec 16) : Bool :=
  ((s.tile t).cmds.all fun c => c.region ≠ r || s.awaitsPartner t c) &&
    s.inflight.all fun a => !(a.tile = t && a.region = r)

/-- The scope index of the `bar.wait` that a thread waits in (R183), if it waits in one. -/
def Thread.barScope (t : Thread) : Option (BitVec 4) :=
  if t.counted then
    match decodeWord t.insn.toNat with
    | .ok (.barWait _ _ c) => some c
    | _ => none
  else none

/-- The watchdog budget of a thread's activation has run out (R98). -/
def Thread.expired (t : Thread) : Bool := t.active && !t.suspended && decide (2 ^ t.eff.wdog ≤ t.wdUsed.toNat)

/-- An activation whose budget has run out stops with WATCHDOG, or with BAR_TIMEOUT in `bar.wait`, whose record's INFO is
the scope index (R98, R213). -/
def State.watchdog (s : State) (x : ThreadId) : State :=
  let t := s.thread x
  if t.expired then
    match t.barScope with
    | some c => s.takeFault x .barTimeout 0 (c.setWidth 64)
    | none => s.takeFault x .watchdog 0 0
  else s

/-- The budgets of a region's threads on a tile that have run out as a stop reaches the tile: their stops are taken first
(R212). -/
def State.lastFaults (s : State) (t : BitVec 10) (r : BitVec 16) : State :=
  ((List.range 8).map (BitVec.ofNat 3)).foldl
    (fun s h => if (s.thread ⟨t, h⟩).region = r then s.watchdog ⟨t, h⟩ else s) s

/-- TILE_STOP (R220): a stop reaches a tile. Its threads of the region stop at once; the tile has stopped when their
commands have finished and their stores have been performed. -/
def State.tileStop (s : State) (t : BitVec 10) (r : BitVec 16) : State :=
  match s.region? r with
  | none => s
  | some x =>
    if !x.stopping || !(s.tilesOf r).contains t || (s.cut t r).stopped then s
    else
      let s := (s.lastFaults t r).modTile t fun y => { y with threads := y.threads.map (Thread.stopFor r) }
      if s.drained t r then
        s.modCut t r fun c => { c with stopped := true, colour := !c.colour, stopcyc := s.cyc }
      else s

/-- TILE_STOP. -/
def execTileStop (tile : BitVec 10) (region : BitVec 16) (s : State) : Host.Outcome State Fault Refusal :=
  .next (s.tileStop tile region)

/-- SENT less RECV of a colour, summed over every tile for a region, modulo 2^32 (R221). -/
def State.balance (s : State) (r : BitVec 16) (colour : Bool) : BitVec 32 :=
  s.tiles.foldl (fun n t =>
    let c := mget CutState.reset t.2.cuts r.toNat
    if colour then n + c.sent1 - c.recv1 else n + c.sent0 - c.recv0) 0

/-- The cut of a group may close (R221): every tile has stopped, and the sums of the old colour agree. -/
def State.cutCloses (s : State) (group : List (BitVec 16)) : Bool :=
  (group.all fun q => (s.tilesOf q).all fun t => (s.cut t q).stopped) &&
    group.foldl (fun n q => n + s.balance q (!s.colourOf q)) (0 : BitVec 32) = 0

/-- A message of a region in an inbound queue belongs to the cut unless it is marked AFTER. -/
def Inbound.cutFor (r : BitVec 16) (m : Inbound) : Inbound :=
  if m.msg.region = r && !m.after then { m with cut := true } else m

/-- The state in which a region is frozen: RSTATE is 1, and the messages of its cut are known. -/
def State.freezeRegion (s : State) (r : BitVec 16) : State :=
  let s := s.modRegion r fun x => { x with stopping := false, frozen := true }
  let s := s.setRcbField (s.rcbOf r) 0 49 48 1
  { s with tiles := s.tiles.map fun t =>
      (t.1, { t.2 with inbound := t.2.inbound.map fun q => q.map (Inbound.cutFor r) }) }

/-- A cut state after THAW (R222): the counts of the old colour are 0. -/
def CutState.thaw (c : CutState) (old : Bool) : CutState :=
  if old then { c with stopped := false, sent1 := 0, recv1 := 0 } else { c with stopped := false, sent0 := 0, recv0 := 0 }

/-- A message of a region in an inbound queue after THAW. -/
def Inbound.thawFor (r : BitVec 16) (m : Inbound) : Inbound :=
  if m.msg.region = r then { m with cut := false, after := false } else m

/-- A tile after THAW of a region. -/
def Tile.thaw (r : BitVec 16) (old : Bool) (t : Tile) : Tile :=
  { t with
      cuts := t.cuts.map fun c => if c.1 = r.toNat then (c.1, c.2.thaw old) else c
      inbound := t.inbound.map fun q => q.map (Inbound.thawFor r)
      threads := t.threads.map fun x => if x.active && x.region = r then { x with suspended := false } else x }

/-- The stops of single steps that wait for THAW, of a region's threads (R229). -/
def State.stepFaults (s : State) (r : BitVec 16) : List (ThreadId × StepStop) :=
  s.tiles.flatMap fun t =>
    (List.range 8).filterMap fun h =>
      let x : ThreadId := ⟨BitVec.ofNat 10 t.1, BitVec.ofNat 3 h⟩
      let y := t.2.thread x.thread
      if y.active && y.region = r then y.stepFault.map fun f => (x, f) else none

/-- What a stopped tile has held that takes no activation: a sum-into of an inbound queue, or a decrement (R220). -/
inductive HeldItem where
  | sum (tile : BitVec 10) (m : Message)
  | dec (d : Decrement)
  deriving DecidableEq, Repr

/-- A region's held sum-into messages, each queue in the order in which it holds them (R222), and then its held decrements
in the order in which they were held. Between queues, and between the two, the order is the model's (DESIGN CHOICE, log
25); no activation starts before all have taken effect. -/
def State.heldItems (s : State) (r : BitVec 16) : List HeldItem :=
  let sums := s.tiles.flatMap fun t => classes.flatMap fun c =>
    ((t.2.queue c).filter fun m => m.msg.sums && m.msg.region = r).map fun m => HeldItem.sum (BitVec.ofNat 10 t.1) m.msg
  sums ++ (s.heldDecs.filter fun d => d.region = r).map .dec

/-- The state in which a held item has taken effect at its home (R124, R67). -/
def State.release1 (s : State) : HeldItem → State
  | .sum t m => (s.modTile t fun x => x.setQueue m.cls ((x.queue m.cls).filter fun y => !(y.msg.uid = m.uid))).sumInto m
  | .dec d => ({ s with heldDecs := s.heldDecs.filter fun x => !(x.uid = d.uid) }).decrement d

/-- A region as its THAW leaves it: it runs, or where a freeze has been asked for after a THAW that waited, it stops
again. -/
def Region.thaw (x : Region) : Region := { x with stopping := x.again, thawing := false, again := false, frozen := false }

/-- A region runs again (R222). What its tiles held takes effect in queue order, and the fibres for which something came
meanwhile are made ready. -/
def State.thawRegion (s : State) (r : BitVec 16) : State :=
  let old := !s.colourOf r
  let s := s.modRegion r Region.thaw
  let s := s.setRcbField (s.rcbOf r) 0 49 48 0
  let s : State := { s with tiles := s.tiles.map fun t => (t.1, t.2.thaw r old) }
  let s := (s.heldItems r).foldl State.release1 s
  (s.fibresWhere fun f => f.region = r).foldl State.resume s

/-- The state in which the mailbox has answered the THAW that it serves, if its region runs again, though a further stop may
have been asked for since (R50). -/
def State.answerThaw (s : State) : State :=
  match s.hub.freezing with
  | none => s
  | some q =>
    let runs : Bool := match s.region? q with
      | some x => !x.frozen && !(x.stopping && x.thawing)
      | none => false
    if s.hub.mbxThaw && runs then (s.modHub fun h => { h with freezing := none }).answer statusOk [] else s

/-- A region is frozen and on its tiles: THAW lets it run. -/
def State.thaws (s : State) (r : BitVec 16) : Bool :=
  match s.region? r with
  | some x => x.frozen && x.saved.isNone
  | none => false

/-- THAW of a group (R222): at once where it is frozen; when its cut closes where a stop is under way. A region that has
been switched out stays frozen, and so does every region once the stop temperature has been reached (R56; DEDUCED, log
70). Once the whole group runs, the faults that single steps have raised in it take their fates, which may freeze it
whole (R229). -/
def State.thaw (s : State) (r : BitVec 16) : State :=
  if s.hub.hot then s
  else
    let now := (s.group r).filter s.thaws
    let s := (s.group r).foldl (fun s q =>
      match s.region? q with
      | some x =>
        if x.saved.isSome then s
        else if x.frozen then s.thawRegion q
        else if x.stopping then s.modRegion q fun y => { y with thawing := true, again := false }
        else s
      | none => s) s
    ((now.flatMap s.stepFaults).foldl
      (fun s f => (s.modThread f.1 fun t => { t with stepFault := none }).takeStop f.1 f.2) s.answerThaw)

/-- The freeze that a region's stop carries out is the last that was asked for: no THAW that came between waits for its
cut. -/
def State.lastFreeze (s : State) (r : BitVec 16) : Bool :=
  match s.region? r with
  | some x => !x.again
  | none => true

/-- CUT_CLOSE (R221): the cut of a region's group closes if it may. A pending mailbox FREEZE of the group is answered, and
a THAW asked for before takes place. A FREEZE that was asked for after that THAW is answered when the next cut closes. -/
def State.cutClose (s : State) (r : BitVec 16) : State :=
  match s.region? r with
  | none => s
  | some x =>
    let group := (s.group r).filter fun q => match s.region? q with
      | some y => y.stopping
      | none => false
    if x.stopping && s.cutCloses group then
      let s := group.foldl (fun s q => s.freezeRegion q) s
      let s := match s.hub.freezing with
        | some q =>
          if !s.hub.mbxThaw && group.contains q && s.lastFreeze q then
            (s.modHub fun h => { h with freezing := none }).answer statusOk []
          else s
        | none => s
      let wanted := match s.region? r with
        | some y => y.thawing
        | none => false
      if wanted then s.thaw r else s
    else s

/-- CUT_CLOSE. -/
def execCutClose (region : BitVec 16) (s : State) : Host.Outcome State Fault Refusal := .next (s.cutClose region)

/-- A write of RGNCTL by a region's system handler names a region that is loaded and lies strictly below it (R408). -/
def State.rgnctlOk (s : State) (issuer region : BitVec 16) : Bool :=
  (s.region? region).isSome && s.below issuer region

/-- A freeze by RGNCTL (R408). -/
def State.rgnctlFreeze (s : State) (issuer region : BitVec 16) : State :=
  if s.rgnctlOk issuer region then s.askFreeze region else s

/-- A thaw by RGNCTL (R408). -/
def State.rgnctlThaw (s : State) (issuer region : BitVec 16) : State :=
  if s.rgnctlOk issuer region then s.thaw region else s

/-- RGNCTL_FREEZE. -/
def execRgnctlFreeze (issuer region : BitVec 16) (s : State) : Host.Outcome State Fault Refusal :=
  .next (s.rgnctlFreeze issuer region)

/-- RGNCTL_THAW. -/
def execRgnctlThaw (issuer region : BitVec 16) (s : State) : Host.Outcome State Fault Refusal :=
  .next (s.rgnctlThaw issuer region)

/-- HOST_SIGNAL (R40, R408): a vector from 2 to 15 is raised. -/
def execHostSignal (vec : BitVec 4) (s : State) : Host.Outcome State Fault Refusal :=
  .next (if 2 ≤ vec.toNat then s.raise vec else s)

end Sys2Proof.Machine
end

