-- ==== Sys2Proof/Machine/Memory.lean ====
section
/-! DEFINITION. Loads, stores and the prefetch (R294 to R299). -/

namespace Sys2Proof.Machine

/-- The low n bytes of a register. -/
def lowBytes (x : Word) (n : Nat) : List Byte := leBytes n x.toNat

/-- A number as a word, zero-extended. -/
def wordOf (bs : List Byte) : Word := wd (leNat bs)

/-- `ld.sz gd, [gB ± off]` (R296, R297). -/
def execLd (d b : BitVec 5) (z : BitVec 2) (o : BitVec 8) (s : State) : Host.Outcome State Fault Refusal :=
  settle do
    let n := accessSize z
    let va := s.memAddr b o n
    let _ ← checkAligned s va n
    let (s, e, pa) ← checkAccess s va n [.read] false false
    let (s, bs) ← loadPlain s va e pa n
    .ok (s.putG d (wordOf bs))

/-- `st.sz gd, [gB ± off]` (R296, R297). -/
def execSt (d b : BitVec 5) (z : BitVec 2) (o : BitVec 8) (s : State) : Host.Outcome State Fault Refusal :=
  settle do
    let n := accessSize z
    let va := s.memAddr b o n
    let _ ← checkAligned s va n
    let (s, e, pa) ← checkAccess s va n [.write] true false
    .ok ((storePlain s va e pa (lowBytes (s.g d) n)).advance 4)

/-- `ld.acq.sz gd, [gB ± off], sc` (R296, R298). -/
def execLdAcq (d b : BitVec 5) (z : BitVec 2) (c : BitVec 4) (o : BitVec 8) (s : State) :
    Host.Outcome State Fault Refusal :=
  settle do
    let n := accessSize z
    let va := s.memAddr b o n
    let sets ← useScopeAt s va c
    let _ ← checkAligned s va n
    let (s, e, pa) ← checkAccess s va n [.read] false false
    let (s, bs) ← loadHome (s.volPoint e) va pa n .rd
    .ok ((s.acquire sets).putG d (wordOf bs))

/-- `st.rel.sz gd, [gB ± off], sc` (R296, R298): its release, and then its own store on its way (R172). -/
def execStRel (d b : BitVec 5) (z : BitVec 2) (c : BitVec 4) (o : BitVec 8) (s : State) :
    Host.Outcome State Fault Refusal :=
  settle do
    let n := accessSize z
    let va := s.memAddr b o n
    let sets ← useScopeAt s va c
    let _ ← checkAligned s va n
    let (s, e, pa) ← checkAccess s va n [.write] true false
    .ok ((issueStore (s.release sets) va pa (lowBytes (s.g d) n) e.vol (some sets)).advance 4)

/-- `ld.vol.sz gd, [gB ± off]` (R166, R296). -/
def execLdVol (d b : BitVec 5) (z : BitVec 2) (o : BitVec 8) (s : State) : Host.Outcome State Fault Refusal :=
  settle do
    let n := accessSize z
    let va := s.memAddr b o n
    let _ ← checkAligned s va n
    let (s, _, pa) ← checkAccess s va n [.read] false true
    let (s, bs) ← loadHome s.drainVol va pa n .rd
    .ok (s.putG d (wordOf bs))

/-- `st.vol.sz gd, [gB ± off]` (R166, R296). -/
def execStVol (d b : BitVec 5) (z : BitVec 2) (o : BitVec 8) (s : State) : Host.Outcome State Fault Refusal :=
  settle do
    let n := accessSize z
    let va := s.memAddr b o n
    let _ ← checkAligned s va n
    let (s, _, pa) ← checkAccess s va n [.write] true true
    .ok ((issueStore s va pa (lowBytes (s.g d) n) true none).advance 4)

/-- The state in which a prefetch has brought a line into the L1, if every condition of R299 holds. It is the read of the
line's home that a plain load would make, so a use-once line leaves with it: R156 does not name `pref`, and R299 leaves
nothing that tells it from the load (DEDUCED, log 51). -/
def State.prefetch (s : State) (va : Word) : State :=
  match s.translate s.cur.tile s.self.region (s.lineage s.me) va 1 .read with
  | .error (_, s) => s
  | .ok (s', e) =>
    let pa := e.phys va.toNat
    let open' := match s'.arrayCheck pa 1 .read with
      | .ok () => (home? pa).isSome
      | .error _ => false
    let resident := !e.tiered || (s'.block s.self.region e va.toNat).state = .resident
    let qa := s'.forwarded va.toNat pa
    if open' && !e.vol && !ownArray s.cur.tile qa && resident && ((s'.tile s.cur.tile).l1Line pa).isNone
        && !poisoned s'.poison (qa / 128 * 128) 128 then
      (((s'.drainAt va.toNat pa).touch qa 1 false).fillL1 s.cur.tile pa qa).consumeOnce qa 1
    else s'

/-- `pref [gB ± off]` (R299). -/
def execPref (b : BitVec 5) (o : BitVec 8) (s : State) : Host.Outcome State Fault Refusal :=
  .next ((s.prefetch (s.memAddr b o 128)).advance 4)

end Sys2Proof.Machine
end

