-- ==== Sys2Proof/Machine/Atomic.lean ====
section
/-! DEFINITION. Atomics and compare-and-swap at their homes (R177, R178, R300 to R304). -/

namespace Sys2Proof.Machine

/-- The new value of an integer atomic on n bytes (R301); op codes 9 to 15 are not encoded. -/
def amoValue (op : Nat) (n old y : Nat) : Nat :=
  let m := 2 ^ (8 * n)
  let signed (x : Nat) : Int := if 2 * x < m then x else (x : Int) - m
  match op with
  | 0 => (old + y) % m
  | 1 => old &&& y
  | 2 => old ||| y
  | 3 => old ^^^ y
  | 4 => if signed y < signed old then y else old
  | 5 => if signed old < signed y then y else old
  | 6 => if y < old then y else old
  | 7 => if old < y then y else old
  | _ => y

/-- What `cas`, the atomics and `bar.arrive` share (R295, R301, R303, R307): the checks, the release, and one act at
the home on n bytes. `f` gives the new value, or none where nothing is written. The answer is the sets of the scope,
the old value and whether a new one was written; its state has the memory effects. -/
def atomicAct (s : State) (va : Word) (n : Nat) (c : BitVec 4) (held : Bool) (f : Nat → Option Nat) :
    Except Stop (State × Sets × Nat × Bool) := do
  let sets ← useScopeAt s va c
  let _ ← checkAligned s va n
  let (s, e, pa) ← checkAccess s va n [.read, .write] true held
  let s := ((s.release sets).volPoint e).drainAt va.toNat pa
  let qa := s.forwarded va.toNat pa
  let s := s.dropBoth s.cur.tile pa qa
  let _ ← checkPoison s va qa n
  let old := s.peekNat qa n
  match f old with
  | some new =>
    .ok (s.performStore s.issuer .amo va.toNat pa (leBytes n new), sets, old, true)
  | none => .ok ((s.watched s.issuer .amo qa n).consumeOnce qa n, sets, old, false)

/-- `amo.op.w gd, [ga], gb, sc` (R301). -/
def execAmoW (d a b : BitVec 5) (c o : BitVec 4) (s : State) : Host.Outcome State Fault Refusal :=
  settle do
    let (s, sets, old, _) ← atomicAct s (s.g a) 4 c false fun old => some (amoValue o.toNat 4 old (bits (s.g b) 31 0))
    .ok ((s.acquire sets).putG d (wd old))

/-- `amo.op.d gd, [ga], gb, sc` (R301). -/
def execAmoD (d a b : BitVec 5) (c o : BitVec 4) (s : State) : Host.Outcome State Fault Refusal :=
  settle do
    let (s, sets, old, _) ← atomicAct s (s.g a) 8 c false fun old => some (amoValue o.toNat 8 old (s.g b).toNat)
    .ok ((s.acquire sets).putG d (wd old))

/-- The sum of two BF16 lanes of a word (R302). -/
def addBf16Pair (x y : Nat) : Nat :=
  let lane (h : Nat) : Nat :=
    bf16.pack .rne ((bf16.unpack (x / 2 ^ (16 * h) % 2 ^ 16)).add false (bf16.unpack (y / 2 ^ (16 * h) % 2 ^ 16)))
  lane 0 + lane 1 * 2 ^ 16

/-- `amo.f.fp32 gd, [ga], gb, sc` (R302). -/
def execAmoFFp32 (d a b : BitVec 5) (c : BitVec 4) (s : State) : Host.Outcome State Fault Refusal :=
  settle do
    let (s, sets, old, _) ← atomicAct s (s.g a) 4 c false fun old => some (add32 old (bits (s.g b) 31 0))
    .ok ((s.acquire sets).putG d (wd old))

/-- `amo.f.bf16 gd, [ga], gb, sc` (R302). -/
def execAmoFBf16 (d a b : BitVec 5) (c : BitVec 4) (s : State) : Host.Outcome State Fault Refusal :=
  settle do
    let (s, sets, old, _) ← atomicAct s (s.g a) 4 c false fun old => some (addBf16Pair old (bits (s.g b) 31 0))
    .ok ((s.acquire sets).putG d (wd old))

/-- `cas.sz gd, [ga], gb, sc` (R303): size code 0 is `.w`, 1 is `.d`. -/
def execCas (d a b : BitVec 5) (c : BitVec 4) (z : BitVec 1) (s : State) : Host.Outcome State Fault Refusal :=
  settle do
    let n := if z = 0 then 4 else 8
    let m := 2 ^ (8 * n)
    let (s, sets, old, done) ← atomicAct s (s.g a) n c false fun old =>
      if old = (s.g d).toNat % m then some ((s.g b).toNat % m) else none
    .ok (((s.acquire sets).setP 7 done).putG d (wd old))

end Sys2Proof.Machine
end

