-- ==== Sys2Proof/Machine/Sync.lean ====
section
/-! DEFINITION. Synchronisation (R305 to R311): fences, barriers, the event latch, timeline waits, the scope table and
`pause`. -/

namespace Sys2Proof.Machine

/-- `fence sc` (R176, R306). -/
def execFence (c : BitVec 4) (s : State) : Host.Outcome State Fault Refusal :=
  settle do
    let sets ← useScope s c
    .ok (((s.release sets).acquire sets).advance 4)

/-- The waiters on a barrier word read it again (R184). -/
def State.wakeBarrier (s : State) (pa : Nat) : State :=
  { s with tiles := s.tiles.map fun t => (t.1, { t.2 with threads := t.2.threads.map fun x =>
      if x.hold = (Hold.barrier pa) then { x with hold := .retest } else x }) }

/-- `bar.init [ga], gb, sc` (R183, R307). -/
def execBarInit (a b : BitVec 5) (c : BitVec 4) (s : State) : Host.Outcome State Fault Refusal :=
  settle do
    let n := (s.g b).toNat
    let va := s.g a
    if n = 0 ∨ 2 ^ 24 - 1 < n then .ok (s.putP 7 false)
    else do
      let sets ← useScopeAt s va c
      let _ ← checkAligned s va 8
      let (s, e, pa) ← checkAccess s va 8 [.write] true true
      let s := ((s.release sets).volPoint e).drainAt va.toNat pa
      let qa := s.forwarded va.toNat pa
      let s := s.dropBoth s.cur.tile pa qa
      .ok (((s.performStore s.issuer .amo va.toNat pa (leBytes 8 n)).wakeBarrier qa).putP 7 true)

/-- The word that an arrival leaves, or none where it overruns (R183). Its fields are put together without bound (R24):
an ARRIVED that no count stops runs on into PHASE. -/
def arrived (w ph : Nat) : Option Nat :=
  let n := w % 2 ^ 24
  let a := w / 2 ^ 24 % 2 ^ 24 + 1
  let f := w / 2 ^ 48
  if n = 0 ∨ f ≠ ph then none
  else if a = n then some ((f + 1) % 2 ^ 16 * 2 ^ 48 + n)
  else some (f * 2 ^ 48 ||| a * 2 ^ 24 ||| n)

/-- `bar.arrive [ga], gb, sc` (R183, R307). -/
def execBarArrive (a b : BitVec 5) (c : BitVec 4) (s : State) : Host.Outcome State Fault Refusal :=
  settle do
    let va := s.g a
    let (s', _, _, done) ← atomicAct s va 8 c true fun w => arrived w (bits (s.g b) 15 0)
    if done then
      let pa := match s'.translate s'.cur.tile s'.self.region (s'.lineage s'.me) va 8 .read with
        | .ok (_, e) => e.phys va.toNat
        | .error _ => 0
      .ok ((s'.wakeBarrier (s'.forwarded va.toNat pa)).advance 4)
    else .error (.fault .barOverrun va (c.setWidth 64) s')

/-- Wait slots that a home has (R184). -/
def waitSlots (pa : Nat) : Nat :=
  match home? pa with
  | some (.tile _) => 16
  | some (.cmem _) => 256
  | _ => 0

/-- Waiters that hold a slot at the home of an address. -/
def State.slotsTaken (s : State) (pa : Nat) : Nat :=
  s.tiles.foldl (fun n t => n + (t.2.threads.toList.filter fun x =>
    match x.hold with
    | .barrier q => home? q = home? pa
    | _ => false).length) 0

/-- A waiter takes a slot, or polls with a back-off of 64 cycles that doubles up to 4,096 (R184). -/
def State.barrierWait (s : State) (pa : Nat) (sets : Sets) : Stop :=
  if s.slotsTaken pa < waitSlots pa then
    .wait (.barrier pa) (s.modSelf fun t => { t with captured := some sets })
  else
    .wait (.pause (s.cyc.toNat + min 4096 (64 * 2 ^ s.self.polls)))
      (s.modSelf fun t => { t with captured := some sets, polls := t.polls + 1 })

/-- `bar.wait [ga], gb, sc` (R183, R184, R307). Each test is a read of its own at the home. -/
def execBarWait (a b : BitVec 5) (c : BitVec 4) (s : State) : Host.Outcome State Fault Refusal :=
  settle do
    let va := s.g a
    let _ ← reclaimPoint s
    let s ← flush s
    let sets ← match s.self.captured with
      | some x => .ok x
      | none => useScopeAt s va c
    let _ ← checkAligned s va 8
    let (s, e, pa) ← checkAccess s va 8 [.read] false true
    let (s, bs) ← loadHome (s.volPoint e) va pa 8 .rd
    if leNat bs / 2 ^ 48 = bits (s.g b) 15 0 then .error (s.barrierWait (s.forwarded va.toNat pa) sets)
    else .ok ((s.acquire sets).advance 4)

/-- `wfe` (R185, R308). -/
def execWfe (s : State) : Host.Outcome State Fault Refusal :=
  settle do
    if s.self.latch then .ok ((s.modSelf fun t => { t with latch := false }).advance 4)
    else .error (.wait .retest s)

/-- The state with the latch set in every thread that runs an activation of a region on a tile of a set, or in the one
thread of `sc0` (R185, R308). -/
def State.setLatches (s : State) (r : BitVec 16) (x : Sets) : State :=
  match x.thread with
  | some t => s.modThread t fun t => { t with latch := true }
  | none =>
    { s with tiles := s.tiles.map fun t =>
        if x.tiles.getLsbD t.1 then
          (t.1, { t.2 with threads := t.2.threads.map fun y =>
            if y.active && y.region = r then { y with latch := true } else y })
        else t }

/-- `sev sc` (R185, R308). -/
def execSev (c : BitVec 4) (s : State) : Host.Outcome State Fault Refusal :=
  settle do
    let sets ← useScope s c
    let _ ← checkHeld s false
    .ok (((s.release sets).setLatches s.self.region sets).advance 4)

/-- What `tlwait` writes to `p7` when it returns (R115). -/
def EngineCtx.answer (e : EngineCtx) (n : Nat) : Bool :=
  if e.issued.toNat < n then false
  else if n = 0 then true
  else if e.issued.toNat ≤ n + 127 then e.done.getLsbD (n % 128)
  else e.canhi.toNat < n

/-- `tlwait tcN, gb` (R115, R309). -/
def execTlwait (b : BitVec 5) (t : BitVec 2) (s : State) : Host.Outcome State Fault Refusal :=
  settle do
    let _ ← reclaimPoint s
    let s ← flush s
    let n := (s.g b).toNat
    let e := s.self.engine t
    if n ≠ 0 ∧ n ≤ e.issued.toNat ∧ e.complete.toNat < n then .error (.wait .retest s)
    else do
      let _ ← checkDeferred s fun d => d.ctx = t && d.number.toNat ≤ n
      .ok (s.putP 7 (e.answer n))

/-- `tlread gd, tcN` (R309). -/
def execTlread (d : BitVec 5) (t : BitVec 2) (s : State) : Host.Outcome State Fault Refusal :=
  .next (s.putG d (s.self.engine t).issued)

/-- A descriptor keeps the layout of R168: no reserved bit, a TILES, and aligned bitmaps. -/
def scopeDescOk (w0 w2 w3 : Word) : Bool :=
  bits w0 3 3 = 0 && bits w0 63 28 = 0 && w2 ≠ 0 && w2.toNat % 128 = 0 && w3.toNat % 128 = 0

/-- A bitmap of 1,024 tiles at a virtual address. -/
def readBitmap (s : State) (va : Word) : Except Stop (State × BitVec 1024) := do
  let (s, bs) ← loadChecked s va 128 128
  .ok (s, BitVec.ofNat 1024 (leNat bs))

/-- The state with a free entry made live by a descriptor (R169). -/
def State.scopeLive (s : State) (r : BitVec 16) (sc : BitVec 4) (host : Bool) (cmem tilesAt spadsAt : Word)
    (tiles spads : BitVec 1024) : State :=
  let c : ScopeCopy := ⟨1, nextGen (s.scopeCopy r sc).gen, host, cmem.setWidth 64, tilesAt, spadsAt, tiles, spads⟩
  (s.setScopeCopy r sc c).poke (s.scopeEntry r sc) c.bytes

/-- `scope.set sc, [ga]` (R168, R169, R310). -/
def execScopeSet (a : BitVec 5) (c : BitVec 4) (s : State) : Host.Outcome State Fault Refusal :=
  settle do
    let va := s.g a
    let s := s.release setsDevice
    let _ ← checkAligned s va 32
    let (s, e, _) ← checkAccess s va 32 [.read] false true
    let (s, bs) ← loadSpan s va e 32
    let w0 := wordAt bs 0
    let w2 := wordAt bs 2
    let w3 := wordAt bs 3
    let _ ← need s (scopeDescOk w0 w2 w3) .reservedField
    let (s, tiles) ← readBitmap s w2
    let (s, spads) ← if w3 = 0 then .ok (s, 0) else readBitmap s w3
    let r := s.self.region
    let free := (s.scopeCopy r c).state = 0
    let s := if free then s.scopeLive r c (bit w0 2) (wordAt bs 1) w2 w3 tiles spads else s
    .ok ((s.acquire setsDevice).putP 7 free)

/-- `scope.get gd, sc` (R169, R310): a read at the entry's home, after which the L1 keeps no older copy of its line
(R163; DEDUCED, log 51). -/
def execScopeGet (d : BitVec 5) (c : BitVec 4) (s : State) : Host.Outcome State Fault Refusal :=
  if fixedScope c then .next (s.putG d 1)
  else
    let pa := s.scopeEntry s.self.region c
    let s := s.drainHome pa
    .next (((s.dropLine s.cur.tile pa).watched s.issuer .rd pa 8).putG d (s.peekWord pa))

/-- `scope.retire sc` (R169, R310). -/
def execScopeRetire (c : BitVec 4) (s : State) : Host.Outcome State Fault Refusal :=
  settle do
    let _ ← checkHeld s false
    let s := s.release setsDevice
    let r := s.self.region
    let x := s.scopeCopy r c
    let live := x.state = 1
    let s := if live then
        let y := { x with state := 2 }
        (s.setScopeCopy r c y).pokeNat (s.scopeEntry r c) 8 y.word0
      else s
    .ok ((s.acquire setsDevice).putP 7 live)

/-- `pause gb` (R311). -/
def execPause (b : BitVec 5) (s : State) : Host.Outcome State Fault Refusal :=
  let n := min (s.g b).toNat (2 ^ 20)
  let s := s.advance 4
  .next (if n = 0 then s else s.modSelf fun t => { t with hold := .pause (s.cyc.toNat + n) })

end Sys2Proof.Machine
end

