-- ==== Sys2Proof/Machine/Scheduler.lean ====
section
/-! DEFINITION. From ready to issue (R17, R63 to R68, R84 to R102): the choice of work by a free thread, the start of an
activation, and the movement of entries between the ready queues. -/

namespace Sys2Proof.Machine

/-- New activations of a region may start on a tile: the region runs, and no stop of its group is under way (R220). -/
def State.startsOn (s : State) (t : BitVec 10) (r : BitVec 16) : Bool :=
  s.runs r && !(s.cut t r).stopped && match s.region? r with
    | some x => !x.stopping
    | none => false

/-- An activation of a fibre may start: none runs, it is not parked, no fault is pending, and it is not reclaimed (R63,
R74, R94, R214). -/
def Fibre.mayStart (f : Fibre) : Bool :=
  (f.fstate = .waiting || f.fstate = .ready) && f.runsOn.isNone && f.fault.isNone && !f.rclm

/-- A message of an inbound queue is startable (R64, R94). -/
def State.startable (s : State) (t : BitVec 10) (m : Inbound) : Bool :=
  let may (h : Word) : Bool := match s.fibre? h with
    | some f => f.mayStart
    | none => false
  !m.running && !m.held && !m.msg.sums && s.startsOn t m.msg.region &&
    s.installed m.msg.region t (dHandler m.msg.dest) &&
    (if dMode m.msg.dest = 1 then may (dFibre m.msg.dest)
     else if m.holder ≠ 0 then may m.holder
     else decide (s.live m.msg.region < s.budget m.msg.region) && s.hasSlot t)

/-- A ready entry's pending activation may start on a tile: while its fibre keeps a payload, on the home tile alone
(R90, R94). -/
def State.entryRuns (s : State) (t : BitVec 10) (e : ReadyEntry) : Bool :=
  match s.fibre? e.handle with
  | some f =>
    f.mayStart && s.startsOn t f.region && (f.kept.isNone || hTile e.handle = t) && match f.pending with
      | some p => s.installed f.region t p.handler
      | none => false
  | none => false

/-- Work that a free thread may take. -/
inductive Work where
  | message (m : Inbound)
  | entry (e : ReadyEntry)
  deriving DecidableEq, Repr

/-- A candidate for a choice (R94). -/
structure Candidate where
  cls : Nat
  value : Nat
  waited : Nat
  /-- It is an activation of a system handler, which thread 7 may take (R93). -/
  sys : Bool
  work : Work
  deriving DecidableEq, Repr

/-- It is a message. -/
def Candidate.isMessage (c : Candidate) : Bool := match c.work with
  | .message _ => true
  | .entry _ => false

/-- The candidate x is chosen before y (R94). The smallest ENQ or arrival cycle is read as the longest wait, modulo 2^48, as
R101 promises it to the longer waiter also across a wrap of those 48 bits (DESIGN CHOICE, log 55). -/
def Candidate.before (x y : Candidate) : Bool :=
  decide (y.cls < x.cls) ||
    (decide (x.cls = y.cls) &&
      (decide (y.value < x.value) ||
        (decide (x.value = y.value) &&
          (decide (y.waited < x.waited) || (decide (x.waited = y.waited) && x.isMessage && !y.isMessage)))))

/-- The candidate of an inbound message. -/
def State.messageCandidate (s : State) (t : BitVec 10) (c : BitVec 2) (m : Inbound) : Candidate :=
  ⟨c.toNat, rank s.cyc (s.prio m.msg.region) m.arrival, waited s.cyc m.arrival,
    s.isSystem m.msg.region t (dHandler m.msg.dest), .message m⟩

/-- The candidate of a ready entry: it counts as class 1. -/
def State.entryCandidate (s : State) (t : BitVec 10) (e : ReadyEntry) : Candidate :=
  let sys : Bool := match s.fibre? e.handle with
    | some f => match f.pending with
      | some p => s.isSystem f.region t p.handler
      | none => false
    | none => false
  ⟨1, e.rank s.cyc, waited s.cyc e.enq, sys, .entry e⟩

/-- The candidates of a tile (R94). -/
def State.candidates (s : State) (t : BitVec 10) : List Candidate :=
  classes.filterMap (fun c => (((s.tile t).queue c).find? (s.startable t)).map (s.messageCandidate t c)) ++
    ((s.tile t).ready.filter (s.entryRuns t)).map (s.entryCandidate t)

/-- The threads of a tile that run no activation, in rising order. -/
def Tile.freeThreads (t : Tile) : List (BitVec 3) :=
  ((List.range 8).map (BitVec.ofNat 3)).filter fun h => !(t.thread h).active

/-- A thread may take a candidate (R93). -/
def Candidate.fits (c : Candidate) (h : BitVec 3) : Bool := h ≠ 7 || c.cls = 3 || c.sys

/-- The choice of a tile: a candidate that some free thread may take, and the lowest such thread (R93, R94). Ready
entries that R94 holds equal go in queue order (DESIGN CHOICE, log 55). -/
def State.choice (s : State) (t : BitVec 10) : Option (Candidate × BitVec 3) :=
  let free := (s.tile t).freeThreads
  match best Candidate.before ((s.candidates t).filter fun c => free.any c.fits) with
  | some c => (free.find? c.fits).map fun h => (c, h)
  | none => none

/-! The start of an activation. -/

/-- The virtual address of a unit of a tile's landing zone (R17, R121, R125). -/
def Tile.payloadVa (t : Tile) (i : BitVec 10) (unit : Nat) : Word :=
  wd (windowBase + i.toNat * 0x400000 + t.lzOff + 256 * unit)

/-- The state with the tile registers and the accumulators of a thread zeroed in the array (R17). They are zeroed at once. A
command of the thread's last activation that is unfinished still reads and writes them as it runs: R17 does not say that the
activation waits for it (DESIGN CHOICE, log 89). -/
def State.zeroRegs (s : State) (x : ThreadId) : State :=
  let t := s.tile x.tile
  let b := tileBase x.tile.toNat
  let r := t.tregOff x.thread 0
  let a := t.accOff x.thread 0
  let rn := 16384 * t.tregs.toNat
  let an := 98304 * t.accs.toNat
  { s with
      mem := zeroBytes (zeroBytes s.mem (b + r) (b + r + rn)) (b + a) (b + a + an)
      poison := clearPoison (clearPoison s.poison (b + r) rn) (b + a) an }

/-- What an activation starts with (R17, R332). -/
structure Opening where
  fibre : Word
  region : BitVec 16
  handler : BitVec 12
  pc : Word
  msgid : Word
  start : Start
  pend : Option Pending
  g1 : Word
  g2 : Word
  g3 : Word
  g6 : Word
  eff : Eff
  deriving DecidableEq, Repr

/-- A thread at the first instruction of an activation (R17). Its timeline counters, its last record and its skid ring
stay. -/
def Thread.open (t : Thread) (o : Opening) : Thread :=
  { t with
      g := ((((((Vector.replicate 32 (0 : Word)).set 1 o.g1).set 2 o.g2).set 3 o.g3).set 4 o.fibre).set 5
        (futureHandle o.fibre)).set 6 o.g6
      v := Vector.replicate 32 0
      vtag := Vector.replicate 32 0
      m := (Vector.replicate 8 (0 : Word)).set 0 (BitVec.allOnes 64)
      p := 1
      ttag := Vector.replicate 16 0
      tshape := Vector.replicate 16 0x807F
      latch := false
      pc := o.pc
      active := true
      suspended := false
      hold := .free
      counted := false
      polls := 0
      region := o.region
      handler := o.handler
      fibre := o.fibre
      msgid := o.msgid
      start := o.start
      pend := o.pend
      payAddr := o.g2
      payLen := o.g3
      keeps := false
      fons := false
      made := []
      sends := []
      readers := []
      deferred := []
      icnt := 0
      wdUsed := 0
      eff := o.eff
      captured := none
      stepFault := none
      recording := none }

/-- The state with a tile's L1 as an acquire at a scope leaves it (R111, R174). -/
def State.acquireAt (s : State) (t : BitVec 10) (x : Sets) : State :=
  s.modTile t fun y => { y with l1 := acquireL1 y.l1 x }

/-- The state in which an activation starts on a thread: the registers of R17, the fibre and its future running. -/
def State.start (s : State) (x : ThreadId) (o : Opening) : State :=
  let s := (s.zeroRegs x).modThread x fun t => t.open o
  (s.modFibre o.fibre fun f => { f with fstate := .running, runsOn := some x }).modFuture (futureHandle o.fibre)
    fun f => if f.fstat = .pending then { f with fstat := .running } else f

/-- The state with the activation of a message started on a thread (R63, R64, R179): of the fibre that it names or that
holds it, or of a new detached, confirmed fibre. -/
def State.startMessage (s : State) (x : ThreadId) (m : Inbound) : State :=
  let d := m.msg.dest
  let r := m.msg.region
  let h := dHandler d
  let (f, s) :=
    if dMode d = 1 then (dFibre d, s)
    else if m.holder ≠ 0 then (m.holder, s)
    else
      let (fut, s) := s.placeFibre x.tile (Fibre.made h true false true r 0 m.msg.arg s.time [])
      (fibreHandle fut, s)
  let s := s.modMessage x.tile m.msg.cls m.msg.uid fun y => { y with running := true, holder := fibreHandle f }
  let s := match m.msg.sets with
    | some y => s.acquireAt x.tile y
    | none => s
  s.start x
    { fibre := fibreHandle f, region := r, handler := h, pc := (s.entry? r x.tile h).getD 0, msgid := m.msg.msgid,
      start := .message m.msg.cls m.msg.uid, pend := none, g1 := m.msg.msgid, g2 := (s.tile x.tile).payloadVa x.tile m.unit,
      g3 := wd m.len, g6 := m.msg.arg, eff := s.readEff r }

/-- The acquires of an activation that no message starts: a continuation at `sc14` (R332), a first activation at the
scopes of its decrements (R68) and of its launch (R417). -/
def Fibre.acquiresOf (f : Fibre) (p : Pending) : List Sets :=
  match p.start with
  | .continuation => [setsDevice]
  | _ => f.acquires

/-- The state with the pending activation of a ready entry started on a thread (R63, R332). -/
def State.startEntry (s : State) (x : ThreadId) (e : ReadyEntry) : State :=
  match s.fibre? e.handle with
  | none => s
  | some f =>
    match f.pending with
    | none => s
    | some p =>
      let s := s.modTile x.tile fun t => { t with ready := removeFirst (fun y => y = e) t.ready }
      let s := (f.acquiresOf p).foldl (fun s y => s.acquireAt x.tile y) s
      let (g2, g3) : Word × Word := match f.kept with
        | some k => ((s.tile x.tile).payloadVa x.tile k.unit, wd k.len)
        | none => (0, 0)
      (s.modFibre e.handle fun f => f.take p).start x
        { fibre := fibreHandle e.handle, region := f.region, handler := p.handler,
          pc := (s.entry? f.region x.tile p.handler).getD 0, msgid := p.g1, start := p.start, pend := some p,
          g1 := p.g1, g2 := g2, g3 := g3, g6 := p.g6, eff := s.readEff f.region }

/-- A region is frozen, and what follows the end of its fibres waits for THAW: the state of the cut does not change
(R221). -/
def State.still (s : State) (r : BitVec 16) : Bool :=
  match s.region? r with
  | some x => x.frozen && !x.unloading
  | none => false

/-- The state without the ready entries of a tile whose generation no longer matches (R74, R94), and with the messages
whose fibre has ended written as dead letters of reason 1 (R321). -/
def State.dropStale (s : State) (t : BitVec 10) : State :=
  let s := s.modTile t fun x => { x with ready := x.ready.filter fun e => (s.fibre? e.handle).isSome }
  let stale (m : Inbound) : Bool :=
    dMode m.msg.dest = 1 && m.msg.kind = .plain && !m.msg.sums && !m.running && !s.still m.msg.region &&
      (s.fibre? (dFibre m.msg.dest)).isNone
  classes.foldl (fun s c =>
    let q := (s.tile t).queue c
    if q.any stale then
      let s := s.modTile t fun x => x.setQueue c (q.filter fun m => !stale m)
      (q.filter stale).foldl (fun s m => s.deadLetter m.msg.region 1 m.msg) s
    else s) s

/-- THREAD_DISPATCH (R93, R94): a tile makes its choice and the activation starts. -/
def execThreadDispatch (tile : BitVec 10) (s : State) : Host.Outcome State Fault Refusal :=
  let s := s.dropStale tile
  .next (match s.choice tile with
    | some (c, h) => match c.work with
      | .message m => s.startMessage ⟨tile, h⟩ m
      | .entry e => s.startEntry ⟨tile, h⟩ e
    | none => s)

/-! The ready queues. -/

/-- QUEUE_SPILL (R84, R87, R89): a tile queue above 56 entries or a cluster queue above 448 spills a block upward, where
there is room for it. -/
def execQueueSpill (queue : QueueRef) (s : State) : Host.Outcome State Fault Refusal :=
  .next (match queue with
    | .tile t => if 56 < (s.tile t).ready.length then s.spillTile t else s
    | .cluster c => if 448 < (s.cmem c.toNat).queue.length then s.spillCluster c.toNat else s)

/-- The handler of an entry's pending activation is installed on a tile (R92). -/
def State.entryInstalled (s : State) (t : BitVec 10) (e : ReadyEntry) : Bool :=
  match s.fibre? e.handle with
  | some f => match f.pending with
    | some p => s.installed f.region t p.handler
    | none => false
  | none => false

/-- An entry may be taken by a tile: its fibre lives, no stop keeps it where it is, and its handler is installed there
(R87, R220, R223). -/
def State.entryFits (s : State) (t : BitVec 10) (e : ReadyEntry) : Bool :=
  match s.fibre? e.handle with
  | some f => match f.pending with
    | some p =>
      s.installed f.region t p.handler && (f.kept.isNone || hTile e.handle = t) && !s.stands f.region
    | none => false
  | none => false

/-- The tiles of a cluster. -/
def tilesOfCluster (c : Nat) : List (BitVec 10) := (List.range 16).map fun i => BitVec.ofNat 10 (16 * c + i)

/-- The slots of a backlog in the order of its scan: from the cursor upward, then from slot 0 (R88). -/
def scanFrom (cursor : Nat) (l : List Nat) : List Nat :=
  (l.filter fun n => cursor ≤ n) ++ l.filter fun n => n < cursor

/-- A fibre of a tile's slot is of a region whose fibres stay where they are (R220). -/
def State.slotStands (s : State) (t : BitVec 10) (n : Nat) : Bool :=
  match (s.slot t (BitVec.ofNat 12 n)).fibre with
  | some f => s.stands f.region
  | none => false

/-- The state with up to eight fibres of a tile's backlog entered in its ready queue (R88, R220). The tile may steal again
(R92). -/
def State.refillBacklog (s : State) (t : BitVec 10) : State :=
  (((scanFrom (s.tile t).cursor (s.tile t).backlog).filter fun n => !s.slotStands t n).take 8).foldl (fun s n =>
    let slot := BitVec.ofNat 12 n
    let h := mkHandle t slot (s.slot t slot).gen 1
    s.modTile t fun x =>
      { x with backlog := x.backlog.filter fun k => !(k = n), cursor := (n + 1) % 4096,
               ready := x.ready ++ [s.newEntry h], stealAt := 0 }) s

/-- The state with entries of another queue brought into a tile's ready queue, after which the tile may steal again
(R92). -/
def State.bringIn (s : State) (t : BitVec 10) (b : List ReadyEntry) : State :=
  if b.isEmpty then s else s.modTile t fun x => { x with ready := x.ready ++ b, stealAt := 0 }

/-- A ready queue without the entries of fibres that are gone (R74). -/
def State.alive (s : State) (q : List ReadyEntry) : List ReadyEntry := q.filter fun e => (s.fibre? e.handle).isSome

/-- The state with a block taken from a cluster's queue, or else from its die's, into a tile's ready queue (R87,
R88). -/
def State.refillTile (s : State) (t : BitVec 10) : State :=
  let c := clusterOf t
  let d := dieOf t
  let (b, q) := takeBlock (refillsFirst s.cyc) (s.entryFits t) 8 (s.alive (s.cmem c).queue)
  let s := s.modCmem c fun m => { m with queue := q }
  if b.isEmpty then
    let (b, q) := takeBlock (refillsFirst s.cyc) (s.entryFits t) 8 (s.alive (s.die d).queue)
    (s.modDie d fun x => { x with queue := q }).bringIn t b
  else s.bringIn t b

/-- The state with a block taken from a die's queue into a cluster's (R87). -/
def State.refillCluster (s : State) (c : Nat) : State :=
  let d : BitVec 2 := BitVec.ofNat 2 (c / 16)
  let (b, q) := takeBlock (refillsFirst s.cyc) (fun e => (tilesOfCluster c).any fun t => s.entryFits t e) 8
    (s.alive (s.die d).queue)
  (s.modDie d fun x => { x with queue := q }).modCmem c fun m => { m with queue := m.queue ++ b }

/-- QUEUE_REFILL (R84, R87, R88): a tile queue below 8 entries takes from its backlog, or from above; a cluster queue
below 64 takes from its die's. -/
def execQueueRefill (queue : QueueRef) (s : State) : Host.Outcome State Fault Refusal :=
  .next (match queue with
    | .tile t =>
      if (s.tile t).ready.length < 8 then
        if (s.tile t).backlog.isEmpty then s.refillTile t else s.refillBacklog t
      else s
    | .cluster c => if (s.cmem c.toNat).queue.length < 64 then s.refillCluster c.toNat else s)

/-- The entries of a tile's ready queue that another tile may steal (R92). -/
def State.stealable (s : State) (victim thief : BitVec 10) : List ReadyEntry :=
  (s.tile victim).ready.filter fun e => !s.pinned e && s.entryFits thief e

/-- A tile may steal (R92). An entry that a stop keeps in a queue above the tile counts there like any other. -/
def State.maySteal (s : State) (t : BitVec 10) : Bool :=
  let x := s.tile t
  x.freeThreads.any (fun h => h ≠ 7) && x.ready.isEmpty && x.backlog.isEmpty && decide (x.stealAt ≤ s.cyc.toNat) &&
    !((s.cmem (clusterOf t)).queue.any (s.entryInstalled t)) && !((s.die (dieOf t)).queue.any (s.entryInstalled t))

/-- The victim in a tile's cluster: the tile that holds the most entries which the thief can run, the lowest among equal
ones. -/
def State.victim (s : State) (t : BitVec 10) : Option (BitVec 10) :=
  best (fun x y => decide ((s.stealable y t).length < (s.stealable x t).length))
    ((tilesOfCluster (clusterOf t)).filter fun v => v ≠ t && decide (2 ≤ (s.stealable v t).length))

/-- STEAL (R92): an idle tile takes entries from a tile of its cluster, or from the die queue of a neighbouring die,
which pins them to it. A tile that finds none does not ask again for 256 cycles. -/
def execSteal (tile : BitVec 10) (s : State) : Host.Outcome State Fault Refusal :=
  .next (
    if s.maySteal tile then
      match s.victim tile with
      | some v =>
        let m := (s.stealable v tile).length
        let (b, q) := takeBlock (spillsFirst s.cyc) (fun e => !s.pinned e && s.entryFits tile e) (min 8 (m / 2))
          (s.tile v).ready
        (s.modTile v fun x => { x with ready := q }).bringIn tile b
      | none =>
        match (neighbours (dieOf tile)).find? fun d => (s.die d).queue.any (s.entryFits tile) with
        | some d =>
          let (b, q) := takeBlock (refillsFirst s.cyc) (s.entryFits tile) 8 (s.die d).queue
          (s.modDie d fun x => { x with queue := q }).bringIn tile (b.map fun e => { e with pin := true })
        | none => s.modTile tile fun x => { x with stealAt := s.cyc.toNat + 256 }
    else s)

/-! Waits and budgets that end. -/

/-- WATCHDOG (R98). -/
def execWatchdog (tile : BitVec 10) (thread : BitVec 3) (s : State) : Host.Outcome State Fault Refusal :=
  .next (s.watchdog ⟨tile, thread⟩)

/-- BARRIER_WAKE (R184): a waiter in `bar.wait` is woken, or its back-off has run out, and it reads the word again. -/
def execBarrierWake (tile : BitVec 10) (thread : BitVec 3) (s : State) : Host.Outcome State Fault Refusal :=
  .next (s.modThread ⟨tile, thread⟩ fun t =>
    match t.hold with
    | .barrier _ => { t with hold := .retest }
    | .pause c => if t.counted && decide (c ≤ s.cyc.toNat) then { t with hold := .retest } else t
    | _ => t)

/-- PAUSE_EXPIRY (R311): the count of a `pause` has run out. -/
def execPauseExpiry (tile : BitVec 10) (thread : BitVec 3) (s : State) : Host.Outcome State Fault Refusal :=
  .next (s.modThread ⟨tile, thread⟩ fun t =>
    match t.hold with
    | .pause c => if !t.counted && decide (c ≤ s.cyc.toNat) then { t with hold := .free } else t
    | _ => t)

/-! What follows the end of fibres and of scope entries. -/

/-- FIBRE_RECLAIM (R75): a fibre of a slot that is to be reclaimed and runs no activation is reclaimed. Its stores on
their way are performed first, so that none is left when its group's completion future resolves (R79). -/
def execFibreReclaim (tile : BitVec 10) (slot : BitVec 12) (s : State) : Host.Outcome State Fault Refusal :=
  .next (
    match s.reclaims.find? fun h => hTile h = tile && hSlot h = slot with
    | none => s
    | some h =>
      let runs : Bool := match s.fibre? h with
        | some f => f.runsOn.isSome || s.still f.region || s.recordsFor h
        | none => false
      if runs then s else (({ s with reclaims := removeFirst (fun x => x = h) s.reclaims }).drainFibre h).reclaimFibre h)

/-- An engine command that a fibre issued has not finished (R415). -/
def State.commandsOf (s : State) (h : Word) : Bool :=
  h ≠ 0 && s.tiles.any fun t => t.2.cmds.any fun c => c.fibre = fibreHandle h

/-- The state without the range that begins at an address (R415). -/
def State.removeAt (s : State) (r : BitVec 16) (vbase : Nat) : State :=
  match (s.leaves r).find? fun l => l.entry.vbase = vbase with
  | some l => (s.removeRange r l).forgetBlocks l.entry
  | none => s

/-- The state with the ranges of a freed context's slab removed, its run returned to its store room unless a range is
SHARED, and its parent's FORKS lowered, which may free the parent (R130, R188, R415). -/
def State.freeSlab (s : State) (r : BitVec 16) (cxd : Nat) : State :=
  let leaves := s.slabLeaves cxd
  let slot := s.ctxSlot? cxd
  let s := leaves.foldl (fun s l => s.removeAt r l.entry.vbase) s
  let s := s.modCtxSlot cxd fun y => { y with slab := [], parent := 0, ended := 0 }
  match slot with
  | some x =>
    let s := if leaves.any fun l => l.entry.shared then s else s.giveRuns x.slab
    if x.parent = 0 then s else (s.setCx x.parent 6 47 32 (s.cforks x.parent - 1)).releaseCtx x.parent
  | none => s

/-- What waits is removed: the slab of a freed context, or a PRIVATE range without a living heir that is no slab (R65, R75,
R415). -/
def State.removes (s : State) (r : Release) : Bool :=
  r.freed.isSome || (!r.slab && (r.heir = 0 || (s.fibre? r.heir).isNone))

/-- The state with a PRIVATE range passed on, freed, or made not PRIVATE (R65, R75, R188, R415): the tree changes, GEN
rises by 1, and no table holds the entry any longer. -/
def State.releaseRange (s : State) (r : Release) (l : Leaf) : State :=
  if r.slab then
    (s.writeLeaf l.addr { l.entry with priv := false, owner := 0, gen := l.entry.gen + 1 }).invalidate r.region
      l.entry.vbase l.entry.limit
  else if s.removes r then (s.removeRange r.region l).forgetBlocks l.entry
  else
    (s.writeLeaf l.addr { l.entry with owner := r.heir, gen := l.entry.gen + 1 }).invalidate r.region l.entry.vbase
      l.entry.limit

/-- The ranges that wait to be passed on or removed: those of a freed context's slab, or the one that begins at an
address and is still PRIVATE to its owner. -/
def State.releaseLeaves (s : State) (r : Release) : List Leaf :=
  match r.freed with
  | some cxd => s.slabLeaves cxd
  | none => (s.leaves r.region).filter fun l => l.entry.vbase = r.vbase && l.entry.priv && l.entry.owner = r.owner

/-- A range of a region may not be removed now, as `rset` may not remove it (R401, R415). Pins count no longer once the
region unloads: nothing of it is left to take them back (DESIGN CHOICE, log 80). -/
def State.heldRange (s : State) (r : BitVec 16) (e : RangeEntry) : Bool :=
  match s.region? r with
  | some x => if x.unloading then s.blocksMove r e else s.rangeBusy r e
  | none => false

/-- What waits may not change now: a move of a range of it is under way, a command streams through it, or it is to be
removed and a block of it is held (R138, R401, R415). -/
def State.releaseBusy (s : State) (r : Release) : Bool :=
  (s.releaseLeaves r).any fun l =>
    l.entry.forwarding || s.pagesBusy (s.treeOf r.region) setsDevice l.entry.overlaps ||
      (s.removes r && s.heldRange r.region l.entry)

/-- RANGE_RELEASE (R415): the n-th range that waits is passed on or removed once the engine commands of its owner have
finished and nothing holds it, and then the owner's slot may be freed. -/
def execRangeRelease (n : Nat) (s : State) : Host.Outcome State Fault Refusal :=
  .next (
    match s.releases[n]? with
    | none => s
    | some r =>
      if s.commandsOf r.owner || s.releaseBusy r || s.still r.region then s
      else
        let t : State := { s with releases := s.releases.eraseIdx n }
        let t := match r.freed with
          | some cxd => t.freeSlab r.region cxd
          | none => (s.releaseLeaves r).foldl (fun t l => t.releaseRange r l) t
        t.tryFree (futureHandle r.owner))

/-- SCOPE_DRAIN (R169): a retiring entry with nothing in flight becomes free on every tile, and then at its home. -/
def execScopeDrain (region : BitVec 16) (sc : BitVec 4) (s : State) : Host.Outcome State Fault Refusal :=
  let c := s.scopeCopy region sc
  .next (
    if c.state = 2 && !(s.scopeInFlight region sc c.gen) then
      let y := { c with state := 0 }
      (s.setScopeCopy region sc y).pokeNat (s.scopeEntry region sc) 8 y.word0
    else s)

end Sys2Proof.Machine
end

