-- ==== Sys2Proof/Machine/Arrival.lean ====
section
/-! DEFINITION. What arrives at a tile (R67, R68, R82, R83, R100, R121 to R124, R219 to R221, R321): messages into the
inbound queues and the landing zone, sum-into additions, decrements, and dead letters. -/

namespace Sys2Proof.Machine

/-- The source of a message: the tile that has sent it, by SRCTILE of its id, or the hub, whose SRCTILE is that of tile
1023 too (R314). It does not depend on DEVNUM, which a formation of the link domain may change (R29). -/
def Message.source (m : Message) : Nat :=
  bits m.msgid 55 46 + if m.kind = .host || (m.kind = .system && m.colour.isNone) then 1024 else 0

/-- The message leaves this device (R313). -/
def State.leaves' (s : State) (m : Message) : Bool := m.kind = .plain && s.remote m.dest

/-- The outcome that R321 gives a message at its destination: a dead letter with a reason, or none where it is
delivered. -/
def State.undelivered (s : State) (m : Message) : Option Nat :=
  match s.region? m.region with
  | none => some 5
  | some x =>
    if x.unloading then some 4
    else if m.sums then none
    else
      let named : Bool := if dMode m.dest = 1 then
          match s.fibre? (dFibre m.dest) with
          | some f => f.region = m.region
          | none => false
        else true
      if !named then some 1
      else if s.installed m.region (dTile m.dest) (dHandler m.dest) then none
      else some 2

/-- The intervals of the landing zone, in units, that payloads on a tile take: those of queued messages and those that
fibres keep (R105, R121). -/
def Tile.taken (t : Tile) : List (Nat × Nat) :=
  (classes.flatMap fun c => (t.queue c).map fun m => (m.unit, m.unit + m.units)) ++
    t.slots.filterMap fun x => match x.2.fibre with
      | some f => f.kept.map fun k => (k.unit, k.unit + k.units)
      | none => none

/-- The first units of the free runs of n units in a tile's landing zone. -/
def Tile.freeRuns (t : Tile) (n : Nat) : List Nat :=
  (List.range (t.lzBytes / 256 + 1 - n)).filter fun u => t.taken.all fun p => decide (p.2 ≤ u) || decide (u + n ≤ p.1)

/-- The output of a message's transform, and why it is in error (R123, R124). -/
def Message.output (m : Message) : List Byte × Nat :=
  let (l, why) := transform m.xform (m.payload.map fun x => (x, false))
  (l.map (·.1), why)

/-- A region has been switched out. -/
def State.away (s : State) (r : BitVec 16) : Bool :=
  match s.region? r with
  | some x => x.saved.isSome
  | none => false

/-- A message cannot enter its queue now: the queue holds 32 messages, or the landing zone has no room (R100, R121), or
its region has been switched out. -/
def State.blocked (s : State) (m : Message) : Bool :=
  let t := s.tile (dTile m.dest)
  let n := (m.output.1.length + 255) / 256
  s.away m.region || decide (32 ≤ (t.queue m.cls).length) || (!m.sums && decide (0 < n) && (t.freeRuns n).isEmpty)

/-- A message or decrement at a stopped tile is held there until THAW, counted as received (R220). -/
def State.heldAt (s : State) (t : BitVec 10) (r : BitVec 16) : Bool := (s.cut t r).stopped

/-- A message is for an inbound queue: a sum-into is, where its tile has stopped (R220). -/
def State.queues (s : State) (m : Message) : Bool :=
  !(s.leaves' m) && (!m.sums || s.heldAt (dTile m.dest) m.region) && (s.undelivered m).isNone

/-- A message is on its way before another on the same pair of source and destination, and holds it back (R27, R179). A
message that waits for room holds back only its own class (R100). -/
def State.holdsBack (s : State) (x m : Message) : Bool :=
  decide (x.uid < m.uid) && x.source = m.source && dTile x.dest = dTile m.dest &&
    s.leaves' x = s.leaves' m && !(s.queues x && s.queues m && x.cls ≠ m.cls && s.blocked x)

/-- A decrement is on its way before a message on the same pair (R27). -/
def State.decBefore (s : State) (d : Decrement) (m : Message) : Bool :=
  decide (d.uid < m.uid) && m.source = d.src.toNat && hTile d.handle = dTile m.dest && !(s.leaves' m)

/-- The state with a message of a colour counted as received by a tile for its region (R219). -/
def State.received (s : State) (t : BitVec 10) (r : BitVec 16) (colour : Option Bool) : State :=
  match colour with
  | some c => s.modCut t r fun x => x.recv c
  | none => s

/-- A message that reaches a tile that has stopped is marked AFTER if it has the new colour, or has none and comes after
the cut has closed (R220). -/
def State.marksAfter (s : State) (t : BitVec 10) (m : Message) : Bool :=
  let c := s.cut t m.region
  c.stopped && match m.colour with
    | some k => k = c.colour
    | none => match s.region? m.region with
      | some x => x.frozen
      | none => false

/-- The state with a sum-into held in the inbound queue of a stopped tile (R220): it takes no landing zone. -/
def State.holdSum (s : State) (m : Message) : State :=
  let t := dTile m.dest
  s.modTile t fun x => x.setQueue m.cls (x.queue m.cls ++
    [{ msg := m, unit := 0, units := 0, len := m.len, arrival := s.cyc.setWidth 48, holder := 0, running := false,
       held := false, after := s.marksAfter t m, cut := false }])

/-- The state with a message landed: its output in the landing zone, and the message in its inbound queue (R121). A unit
that the output writes whole is no longer poisoned (R108). -/
def State.land (s : State) (m : Message) : State :=
  let t := dTile m.dest
  let (out, why) := m.output
  let n := (out.length + 255) / 256
  let (u, s) := if n = 0 then (some 0, s) else s.pick ((s.tile t).freeRuns n)
  let unit := u.getD 0
  let at' := tileBase t.toNat + (s.tile t).lzOff + 256 * unit
  let s := (s.poke at' out).recordError t (xKind m.xform) why
  s.modTile t fun x => x.setQueue m.cls (x.queue m.cls ++
    [{ msg := m, unit := unit, units := n, len := out.length, arrival := s.cyc.setWidth 48, holder := 0,
       running := false, held := false, after := s.marksAfter t m, cut := false }])

/-- The state in which a message leaves for a peer device, or is a dead letter of reason 3 where no live route exists
(R30). -/
def State.depart (s : State) (m : Message) : State :=
  let live := s.hub.routes.any fun r => r.device = dDev m.dest && s.hub.linkup.getLsbD r.port.toNat
  if live then { s with outbox := s.outbox ++ [m] } else s.deadLetter m.region 3 m

/-- The state without the n-th message on its way, which has arrived and been counted. It has left the hub buffer, if it
came from the host (R47). -/
def State.takeMessage (s : State) (n : Nat) (m : Message) : State :=
  (({ s with net := s.net.eraseIdx n }).received (dTile m.dest) m.region m.colour).resumeFlits

/-- MESSAGE_ARRIVAL (R121, R321): the n-th message on its way arrives, if nothing before it on its pair holds it
back. -/
def execMessageArrival (n : Nat) (s : State) : Host.Outcome State Fault Refusal :=
  .next (
    match s.net[n]? with
    | none => s
    | some m =>
      if (s.net.any fun x => s.holdsBack x m) || (s.decs.any fun d => s.decBefore d m) then s
      else if s.leaves' m then ({ s with net := s.net.eraseIdx n }).depart m
      else match s.undelivered m with
        | some reason => (s.takeMessage n m).bury reason m
        | none =>
          if s.away m.region then s
          else if m.sums then
            if !(s.heldAt (dTile m.dest) m.region) then (s.takeMessage n m).sumInto m
            else if s.blocked m then s
            else (s.takeMessage n m).holdSum m
          else if s.blocked m then s
          else (s.takeMessage n m).land m)

/-! Decrements. -/

/-- DECREMENT_ARRIVAL (R67): the n-th decrement on its way arrives, after everything before it on its pair (R27,
R68). -/
def execDecrementArrival (n : Nat) (s : State) : Host.Outcome State Fault Refusal :=
  .next (
    match s.decs[n]? with
    | none => s
    | some d =>
      let t := hTile d.handle
      let before (m : Message) : Bool :=
        decide (m.uid < d.uid) && m.source = d.src.toNat && dTile m.dest = t && !(s.leaves' m)
      let ahead := s.net.any before || s.decs.any fun x => decide (x.uid < d.uid) && x.src = d.src && hTile x.handle = t
      if ahead || s.away d.region then s
      else if s.heldAt t d.region then
        { (s.received t d.region d.colour) with decs := s.decs.eraseIdx n, heldDecs := s.heldDecs ++ [d] }
      else (({ s with decs := s.decs.eraseIdx n }).received t d.region d.colour).decrement d)

end Sys2Proof.Machine
end

