-- ==== Sys2Proof/Machine/BringUp.lean ====
section
/-! DEFINITION. Power-on, resets and bring-up (R31 to R38, R42), the link domain and lost links (R27, R29), failed
drives (R36), TIME and the thermal limits (R53, R56). -/

namespace Sys2Proof.Machine

/-- The hub after a reset: the fuses and the flash survive (R34). -/
def Hub.restart (h : Hub) : Hub :=
  { Hub.reset with phase := 1, slotA := h.slotA, slotB := h.slotB, activeB := h.activeB, counter := h.counter }

/-- The module as a reset leaves it, with step 1 of bring-up running (R31, R34). The bytes of memory stay until steps 8
and 9 zero them; host memory and the cellar are no part of the module. -/
def State.restart (s : State) : State :=
  { State.reset with
      agenda := s.agenda
      draws := s.draws
      uids := s.uids
      hub := s.hub.restart
      mem := s.mem
      cellar := s.cellar
      poison := s.poison }

/-- POWER_ON (R31). -/
def execPowerOn (s : State) : Host.Outcome State Fault Refusal := .next s.restart

/-- PCIE_CONVENTIONAL_RESET (R34). -/
def execPcieConventionalReset (s : State) : Host.Outcome State Fault Refusal := .next s.restart

/-- FUNCTION_LEVEL_RESET (R34). -/
def execFunctionLevelReset (s : State) : Host.Outcome State Fault Refusal := .next s.restart

/-- A step of bring-up runs. -/
def Hub.inStep (h : Hub) (n : BitVec 4) : Bool := h.phase = n && !h.fail && !h.ready

/-- A step has succeeded and the next one runs, or it has failed and no later one runs (R31, R33). -/
def State.stepEnd (s : State) (n : BitVec 4) (ok : Bool) : State :=
  s.modStat fun h => if ok then { h with phase := n + 1 } else { h with fail := true, failstep := n }

/-- A step of bring-up that leaves nothing else to see. -/
def State.bringUp (s : State) (n : BitVec 4) (ok : Bool) : State := if s.hub.inStep n then s.stepEnd n ok else s

/-- FUSE_LOAD (R31): step 1. -/
def execFuseLoad (ok : Bool) (s : State) : Host.Outcome State Fault Refusal := .next (s.bringUp 1 ok)

/-- The bytes of an image slot. -/
def Hub.slot (h : Hub) (b : Bool) : List (Nat × Byte) := if b then h.slotB else h.slotA

/-- An image is accepted (R37): its key and its signature are good, and its security version is not less than the fused
counter. -/
def Hub.accepts (h : Hub) (kind : Nat) (image : List (Nat × Byte)) : Bool :=
  Config.imageAccepted kind image && decide (h.counter ≤ Config.imageVersion image)

/-- The slot whose attic kernel the boot ROM starts, if it accepts one (R33, R37, R38): the active slot, and slot B where
slot A fails. -/
def Hub.bootSlot (h : Hub) : Option Bool :=
  if h.accepts 0 (h.slot h.activeB) then some h.activeB
  else if !h.activeB && h.accepts 0 h.slotB then some true
  else none

/-- ATTIC_KERNEL_VERIFY (R31, R33): step 2. From step 3 the mailbox is served (R49). -/
def execAtticKernelVerify (s : State) : Host.Outcome State Fault Refusal :=
  .next (
    if s.hub.inStep 2 then
      match s.hub.bootSlot with
      | some b =>
        (s.modHub fun h => { h with attic := true, runsB := b, runImage := h.slot b, mbxBusy := false }).stepEnd 2 true
      | none => s.stepEnd 2 false
    else s)

/-- CLOCK_CALIBRATION (R31): step 3. -/
def execClockCalibration (ok : Bool) (s : State) : Host.Outcome State Fault Refusal := .next (s.bringUp 3 ok)

/-- SRAM_REPAIR (R31, R33): step 4. -/
def execSramRepair (ok : Bool) (s : State) : Host.Outcome State Fault Refusal := .next (s.bringUp 4 ok)

/-- LINK_CALIBRATION (R31): step 5. -/
def execLinkCalibration (ok : Bool) (s : State) : Host.Outcome State Fault Refusal := .next (s.bringUp 5 ok)

/-- HBM_TRAINING (R31): step 6. -/
def execHbmTraining (ok : Bool) (s : State) : Host.Outcome State Fault Refusal := .next (s.bringUp 6 ok)

/-- PORT_EQUALISATION (R31, R35 to R37): step 7 verifies the link firmware of the image that runs, finds the drives that
are used and forms the cellar. The smallest drive's capacity is rounded down to a multiple of 128 KiB, and then counted n
times: the sentence of R36 can also be read to round the product (DESIGN CHOICE, log 66). -/
def execPortEqualisation (ok : Bool) (drives : BitVec 16) (driveBytes : Nat) (s : State) :
    Host.Outcome State Fault Refusal :=
  .next (
    let ok := ok && s.hub.accepts 1 s.hub.runImage
    if s.hub.inStep 7 && ok then
      let l := (List.range 16).filter fun i => drives.getLsbD i
      (s.modHub fun h =>
        { h with driveup := drives, drives := l, cellarBytes := l.length * (driveBytes / 131072 * 131072) }).stepEnd 7 true
    else s.bringUp 7 ok)

/-- HBM_ZEROING (R31, R32): step 8. -/
def execHbmZeroing (ok : Bool) (s : State) : Host.Outcome State Fault Refusal :=
  .next (
    if s.hub.inStep 8 && ok then
      ({ s with mem := zeroBytes s.mem 0 hbmEnd, poison := s.poison.filter fun u => hbmEnd ≤ u }).stepEnd 8 true
    else s.bringUp 8 ok)

/-- SRAM_ZEROING (R31, R32): step 9. -/
def execSramZeroing (ok : Bool) (s : State) : Host.Outcome State Fault Refusal :=
  .next (
    if s.hub.inStep 9 && ok then
      let s : State :=
        { s with mem := zeroBytes s.mem arrayBase arrayEnd
                 poison := s.poison.filter fun u => !(arrayBase ≤ u && u < arrayEnd)
                 tiles := s.tiles.map fun t => (t.1, { t.2 with l1 := [], icache := [] }) }
      s.stepEnd 9 true
    else s.bringUp 9 ok)

/-- Where the tiles' slots and reference blocks lie, as system software has placed them (R60, R327). -/
def placedSlots : List (Nat × SlotStore) :=
  (List.range 1024).map fun t => (t, ⟨Config.slotBase t, Config.slotBlocks t, []⟩)

/-- BOOT_IMAGE_LOAD (R31, R32, R37): step 10, and step 11, in which READY is set. System software has placed the slots of
every tile in its HBM by then (R60). -/
def execBootImageLoad (s : State) : Host.Outcome State Fault Refusal :=
  .next (
    if s.hub.inStep 10 then
      if s.hub.accepts 2 s.hub.runImage then
        ({ s with slotStores := placedSlots }.modHub fun h => { h with ready := true }).stepEnd 10 true
      else s.stepEnd 10 false
    else s)

/-! Links, drives, TIME and temperature. -/

/-- Every loaded region is asked to freeze. -/
def State.freezeAll (s : State) : State :=
  s.regions.foldl (fun s x => s.askFreeze (BitVec.ofNat 16 x.1)) s

/-- The module stops for good until it is reset: every region freezes, FAIL is set and FAILSTEP says why (R27, R56). Where
FAIL is set already, the later reason stands in FAILSTEP (DESIGN CHOICE, log 72). -/
def State.failWith (s : State) (why : BitVec 4) : State :=
  s.freezeAll.modStat fun h => { h with fail := true, failstep := why }

/-- LINK_LOST (R27): a link has exhausted its 64 replays. Before power-on no link runs. -/
def execLinkLost (s : State) : Host.Outcome State Fault Refusal :=
  .next (if s.hub.phase = 0 then s else s.failWith 0xF)

/-- PORT_FAILURE (R29): a port no longer serves; the hub sends what was not acknowledged on another route, in order. -/
def execPortFailure (port : BitVec 4) (s : State) : Host.Outcome State Fault Refusal :=
  .next (
    if s.hub.linkup.getLsbD port.toNat then
      s.modStat fun h => { h with linkup := h.linkup &&& ~~~((1 : BitVec 16) <<< port.toNat) }
    else s)

/-- An armed gang slot when TSYNC has fallen: it is refused with NOSYNC (R55). -/
def Gang.unsync (g : Gang) : Gang := if g.state = 1 then { g with state := 3, cause := 2 } else g

/-- The hub with TSYNC updated: where it is 0, the armed gang slots are refused (R53, R55). -/
def Hub.setSync (h : Hub) (b : Bool) : Hub := { h with tsync := b, gangs := if b then h.gangs else h.gangs.map Gang.unsync }

/-- The number of the time master of the device's domain: the lowest device number of it (R53). -/
def Hub.masterNumber (h : Hub) : Nat := h.routes.foldl (fun n r => min n r.device.toNat) h.devnum.toNat

/-- The device is the time master of its domain (R53). -/
def Hub.master (h : Hub) : Bool := h.masterNumber = h.devnum.toNat

/-- LINK_DOMAIN_FORMATION (R29, R53): the device has a number, ports have joined, and the routing table is filled. A time
master has no offset: its TSYNC is 1, and it has no rate to adjust. Another device's TSYNC is 0 until it has been
synchronised to a master that is new to it (DESIGN CHOICE, log 67). -/
def execLinkDomainFormation (devnum : BitVec 8) (linkup : BitVec 16) (routes : List Route) (s : State) :
    Host.Outcome State Fault Refusal :=
  .next (
    if s.hub.ready && devnum ≠ 0xFF then
      let joined : Hub := { s.hub with devnum := devnum, linkup := linkup, routes := routes }
      let same : Bool := s.hub.devnum ≠ 0xFF && !s.hub.master && joined.masterNumber = s.hub.masterNumber
      let s : State := { s with ppm := if joined.master then 0 else s.ppm }
      s.modStat fun h =>
        ({ h with devnum := devnum, linkup := linkup, routes := routes }).setSync (joined.master || (same && h.tsync))
    else s)

/-- TIME_SYNC (R53, R55): in a domain, TIME is stepped forward during the first synchronisation only, its rate is
adjusted, and TSYNC is updated. The time master synchronises itself to nothing: it keeps its time and its rate, and its
TSYNC is 1. TIME never decreases: a step that would pass the end of its 64 bits is none (DESIGN CHOICE, log 67). -/
def execTimeSync (advance : BitVec 64) (ppm : Int) (synced : Bool) (s : State) : Host.Outcome State Fault Refusal :=
  .next (
    if s.hub.devnum = 0xFF then s
    else
      let master := s.hub.master
      let steps := !s.synced && !master && decide (s.time.toNat + advance.toNat < 2 ^ 64)
      let s : State :=
        { s with time := if steps then s.time + advance else s.time
                 ppm := if master then 0 else ppm
                 synced := s.synced || !master }
      s.fireDue.modStat fun h => h.setSync (synced || master))

/-- DRIVE_FAILURE (R36): a drive in use has failed after READY. -/
def execDriveFailure (drive : BitVec 4) (s : State) : Host.Outcome State Fault Refusal :=
  .next (
    if s.hub.ready && s.hub.driveup.getLsbD drive.toNat then
      s.modStat fun h => { h with driveup := h.driveup &&& ~~~((1 : BitVec 16) <<< drive.toNat) }
    else s)

/-- THERMAL_THROTTLE (R56): the clock falls by 100 MHz, to 600 MHz at the lowest. -/
def execThermalThrottle (s : State) : Host.Outcome State Fault Refusal :=
  .next { s with clockMHz := max 600 (s.clockMHz - 100) }

/-- THERMAL_RECOVERY (R56): the clock rises by 100 MHz, to 1,200 MHz at the highest. -/
def execThermalRecovery (s : State) : Host.Outcome State Fault Refusal :=
  .next { s with clockMHz := min 1200 (s.clockMHz + 100) }

/-- STOP_TEMPERATURE (R56): every region freezes and the module fails; the compute dies lose power when all regions are
frozen (`State.powered`). -/
def execStopTemperature (s : State) : Host.Outcome State Fault Refusal :=
  .next (if s.hub.phase = 0 then s else (s.failWith 0xE).modHub fun h => { h with hot := true })

end Sys2Proof.Machine
end

