-- ==== Sys2Proof/Machine/Control.lean ====
section
/-! DEFINITION. Compares, predicate operations and control transfer (R287 to R293). -/

namespace Sys2Proof.Machine

/-- `cmp.cond pd, ga, gb` (R287). -/
def execCmp (p : BitVec 3) (a b : BitVec 5) (c : BitVec 6) (s : State) : Host.Outcome State Fault Refusal :=
  .next (s.putP p (condHolds c.toNat (s.g a) (s.g b)))

/-- `cmpi.cond pd, ga, #v` (R287): the immediate is sign-extended for codes 0 to 5 and zero-extended for 6 to 9. -/
def execCmpi (p : BitVec 3) (a : BitVec 5) (c : BitVec 4) (i : BitVec 11) (s : State) :
    Host.Outcome State Fault Refusal :=
  .next (s.putP p (condHolds c.toNat (s.g a) (if c.toNat < 6 then simm i else zimm i)))

/-- `pand pd, pa, pb` (R288). -/
def execPand (d a b : BitVec 3) (s : State) : Host.Outcome State Fault Refusal :=
  .next (s.putP d (s.p a && s.p b))

/-- `por pd, pa, pb` (R288). -/
def execPor (d a b : BitVec 3) (s : State) : Host.Outcome State Fault Refusal :=
  .next (s.putP d (s.p a || s.p b))

/-- `pxor pd, pa, pb` (R288). -/
def execPxor (d a b : BitVec 3) (s : State) : Host.Outcome State Fault Refusal :=
  .next (s.putP d (xor (s.p a) (s.p b)))

/-- `pnot pd, pa` (R288). -/
def execPnot (d a : BitVec 3) (s : State) : Host.Outcome State Fault Refusal :=
  .next (s.putP d (!s.p a))

/-- The state after a transfer that is taken or not. -/
def State.branch (s : State) (taken : Bool) (t : Word) : State := if taken then s.jump t else s.advance 4

/-- `b p, target` and `b !p, target` (R290). -/
def execB (p : BitVec 3) (e : BitVec 1) (o : BitVec 21) (s : State) : Host.Outcome State Fault Refusal :=
  .next (s.branch (s.p p = (e = 1)) (target s.pc o))

/-- `j target` (R291). -/
def execJ (o : BitVec 25) (s : State) : Host.Outcome State Fault Refusal :=
  .next (s.jump (target s.pc o))

/-- `call target` (R291). -/
def execCall (o : BitVec 25) (s : State) : Host.Outcome State Fault Refusal :=
  .next ((s.setG lk (s.pc + 4)).jump (target s.pc o))

/-- A register jump judges its target before it changes anything (R292). -/
def checkTarget (s : State) (t : Word) : Except Stop Unit := do
  let _ ← if bits t 63 56 = 0 then .ok () else stopAt s .rangeNone t
  need s (bits t 0 0 = 0) .misalignedTarget

/-- `jr ga` (R292). -/
def execJr (a : BitVec 5) (s : State) : Host.Outcome State Fault Refusal :=
  settle do
    let _ ← checkTarget s (s.g a)
    .ok (s.jump (s.g a))

/-- `callr ga` (R292): the target is read before the link is written. -/
def execCallr (a : BitVec 5) (s : State) : Host.Outcome State Fault Refusal :=
  settle do
    let _ ← checkTarget s (s.g a)
    .ok ((s.setG lk (s.pc + 4)).jump (s.g a))

/-- `ret` (R292). -/
def execRet (s : State) : Host.Outcome State Fault Refusal :=
  settle do
    let _ ← checkTarget s (s.g lk)
    .ok (s.jump (s.g lk))

/-- `nop` (R292). -/
def execNop (s : State) : Host.Outcome State Fault Refusal :=
  .next (s.advance 4)

/-- `loop greg, target` (R293): the counter is tested as the register reads after the decrement, and `loop g0`
always branches. -/
def execLoop (r : BitVec 5) (o : BitVec 18) (s : State) : Host.Outcome State Fault Refusal :=
  .next ((s.setG r (s.g r - 1)).branch (s.g r - 1 ≠ 0) (target s.pc o))

/-- `bz greg, target` (R293). -/
def execBz (r : BitVec 5) (o : BitVec 18) (s : State) : Host.Outcome State Fault Refusal :=
  .next (s.branch (s.g r = 0) (target s.pc o))

/-- `bnz greg, target` (R293). -/
def execBnz (r : BitVec 5) (o : BitVec 18) (s : State) : Host.Outcome State Fault Refusal :=
  .next (s.branch (s.g r ≠ 0) (target s.pc o))

end Sys2Proof.Machine
end

