-- ==== Sys2Proof/Machine/Fetch.lean ====
section
/-! DEFINITION. The fetch of an instruction through the instruction cache (R253, R254). -/

namespace Sys2Proof.Machine

/-- What a fetch of one instruction comes to. -/
inductive Fetched where
  /-- The bits of the instruction. -/
  | word (s : State) (insn : Nat)
  /-- A halfword whose fetch stops: the cause, its address, and the bits fetched before it. -/
  | stop (s : State) (c : Cause) (addr : Word) (insn : Nat)
  /-- The halfword's physical address has no memory (R126). -/
  | hole (pa : Nat)
  deriving DecidableEq, Repr

/-- A line enters the instruction cache of a tile for a region; the cache holds 512, and a full one loses a line of the
device's choice. -/
def State.fillIcache (s : State) (t : BitVec 10) (r : BitVec 16) (line : Nat) : State :=
  let new : CodeLine := ⟨line, BitVec.ofNat 1024 (s.peekNat (line * 128) 128), [r]⟩
  if (s.tile t).icache.length < 512 then s.modTile t fun x => { x with icache := x.icache ++ [new] }
  else match s.pick (s.tile t).icache with
    | (some v, s) => s.modTile t fun x => { x with icache := (x.icache.filter fun c => !(c.line = v.line)) ++ [new] }
    | (none, s) => s

/-- The line of a tile's instruction cache that holds an address. -/
def Tile.icacheLine (t : Tile) (pa : Nat) : Option CodeLine := t.icache.find? fun c => c.line = pa / 128

/-- The state in which a region's fetch has met a line in a tile's instruction cache: an invalidation for the region drops
it (R254). -/
def State.noteCode (s : State) (t : BitVec 10) (r : BitVec 16) (c : CodeLine) : State :=
  if c.regions.contains r then s
  else
    let met (y : CodeLine) : CodeLine := { y with regions := r :: y.regions }
    s.modTile t fun x => { x with icache := replaceFirst (fun y => y.line = c.line) met x.icache }

/-- One halfword fetched for a thread (R254): its value, or the cause that stops its fetch; none where there is no
memory. A use-once line that it reads at its home leaves (R156). -/
def State.fetchHalf (s : State) (x : ThreadId) (va : Word) : Option (State × Except Cause Nat) :=
  let t := s.thread x
  match s.translate x.tile t.region (s.lineage t.fibre) va 2 .fetch with
  | .error (c, s) => some (s, .error c)
  | .ok (s, e) =>
    let pa := e.phys va.toNat
    match s.arrayCheck pa 2 .fetch with
    | .error (c, s) => some (s, .error c)
    | .ok () =>
      if (home? pa).isNone then none
      else match s.residency t.region e va.toNat 2 with
        | .error (s, _) => some (s, .error .partialResidency)
        | .ok () =>
          match (s.tile x.tile).icacheLine pa with
          | some c => some (s.noteCode x.tile t.region c, .ok (leNat (lineBytes c.data (pa % 128) 2)))
          | none =>
            let s := s.drainStep x.tile pa 2
            let qa := s.forwarded va.toNat pa
            match (s.tile x.tile).icacheLine qa with
            | some c => some (s.noteCode x.tile t.region c, .ok (leNat (lineBytes c.data (qa % 128) 2)))
            | none =>
              let s := s.touch qa 2 false
              if poisoned s.poison qa 2 then some (s.answered qa 2, .error .poison)
              else
                let h := s.peekNat qa 2
                let s := if poisoned s.poison (qa / 128 * 128) 128 then s else s.fillIcache x.tile t.region (qa / 128)
                some (s.consumeOnce qa 2, .ok h)

/-- The instruction at a thread's pc fetched (R253, R254). The second halfword follows the first: past 2^56 no range
covers it (R131). -/
def State.fetch (s : State) (x : ThreadId) : Fetched :=
  let pc := (s.thread x).pc
  match s.fetchHalf x pc with
  | none => .hole 0
  | some (s, .error c) => .stop s c pc 0
  | some (s, .ok lo) =>
    if lo % 2 = 0 then .word s lo
    else
      let va := pc + 2
      match s.fetchHalf x va with
      | none => .hole 0
      | some (s, .error c) => .stop s c va lo
      | some (s, .ok hi) => .word s (lo + hi * 2 ^ 16)

/-- The cause of a word that is no instruction (R259). -/
def badCause : Bad → Cause
  | .zeroHalfword => .zeroHalfword
  | .reservedMajor => .reservedMajor
  | .reservedMinor => .reservedMinor
  | .reservedField => .reservedField
  | .truncated => .zeroHalfword

end Sys2Proof.Machine
end

