-- ==== Sys2Proof/Machine/Errors.lean ====
section
/-! DEFINITION. Accesses that arrive at their homes (R160, R161), stops of a fetch (R254, R259), and errors of memory and
of the host (R26, R149). -/

namespace Sys2Proof.Machine

/-- An earlier store with which it keeps its order is on its way (R141, R161, R166). -/
def State.behind (s : State) (n : Nat) (a : Access) : Bool := (s.inflight.take n).any fun x => s.keptOrder x a



/-- ACCESS_PERFORMED_AT_HOME (R150, R160, R161): a store on its way is performed, after every earlier one with which it
keeps its order. While the host holds its line the hub sends BISnp, and the store is performed by a later event, once the
host has answered. -/
def execAccessPerformedAtHome (n : Nat) (s : State) : Host.Outcome State Fault Refusal :=
  match s.inflight[n]? with
  | none => .next s
  | some a =>
    if s.behind n a then .next s
    else if s.hostHolds (s.landsAt a) a.data.length then
      .next { s with hostLines := snooped s.hostLines (s.landsAt a) a.data.length }
    else .next (({ s with inflight := s.inflight.eraseIdx n }).performFlight a)

/-- The blocks that a fetch of a thread touches and waits for, by physical address (R99, R153). -/
def State.fetchBlocks (s : State) (x : ThreadId) (va : Word) : List Nat :=
  let t := s.thread x
  match s.translate x.tile t.region (s.lineage t.fibre) va 2 .fetch with
  | .ok (s, e) =>
    match s.residency t.region e va.toNat 2 with
    | .error (_, l) => l
    | .ok () => []
  | .error _ => []

/-- The state in which the bits fetched are the current thread's instruction. -/
def State.setInsn (s : State) (insn : BitVec 32) : State := s.modSelf fun t => { t with insn := insn }

/-- FETCH_STOP (R254): the current thread's fetch stops with a cause at an address. -/
def execFetchStop (cause : Cause) (addr : Word) (insn : BitVec 32) (s : State) : Host.Outcome State Fault Refusal :=
  match s.fetch s.cur with
  | .stop s' c a w =>
    if s.self.active && c = cause && a = addr && BitVec.ofNat 32 w = insn then
      let park := if c = .partialResidency then some (Park.residency (s'.fetchBlocks s.cur a)) else none
      .next ((s'.setInsn insn).stop ⟨c, a, 0, park, none⟩)
    else .next s
  | _ => .next s

/-- NOT_AN_INSTRUCTION (R259): the current thread's bits are no instruction. -/
def execNotAnInstruction (cause : Cause) (insn : BitVec 32) (s : State) : Host.Outcome State Fault Refusal :=
  match s.fetch s.cur with
  | .word s' w =>
    match decodeWord w with
    | .error e =>
      if s.self.active && badCause e = cause && BitVec.ofNat 32 w = insn then
        .next ((s'.setInsn insn).stop ⟨cause, 0, 0, none, none⟩)
      else .next s
    | .ok _ => .next s
  | _ => .next s

/-- UNCORRECTABLE_ERROR (R26, R108, R112, R146): in the L1 of a tile, the line that holds a byte is invalid, and the access
that found the error fetches it again; elsewhere the unit of HBM, of a cluster memory or of an array that holds the byte
is poisoned. -/
def execUncorrectableError (place : ErrorPlace) (s : State) : Host.Outcome State Fault Refusal :=
  match place with
  | .l1 t pa => .next (s.dropLine t pa.toNat)
  | .home pa =>
    match home? pa.toNat with
    | none | some .host => .next s
    | some _ => .next (s.mark pa.toNat 1)

/-- HOST_ACCESS_TIMEOUT (R149): the host does not answer an access to a line. Stores that are on their way to it are lost;
where none is, the next access that reads the line reads it as poisoned (log 14). -/
def execHostAccessTimeout (pa : BitVec 52) (s : State) : Host.Outcome State Fault Refusal :=
  let line := pa.toNat / 128 * 128
  let lost (a : Access) : Bool := a.pa / 128 * 128 = line
  match home? pa.toNat with
  | some .host =>
    .next (
      if s.inflight.any lost then { s with inflight := s.inflight.filter fun a => !lost a }
      else if poisoned s.poison line 128 then s
      else { s.mark line 1 with unanswered := s.unanswered ++ [line] })
  | _ => .next s

end Sys2Proof.Machine
end

