-- ==== Sys2Proof/Machine/HostIn.lean ====
section
/-! DEFINITION. What the host does to the module through BAR0 and its memory windows (R41 to R48, R54, R55, R150, R151):
register writes, host messages, gang slots, and accesses to device memory. -/

namespace Sys2Proof.Machine

/-- HOST_MESSAGE (R44 to R47): a host write to the message window. Before READY its flits are discarded; those for which
the hub buffer has no room wait, and the module takes none once it has failed (R27, R56). -/
def execHostMessage (off : BitVec 16) (data : List (BitVec 8)) (s : State) : Host.Outcome State Fault Refusal :=
  .next (
    let o := off.toNat
    let n := data.length
    if n = 0 then s
    else if !s.hub.ready then
      s.modStat fun h => { h with hmdrop := h.hmdrop + wd ((o + n - 1) / 64 + 1 - o / 64), early := true }
    else if !s.hub.takes then s
    else if o % 64 ≠ 0 || n % 64 ≠ 0 then s.hmError
    else s.offer ((List.range (n / 64)).map fun i => (o / 64 + i, (data.drop (64 * i)).take 64)))

/-- HOST_MESSAGE_TIMEOUT (R45): the flits of a message have not all arrived within 2^20 ticks of its header. -/
def execHostMessageTimeout (slot : BitVec 10) (s : State) : Host.Outcome State Fault Refusal :=
  .next (
    match s.hub.assemblies.find? fun a => a.slot = slot.toNat with
    | some a => if a.late s.time then s.dropAssembly slot.toNat else s
    | none => s)

/-! Registers (R41). -/

/-- Byte i of a word replaced. -/
def putByte (w : Word) (i : Nat) (x : Byte) : Word := wd (setBits w.toNat (8 * i + 7) (8 * i) x.toNat)

/-- The hub after one byte written to BAR0 (R41, R42, R54, R55): STAT clears EARLY and HMERR where ones are written,
GANGTICKn and the staging slots of slots that are not armed, and the request buffer. -/
def Hub.writeByte (h : Hub) (a : Nat) (x : Byte) : Hub :=
  if a = 2 then { h with early := h.early && !(x.getLsbD 1), hmerr := h.hmerr && !(x.getLsbD 2) }
  else if 0x240 ≤ a ∧ a < 0x280 then
    let n : BitVec 3 := BitVec.ofNat 3 ((a - 0x240) / 8)
    let g := h.gang n
    if g.state = 1 then h else h.setGang n { g with tick := putByte g.tick (a % 8) x }
  else if 0x2000 ≤ a ∧ a < 0x3000 then { h with request := bufferBytes h.request (a - 0x2000) [x] }
  else if 0x6000 ≤ a ∧ a < 0x6200 then
    let n : BitVec 3 := BitVec.ofNat 3 ((a - 0x6000) / 64)
    let g := h.gang n
    if g.state = 1 then h else h.setGang n { g with staged := bufferBytes g.staged (a % 64) [x] }
  else h

/-- The hub after a doorbell with a sequence number (R49): it is ignored while BUSY is 1. -/
def Hub.doorbell (h : Hub) (seq : BitVec 16) : Hub :=
  if h.mbxBusy then { h with mbxOvr := true }
  else { h with mbxBusy := true, mbxDone := false, mbxOvr := false, mbxPending := some seq }

/-- REGISTER_WRITE (R41): a host write to BAR0 outside the message window and GANGCTLn. A write that touches MBXDB is a
doorbell with the bytes of its sequence number that the write covers. -/
def execRegisterWrite (off : BitVec 17) (data : List (BitVec 8)) (s : State) : Host.Outcome State Fault Refusal :=
  .next (
    let o := off.toNat
    let h := (data.zipIdx).foldl (fun h x => h.writeByte (o + x.2) x.1) s.hub
    let byteAt (a : Nat) : Nat := if o ≤ a then ((data[a - o]?).getD 0).toNat else 0
    let rings := decide (o < 0x1008) && decide (0x1000 < o + data.length)
    let h := if rings then h.doorbell (BitVec.ofNat 16 (byteAt 0x1000 + 256 * byteAt 0x1001)) else h
    s.modStat fun _ => h)

/-! Gang slots (R54, R55). -/

/-- GANG_ARM (R55): an ARM write is judged. Only before READY is the refusal NOTREADY; a module that has failed since arms a
slot as any other does (log 40). -/
def execGangArm (n : BitVec 3) (s : State) : Host.Outcome State Fault Refusal :=
  let g := s.hub.gang n
  let put (g : Gang) : State := s.modHub fun h => h.setGang n g
  .next (
    if g.state = 1 then s
    else if !s.hub.ready then put { g with state := 3, cause := 4 }
    else if !s.hub.tsync then put { g with state := 3, cause := 2 }
    else if !g.flitOk then put { g with state := 3, cause := 3 }
    else if g.tick.toNat < s.time.toNat + 2000 then put { g with state := 3, cause := 1 }
    else put { g with state := 1, cause := 0 })

/-- GANG_CANCEL (R55): an armed slot whose tick has not come returns to idle. -/
def execGangCancel (n : BitVec 3) (s : State) : Host.Outcome State Fault Refusal :=
  let g := s.hub.gang n
  .next (
    if g.state = 1 && decide (s.time.toNat < g.tick.toNat) then s.modHub fun h => h.setGang n { g with state := 0, cause := 0 }
    else s)

/-- GANG_FIRE (R55): the tick of an armed slot has come. -/
def execGangFire (n : BitVec 3) (s : State) : Host.Outcome State Fault Refusal :=
  .next (if (s.hub.gang n).due s.time then s.fireGang n else s)

/-! Device memory through the HDM windows (R150, R151). -/

/-- The host range that covers an access of n bytes with a permission. R151 speaks of the one entry that covers an offset,
and nothing refuses entries that overlap: of several the first in table order is taken that covers the access and permits it
(DESIGN CHOICE, log 88). -/
def Hub.hostRange (h : Hub) (off n : Nat) (write : Bool) : Option RangeEntry :=
  (h.ranges.map (·.2)).find? fun e =>
    e.vbase ≤ off && decide (off + n ≤ e.limit) && (if write then e.permW else e.permR)

/-- A host access that R151 does not let through: a read answers poison, and HMERR is set. -/
def State.hdmRefused (s : State) (write : Bool) : State :=
  s.modStat fun h => { h with hmerr := true, hostRead := if write then h.hostRead else none }

/-- The state in which the host holds the lines of n bytes of device memory (R150). -/
def State.hostTakes (s : State) (pa n : Nat) : State :=
  if n = 0 then s
  else { s with hostLines :=
    (List.range ((pa + n - 1) / 128 + 1 - pa / 128)).foldl (fun l i => insertNat l ((pa / 128 + i) * 128)) s.hostLines }

/-- HOST_HDM_ACCESS (R150, R151): a host read or write of device memory, performed at its homes. In a tile's array it
reaches what a range may reach, and no write lands in a landing zone (R106). From then on the host holds the lines (DESIGN
CHOICE, log 78). -/
def execHostHdmAccess (off : BitVec 64) (len : Nat) (store : Option (List (BitVec 8))) (s : State) :
    Host.Outcome State Fault Refusal :=
  let write := store.isSome
  let n := match store with
    | some bs => bs.length
    | none => len
  match s.hub.hostRange off.toNat n write with
  | none => .next (s.hdmRefused write)
  | some e =>
    let pa := s.forwarded off.toNat (e.phys off.toNat)
    match s.arrayCheck pa n (if write then .write else .read) with
    | .error _ => .next (s.hdmRefused write)
    | .ok () =>
      match home? pa with
      | none => .fault (.noMemory pa)
      | some _ =>
        match store with
        | some bs => .next (((s.normalise pa n).poke pa bs).hostTakes pa n)
        | none =>
          let bs := if poisoned s.poison pa n then none else some (s.peek pa n)
          .next ((((s.touch pa n false).consumeOnce pa n).hostTakes pa n).modHub fun h => { h with hostRead := bs })

end Sys2Proof.Machine
end

