-- ==== Sys2Proof/Machine/Immediate.lean ====
section
/-! DEFINITION. Immediate forms, constants and addresses (R285, R286). -/

namespace Sys2Proof.Machine

/-- `addi gd, ga, #v` (R285). -/
def execAddi (d a : BitVec 5) (i : BitVec 15) (s : State) : Host.Outcome State Fault Refusal :=
  .next (s.putG d (s.g a + simm i))

/-- `andi gd, ga, #v` (R285). -/
def execAndi (d a : BitVec 5) (i : BitVec 15) (s : State) : Host.Outcome State Fault Refusal :=
  .next (s.putG d (s.g a &&& simm i))

/-- `ori gd, ga, #v` (R285). -/
def execOri (d a : BitVec 5) (i : BitVec 15) (s : State) : Host.Outcome State Fault Refusal :=
  .next (s.putG d (s.g a ||| zimm i))

/-- `xori gd, ga, #v` (R285). -/
def execXori (d a : BitVec 5) (i : BitVec 15) (s : State) : Host.Outcome State Fault Refusal :=
  .next (s.putG d (s.g a ^^^ simm i))

/-- `shli gd, ga, #n` (R285). -/
def execShli (d a : BitVec 5) (n : BitVec 6) (s : State) : Host.Outcome State Fault Refusal :=
  .next (s.putG d (shiftLeft (s.g a) (zimm n)))

/-- `shri gd, ga, #n` (R285). -/
def execShri (d a : BitVec 5) (n : BitVec 6) (s : State) : Host.Outcome State Fault Refusal :=
  .next (s.putG d (shiftRight (s.g a) (zimm n)))

/-- `srai gd, ga, #n` (R285). -/
def execSrai (d a : BitVec 5) (n : BitVec 6) (s : State) : Host.Outcome State Fault Refusal :=
  .next (s.putG d (shiftArith (s.g a) (zimm n)))

/-- `li` (R286). -/
def execLi (d : BitVec 5) (i : BitVec 20) (s : State) : Host.Outcome State Fault Refusal :=
  .next (s.putG d (simm i))

/-- `lih` (R286). -/
def execLih (d : BitVec 5) (i : BitVec 20) (s : State) : Host.Outcome State Fault Refusal :=
  .next (s.putG d (wd ((s.g d).toNat * 2 ^ 20) ||| zimm i))

/-- `addpc` (R286). -/
def execAddpc (d : BitVec 5) (i : BitVec 20) (s : State) : Host.Outcome State Fault Refusal :=
  .next (s.putG d (target s.pc i))

end Sys2Proof.Machine
end

