-- ==== Sys2Proof/Machine/Integer.lean ====
section
/-! DEFINITION. The integer register operations (R279 to R284). Each reads all of its sources before it writes
(R278). -/

namespace Sys2Proof.Machine

/-- `add gd, ga, gb` (R279). -/
def execAdd (d a b : BitVec 5) (s : State) : Host.Outcome State Fault Refusal :=
  .next (s.putG d (s.g a + s.g b))

/-- `sub gd, ga, gb` (R279). -/
def execSub (d a b : BitVec 5) (s : State) : Host.Outcome State Fault Refusal :=
  .next (s.putG d (s.g a - s.g b))

/-- `and gd, ga, gb` (R279). -/
def execAnd (d a b : BitVec 5) (s : State) : Host.Outcome State Fault Refusal :=
  .next (s.putG d (s.g a &&& s.g b))

/-- `or gd, ga, gb` (R279). -/
def execOr (d a b : BitVec 5) (s : State) : Host.Outcome State Fault Refusal :=
  .next (s.putG d (s.g a ||| s.g b))

/-- `xor gd, ga, gb` (R279). -/
def execXor (d a b : BitVec 5) (s : State) : Host.Outcome State Fault Refusal :=
  .next (s.putG d (s.g a ^^^ s.g b))

/-- `shl gd, ga, gb` (R280). -/
def execShl (d a b : BitVec 5) (s : State) : Host.Outcome State Fault Refusal :=
  .next (s.putG d (shiftLeft (s.g a) (s.g b)))

/-- `shr gd, ga, gb` (R280). -/
def execShr (d a b : BitVec 5) (s : State) : Host.Outcome State Fault Refusal :=
  .next (s.putG d (shiftRight (s.g a) (s.g b)))

/-- `sra gd, ga, gb` (R280). -/
def execSra (d a b : BitVec 5) (s : State) : Host.Outcome State Fault Refusal :=
  .next (s.putG d (shiftArith (s.g a) (s.g b)))

/-- `mul gd, ga, gb` (R279). -/
def execMul (d a b : BitVec 5) (s : State) : Host.Outcome State Fault Refusal :=
  .next (s.putG d (s.g a * s.g b))

/-- `mulh gd, ga, gb` (R279). -/
def execMulh (d a b : BitVec 5) (s : State) : Host.Outcome State Fault Refusal :=
  .next (s.putG d (Word.ofInt ((s.g a).toInt * (s.g b).toInt / 2 ^ 64)))

/-- `mulhu gd, ga, gb` (R279). -/
def execMulhu (d a b : BitVec 5) (s : State) : Host.Outcome State Fault Refusal :=
  .next (s.putG d (wd ((s.g a).toNat * (s.g b).toNat / 2 ^ 64)))

/-- `div gd, ga, gb` (R281). -/
def execDiv (d a b : BitVec 5) (s : State) : Host.Outcome State Fault Refusal :=
  .next (s.putG d (divSigned (s.g a) (s.g b)))

/-- `divu gd, ga, gb` (R281). -/
def execDivu (d a b : BitVec 5) (s : State) : Host.Outcome State Fault Refusal :=
  .next (s.putG d (divUnsigned (s.g a) (s.g b)))

/-- `rem gd, ga, gb` (R281). -/
def execRem (d a b : BitVec 5) (s : State) : Host.Outcome State Fault Refusal :=
  .next (s.putG d (remSigned (s.g a) (s.g b)))

/-- `remu gd, ga, gb` (R281). -/
def execRemu (d a b : BitVec 5) (s : State) : Host.Outcome State Fault Refusal :=
  .next (s.putG d (remUnsigned (s.g a) (s.g b)))

/-- `min gd, ga, gb` (R279). -/
def execMin (d a b : BitVec 5) (s : State) : Host.Outcome State Fault Refusal :=
  .next (s.putG d (if (s.g b).toInt < (s.g a).toInt then s.g b else s.g a))

/-- `max gd, ga, gb` (R279). -/
def execMax (d a b : BitVec 5) (s : State) : Host.Outcome State Fault Refusal :=
  .next (s.putG d (if (s.g a).toInt < (s.g b).toInt then s.g b else s.g a))

/-- `minu gd, ga, gb` (R279). -/
def execMinu (d a b : BitVec 5) (s : State) : Host.Outcome State Fault Refusal :=
  .next (s.putG d (if (s.g b).toNat < (s.g a).toNat then s.g b else s.g a))

/-- `maxu gd, ga, gb` (R279). -/
def execMaxu (d a b : BitVec 5) (s : State) : Host.Outcome State Fault Refusal :=
  .next (s.putG d (if (s.g a).toNat < (s.g b).toNat then s.g b else s.g a))

/-- `clz gd, ga` (R282). -/
def execClz (d a : BitVec 5) (s : State) : Host.Outcome State Fault Refusal :=
  .next (s.putG d (wd (leadingZeros (s.g a).toNat 64)))

/-- `ctz gd, ga` (R282). -/
def execCtz (d a : BitVec 5) (s : State) : Host.Outcome State Fault Refusal :=
  .next (s.putG d (wd (trailingZeros (s.g a).toNat 0 64)))

/-- `pop gd, ga` (R282). -/
def execPop (d a : BitVec 5) (s : State) : Host.Outcome State Fault Refusal :=
  .next (s.putG d (wd (onesCount (s.g a).toNat 64)))

/-- `ext gd, ga, gb` (R283). -/
def execExt (d a b : BitVec 5) (s : State) : Host.Outcome State Fault Refusal :=
  .next (s.putG d (extractField (s.g a) (s.g b)))

/-- `ins gd, ga, gb` (R283). -/
def execIns (d a b : BitVec 5) (s : State) : Host.Outcome State Fault Refusal :=
  .next (s.putG d (insertField (s.g d) (s.g a) (s.g b)))

/-- `sel gd, ga, gb, p` (R284). -/
def execSel (d a b : BitVec 5) (p : BitVec 3) (s : State) : Host.Outcome State Fault Refusal :=
  .next (s.putG d (if s.p p then s.g a else s.g b))

end Sys2Proof.Machine
end

