-- ==== Sys2Proof/Machine/System.lean ====
section
/-! DEFINITION. System forms (R405 to R412): `trap`, `eret`, the system registers, `halt`, `carve`, `bkpt`, `wpset` and
`sstep`. -/

namespace Sys2Proof.Machine

/-- `trap` (R406). -/
def execTrap (s : State) : Host.Outcome State Fault Refusal := settle (stopWith s .trap)

/-- `bkpt` (R230, R406). -/
def execBkpt (s : State) : Host.Outcome State Fault Refusal := settle (stopWith s .breakpoint)

/-- A region is a region or lies below it. -/
def State.atOrBelow (s : State) (anc r : BitVec 16) : Bool := r = anc || s.below anc r

/-- `eret ga, gb` (R214, R407). A fibre that goes on as if by `done` releases as one that ends (R70). -/
def execEret (a b : BitVec 5) (s : State) : Host.Outcome State Fault Refusal :=
  settle do
    let _ ← needPrivilege s
    let h := s.g a
    let d := (s.g b).toNat
    let _ ← need s (decide (d < 4)) .reservedField
    let settles := handleForm h && hKind h = 1 && match s.fibre? h with
      | some f => s.atOrBelow s.self.region f.region && f.fault.isSome
      | none => false
    let s := s.putP 7 settles
    .ok (
      if !settles then s
      else if d = 1 then (s.drainFibre h).dispose h d
      else s.dispose h d)

/-- NISTAT of a tile (R124). -/
def Tile.nistat (t : Tile) : Word := wd (t.nerr.toNat + t.lkind.toNat * 2 ^ 32 + t.lwhy.toNat * 2 ^ 36)

/-- WHERE of a thread (R408). -/
def State.whereWord (s : State) (x : ThreadId) : Word :=
  wd (x.tile.toNat + x.thread.toNat * 2 ^ 10 + (s.thread x).region.toNat * 2 ^ 13)

/-- A system register as `sysr` reads it (R408); none where the table lists no register. -/
def State.sysreg (s : State) (n : Nat) : Option Word :=
  if n = 0 then some s.cyc
  else if n = 1 then some s.time
  else if n = 2 then some s.hub.idWord
  else if n = 3 then some (s.whereWord s.cur)
  else if n = 4 then some (s.tile s.cur.tile).nistat
  else if n = 5 then some (s.tile s.cur.tile).carveWord
  else if 8 ≤ n ∧ n ≤ 11 then some (s.die (BitVec.ofNat 2 (n - 8))).srctl
  else if 12 ≤ n ∧ n ≤ 15 then some (s.die (BitVec.ofNat 2 (n - 12))).srstat
  else if n = 16 ∨ n = 17 then some 0
  else none

/-- The number of a system register (R277, R408). -/
def sysregNumber (n m : BitVec 5) : Nat := n.toNat * 32 + m.toNat

/-- `sysr gd, #n` (R408). -/
def execSysr (d n m : BitVec 5) (s : State) : Host.Outcome State Fault Refusal :=
  settle do
    let _ ← needPrivilege s
    match s.sysreg (sysregNumber n m) with
    | some x => .ok (s.putG d x)
    | none => stopWith s .sysregInvalid

/-- `sysw #n, gd` (R159, R408). -/
def execSysw (d n m : BitVec 5) (s : State) : Host.Outcome State Fault Refusal :=
  settle do
    let _ ← needPrivilege s
    let k := sysregNumber n m
    let x := s.g d
    if 8 ≤ k ∧ k ≤ 11 then do
      let _ ← need s (bits x 63 23 = 0) .reservedField
      .ok ((s.modDie (BitVec.ofNat 2 (k - 8)) fun y =>
        { y with reserve := BitVec.ofNat 22 (bits x 21 0), nolend := bit x 22 }).advance 4)
    else if k = 16 then do
      let _ ← need s (bits x 63 4 = 0 && 2 ≤ bits x 3 0) .reservedField
      .ok ((s.raise (BitVec.ofNat 4 (bits x 3 0))).advance 4)
    else if k = 17 then do
      let _ ← need s (bits x 63 18 = 0 && bits x 17 16 < 2) .reservedField
      let me := s.self.region
      let r := BitVec.ofNat 16 (bits x 15 0)
      let s' := (s.setP 7 (s.rgnctlOk me r)).advance 4
      .ok (if bits x 17 16 = 0 then s'.rgnctlFreeze me r else s'.rgnctlThaw me r)
    else stopWith s .sysregInvalid

/-- `halt` (R409). -/
def execHalt (s : State) : Host.Outcome State Fault Refusal :=
  settle do
    let _ ← needPrivilege s
    let r := s.self.region
    .ok (((s.advance 4).modSelf fun t => { t with suspended := true }).askFreeze r)

/-- A value of CARVE lies in the limits of R104. -/
def carveOk (x : Word) : Bool :=
  let used := 16 * bits x 4 0 + 96 * bits x 7 5 + bits x 13 8
  bits x 4 0 ≤ 16 && bits x 7 5 ≤ 4 && 2 ≤ bits x 13 8 && bits x 13 8 ≤ 32 && bits x 15 14 = 0 && bits x 63 25 = 0 &&
    used + 64 ≤ 384

/-- The landing zone of a tile holds a payload (R105, R121, R323). -/
def Tile.holdsPayload (t : Tile) : Bool :=
  classes.any (fun c => (t.queue c).any fun m => m.units ≠ 0) ||
    t.slots.any fun s => match s.2.fibre with
      | some f => f.kept.isSome
      | none => false

/-- The tile is quiescent for a writer of CARVE (R105); `writer` is the thread that may run an activation. -/
def Tile.quiescent (t : Tile) (writer : Option (BitVec 3)) : Bool :=
  ((List.range 8).all fun h => writer = some (BitVec.ofNat 3 h) || !(t.thread (BitVec.ofNat 3 h)).active) &&
    t.cmds.isEmpty && !t.holdsPayload

/-- A thread's tile registers as R17 gives them. -/
def Thread.clearTiles (t : Thread) : Thread :=
  { t with ttag := Vector.replicate 16 0, tshape := Vector.replicate 16 0x807F }

/-- The state with CARVE of a tile written: the whole array is zero, and tile registers and accumulators are as R17
gives them (R105). -/
def State.writeCarve (s : State) (t : BitVec 10) (tregs : BitVec 5) (accs : BitVec 3) (lzb : BitVec 6) : State :=
  let lo := tileBase t.toNat
  let hi := lo + 0x300000
  let s : State := { s with mem := zeroBytes s.mem lo hi, poison := s.poison.filter fun u => u < lo || hi ≤ u }
  s.modTile t fun x =>
    { x with tregs := tregs, accs := accs, lzb := lzb, threads := x.threads.map Thread.clearTiles }

/-- `carve ga` (R104, R105, R410). -/
def execCarve (a : BitVec 5) (s : State) : Host.Outcome State Fault Refusal :=
  settle do
    let _ ← needPrivilege s
    let x := s.g a
    let _ ← need s (carveOk x) .reservedField
    let _ ← need s ((s.tile s.cur.tile).quiescent (some s.cur.thread)) .carveBusy
    .ok ((s.writeCarve s.cur.tile (BitVec.ofNat 5 (bits x 4 0)) (BitVec.ofNat 3 (bits x 7 5))
      (BitVec.ofNat 6 (bits x 13 8))).advance 4)

/-- The watch pair in 16 bytes (R226). -/
def pairOf (w0 w1 : Word) : WatchPair where
  addr := BitVec.ofNat 52 (bits w0 51 0)
  sz := BitVec.ofNat 4 (bits w1 3 0)
  rd := bit w1 4
  wr := bit w1 5
  amo := bit w1 6
  eng := bit w1 7
  region := BitVec.ofNat 16 (bits w1 31 16)
  en := bit w1 32

/-- The home that the second operand of `wpset` names (R411); none where it names none. -/
def wpHome (b : Word) : Option Home :=
  if bit b 2 then if bits b 12 3 < 64 then some (.cmem (bits b 12 3)) else none
  else some (.tile (bits b 12 3))

/-- A pair image may be written to the home that is named (R411). -/
def State.pairOk (s : State) (w0 w1 b : Word) : Bool :=
  bits b 63 13 = 0 && bits w0 63 52 = 0 && bits w1 15 8 = 0 && bits w1 63 33 = 0 &&
    3 ≤ bits w1 3 0 && bits w1 3 0 ≤ 12 && bits w0 51 0 % 2 ^ bits w1 3 0 = 0 &&
    (wpHome b).isSome && home? (bits w0 51 0) = wpHome b &&
    (s.region? (BitVec.ofNat 16 (bits w1 31 16))).isSome &&
    s.atOrBelow s.self.region (BitVec.ofNat 16 (bits w1 31 16))

/-- `wpset ga, gb` (R226, R411). -/
def execWpset (a b : BitVec 5) (s : State) : Host.Outcome State Fault Refusal :=
  settle do
    let _ ← needPrivilege s
    let va := s.g a
    let (s, bs) ← loadChecked s va 16 16
    let w0 := wordAt bs 0
    let w1 := wordAt bs 1
    let gb := s.g b
    let _ ← need s (s.pairOk w0 w1 gb) .reservedField
    let pa := bits w0 51 0
    let i := bits gb 1 0
    let w := s.pairs pa
    let s := s.setPairs pa (if h : i < 4 then w.set i (pairOf w0 w1) else w)
    .ok (s.advance 4)

/-- A thread holds a suspended activation of a frozen region that a region may step (R412). -/
def State.steppable (s : State) (issuer : BitVec 16) (x : ThreadId) : Bool :=
  let t := s.thread x
  t.active && t.suspended && s.atOrBelow issuer t.region && match s.region? t.region with
    | some y => y.frozen
    | none => false

/-- `sstep ga` (R229, R412): the step is the next thing that happens, and the issuer goes on after its end. -/
def execSstep (a : BitVec 5) (s : State) : Host.Outcome State Fault Refusal :=
  settle do
    let _ ← needPrivilege s
    let x := s.g a
    let _ ← need s (bits x 63 13 = 0) .reservedField
    let y : ThreadId := ⟨BitVec.ofNat 10 (bits x 9 0), BitVec.ofNat 3 (bits x 12 10)⟩
    if s.steppable s.self.region y then
      let s := (s.putP 7 true).modSelf fun t => { t with hold := .stepping y }
      .ok { s with agenda := .step y.tile y.thread :: s.agenda }
    else .ok (s.putP 7 false)

end Sys2Proof.Machine
end

