-- ==== Sys2Proof/Machine/Loader.lean ====
section
/-! DEFINITION. What the attic kernel does with regions (R15, R16, R57, R58, R104, R127, R151, R188, R204, R223, R413,
R424, R426): loading, unloading, switching out and switching in. A load that is refused loads nothing. -/

namespace Sys2Proof.Machine

/-! The RCB of a load. -/

/-- The reserved fields of an RCB are zero (R57). -/
def State.rcbReserved (s : State) (rcb : Nat) : Bool :=
  s.rcbField rcb 0 23 19 = 0 && s.rcbField rcb 0 47 41 = 0 && s.rcbField rcb 0 63 50 = 0 &&
    s.rcbField rcb 2 63 27 = 0 && s.rcbField rcb 5 63 6 = 0 && s.rcbField rcb 7 63 5 = 0 &&
    s.rcbField rcb 9 31 22 = 0 && s.rcbField rcb 9 63 54 = 0 && s.rcbField rcb 11 63 32 = 0 &&
    (List.range 20).all fun i => s.rcbField rcb (12 + i) 63 0 = 0

/-- The fields of an RCB lie in their limits, overridden or not (R57). -/
def State.rcbLimits (s : State) (rcb : Nat) : Bool :=
  let f := s.rcbField rcb
  f 2 23 0 ≠ 0 && f 3 63 0 % 512 = 0 && f 4 63 0 % 256 = 0 && decide (10 ≤ f 5 5 0) && decide (f 5 5 0 ≤ 32) &&
    f 6 63 0 % 64 = 0 && decide (4 ≤ f 7 4 0) && decide (f 7 4 0 ≤ 16)

/-- The place of an RCB in its tree (R57, R58): a root sets the fields that have no default, and a child lies one below
its parent. -/
def State.rcbPlace (s : State) (rcb : Nat) : Bool :=
  let parent := s.rcbField rcb 1 63 0
  let depth := s.rcbField rcb 0 18 16
  if parent = 0 then
    depth = 0 && [3, 4, 6, 7].all fun n => bit (s.peekWord rcb) (32 + n)
  else parent % 256 = 0 && decide (parent < hbmEnd) && depth = s.rcbField parent 0 18 16 + 1

/-- An RCB may be loaded (R57, R58). A REGION number that is already loaded is refused, and PARENT may be any address of HBM
whose DEPTH fits, an RCB of a loaded region or not (DESIGN CHOICE, log 76). -/
def State.rcbOk (s : State) (rcb : Nat) : Bool :=
  rcb % 256 = 0 && decide (0 < rcb) && decide (rcb + 256 ≤ hbmEnd) && s.rcbReserved rcb && s.rcbLimits rcb &&
    s.rcbPlace rcb && (s.region? (BitVec.ofNat 16 (s.rcbField rcb 0 15 0))).isNone

/-! Blocks for the store rooms (R157). -/

/-- A block number lies in a run. -/
def Run.meets (r : Run) (first count : Nat) : Bool :=
  decide (r.first < first + count) && decide (first < r.first + 2 ^ r.order)

/-- The blocks of a run that is handed over lie in the die's HBM, and no store room holds one of them. -/
def State.blocksOk (s : State) (b : BlockRun) : Bool :=
  let d := b.die.toNat
  let x := s.die b.die
  decide (d * 3932160 ≤ b.first) && decide (b.first + b.count ≤ (d + 1) * 3932160) &&
    !((x.freeRuns ++ x.allocated).any fun r => r.meets b.first b.count) &&
    !(x.lent.any fun q => decide (q.base < b.first + b.count) && decide (b.first < q.base + 64))

/-- How a load ends without a region: an RCB that R57 refuses; an allocation, NEW or GROW, that the store room of a die
refuses (R157); another refusal; or a wait for a compaction of a die toward a run of an order (R143). -/
inductive LoadStop where
  | noRegion
  | noRoom (die : BitVec 2) (grow : Bool)
  | refused
  | later (die : BitVec 2) (k : Nat)
  deriving DecidableEq, Repr

/-- A load in the making. -/
abbrev Load := Except LoadStop State

/-- A condition of a load. -/
def loadNeeds (b : Bool) : Except LoadStop Unit := if b then .ok () else .error .refused

/-- A step of a load that needs room for the nodes of a region's tree (R424): refused where the store room has none. -/
def State.needsNodes (s : State) (r : BitVec 16) (x : Option State) : Load := match x with
  | some t => .ok t
  | none => .error (.noRoom (dieAt (s.rangeRoot r)) true)

/-- The state with blocks handed to a die's store room (R157). -/
def State.handBlocks (s : State) (b : BlockRun) : Load :=
  if s.blocksOk b then
    .ok (s.modDie b.die fun x =>
      { x with freeRuns := (alignedRuns (b.count + 1) b.first b.count).foldl (fun l r => mergeRun l (16 - r.order) r) x.freeRuns })
  else .error .refused

/-! The tiles of a load. -/

/-- The tiles on which a load installs handlers. -/
def handlerTiles (q : LoadRequest) : List (BitVec 10) := q.handlers.map (·.tile)

/-- The home tile of a `.ctx` (R413): the lowest of the `.tile` set in force at it, or tile 0. -/
def ctxTile (c : CtxDecl) : BitVec 10 := BitVec.ofNat 10 (((c.tiles.map (·.toNat)).min?).getD 0)

/-- `forks` of a load, 4 when it is not written (R15). -/
def loadForks (q : LoadRequest) : Nat := q.forks.getD 4

/-- SLABWIN and SLABLOG of a load (R426). -/
def loadSlab (q : LoadRequest) : Nat × Nat := match q.slab with
  | some x => (x.1.toNat, x.2)
  | none => (0x0080000000000000, 36)

/-- The tiles that a load uses, in rising order. -/
def loadTiles (q : LoadRequest) : List (BitVec 10) :=
  let l := handlerTiles q ++ q.keeps.map (·.tile) ++ q.ctxs.map ctxTile
  ((List.range 1024).map (BitVec.ofNat 10)).filter fun t => l.contains t

/-- The bytes of the kept regions of a load on a tile, a multiple of 256 (R15). -/
def keptBytes (q : LoadRequest) (t : BitVec 10) : Nat :=
  ((q.keeps.filter fun k => k.tile = t).foldl (fun n k => n + k.bytes) 0 + 255) / 256 * 256

/-- The offset of the context area of a load on a tile: after its kept regions and loader contexts (R204, R413). -/
def areaOffset (q : LoadRequest) (t : BitVec 10) : Nat := keptBytes q t + 1280 * (q.ctxs.filter fun c => ctxTile c = t).length

/-- The kept space of a load on a tile (R16). -/
def keptSpace (q : LoadRequest) (t : BitVec 10) : Nat :=
  areaOffset q t + if (handlerTiles q).contains t then 1280 * loadForks q else 0

/-- LZB of a load: that of the request, or 8 (R104). -/
def loadLzb (q : LoadRequest) : BitVec 6 := q.lzb.getD 8

/-- The request gives a valid CARVE (R104). -/
def carveValid (q : LoadRequest) : Bool :=
  carveOk (wd (q.tregs.toNat + q.accs.toNat * 2 ^ 5 + (loadLzb q).toNat * 2 ^ 8))

/-- The switched-in regions that use a tile, other than one. -/
def State.othersOn (s : State) (r : BitVec 16) (t : BitVec 10) : List RegionTile :=
  (s.regions.filter fun x => x.1 ≠ r.toNat && x.2.saved.isNone).flatMap fun x => x.2.tiles.filter fun y => y.tile = t

/-- The state with a tile prepared for a load (R16, R104, R105): a tile that no other region uses takes the CARVE of the
request; a shared one must give its request, and only one region holds kept space there. -/
def State.loadTile (s : State) (q : LoadRequest) (r : BitVec 16) (t : BitVec 10) : Load :=
  let need := keptSpace q t
  let others := s.othersOn r t
  let x := s.tile t
  if decide (0 < need) && others.any (fun y => decide (0 < y.kept)) then .error .refused
  else if others.isEmpty && x.quiescent none then
    let s := s.writeCarve t q.tregs q.accs (loadLzb q)
    if need ≤ 8192 * (s.tile t).spb then .ok s else .error .refused
  else if q.tregs ≤ x.tregs && q.accs ≤ x.accs && decide (need ≤ 8192 * x.spb) then
    let lo := tileBase t.toNat
    .ok { s with mem := zeroBytes s.mem lo (lo + need), poison := s.poison.filter fun u => u < lo || lo + need ≤ u }
  else .error .refused

/-- The state with the content of a load's kept regions placed (R15). -/
def State.placeKeeps (s : State) (q : LoadRequest) : State :=
  q.keeps.foldl (fun s k => k.data.foldl (fun s i => s.poke (tileBase k.tile.toNat + i.base) i.data) s) s

/-! The ranges of a load. -/

/-- A range over a part of the scratchpad window (R127), of GEN 1 (DESIGN CHOICE, log 75). -/
def windowEntry (vbase size : Nat) (w : Bool) : RangeEntry where
  vbase := vbase
  limit := vbase + size
  offset := 0xFF00100100000000
  permR := true
  permW := w
  permX := false
  priv := false
  shared := false
  cow := false
  vol := false
  tiered := false
  forwarding := false
  gen := 1
  fscope := 0
  rtag := 0
  owner := 0
  fbase := 0
  foff := 0
  btier := 0
  baddr := 0

/-- The state with a range in a region's tree, unless the tree holds one of the same interval; refused where it overlaps
another or a node cannot be had. -/
def State.ensureRange (s : State) (r : BitVec 16) (e : RangeEntry) : Load :=
  let l := s.leaves r
  if l.any fun x => x.entry.vbase = e.vbase && x.entry.limit = e.limit then .ok s
  else if l.any fun x => x.entry.overlaps e then .error .refused
  else s.needsNodes r (s.addRange r e 0)

/-- The two window ranges of a tile of a region (R127). -/
def State.windowRanges (s : State) (r : BitVec 16) (t : BitVec 10) : Load := do
  let x := s.tile t
  let base := windowBase + t.toNat * 0x400000
  let s ← s.ensureRange r (windowEntry base (8192 * x.spb) true)
  s.ensureRange r (windowEntry (base + x.lzOff) x.lzBytes false)

/-- The state in which the root of a region's tree has two children: a root that system software left empty gets a filler
leaf (log 7). -/
def State.initTree (s : State) (r : BitVec 16) : Load :=
  let root := s.rangeRoot r
  if 2 ≤ s.childCount root then .ok s
  else s.needsNodes r ((s.takeHalf (s.treeOf r)).map fun x =>
    (x.2.poke x.1 (leBytes 128 0)).writeNode root [⟨0, x.1 + 1⟩, ⟨2 ^ 56, x.1 + 1⟩])

/-- A code image of a load begins at a multiple of 4,096, and each handler's code begins at a halfword of the image of its
tile; the region has one image on a tile and one root handler (R15). -/
def codeOk (q : LoadRequest) : Bool :=
  q.code.all (fun c => c.base.toNat % 4096 = 0) && decide (q.code.map (·.tile)).Nodup &&
    (q.handlers.all fun h => q.code.any fun c =>
      c.tile = h.tile && h.entry.toNat % 2 = 0 && decide (c.base.toNat ≤ h.entry.toNat) &&
        decide (h.entry.toNat < c.base.toNat + c.data.length)) &&
    q.handlers.any fun h => h.number = q.root

/-- The state with a tile's code image placed where the region's tree has it; refused where no range covers it whole
(R15, R125). -/
def State.placeCode (s : State) (r : BitVec 16) (c : CodeDecl) : Load :=
  match s.leafAt r c.base.toNat with
  | some l =>
    if c.base.toNat + c.data.length ≤ l.entry.limit then .ok (s.poke (l.entry.phys c.base.toNat) c.data)
    else .error .refused
  | none => .error .refused

/-- The slab window of a load lies below the scratchpad window and overlaps no range of the tree (R426). -/
def State.slabWindowOk (s : State) (q : LoadRequest) (r : BitVec 16) : Bool :=
  let (lo, log) := loadSlab q
  let hi := lo + (q.ctxs.length + 1024 * loadForks q) * 2 ^ log
  hi = lo || (decide (24 ≤ log) && decide (log ≤ 40) && decide (hi ≤ 2 ^ 56) &&
    !(decide (lo < windowBase + 0x100000000) && decide (windowBase < hi)) &&
    !((s.leaves r).any fun l => decide (l.entry.vbase < hi) && decide (lo < l.entry.limit)))

/-! Contexts. -/

/-- The CXD of the i-th loader context of a load, by physical address (R413). -/
def loaderCxd (q : LoadRequest) (i : Nat) (c : CtxDecl) : Nat :=
  let t := ctxTile c
  tileBase t.toNat + keptBytes q t + 1280 * ((q.ctxs.take i).filter fun d => ctxTile d = t).length

/-- The context slots of a load: loader contexts, then the areas of the tiles that run handlers (R204, R413, R426). -/
def loadCtxs (q : LoadRequest) : List CtxSlot :=
  (q.ctxs.zipIdx.map fun c => ⟨loaderCxd q c.2 c.1, true, c.2, [], 0, 0⟩) ++
    ((loadTiles q).filter fun t => (handlerTiles q).contains t).flatMap fun t =>
      (List.range (loadForks q)).map fun k =>
        ⟨tileBase t.toNat + areaOffset q t + 1280 * k, false, q.ctxs.length + loadForks q * t.toNat + k, [], 0, 0⟩

/-- KVH, DIM, KTAG and VTAG of a loader context: those of the request, or the values of R413. -/
def ctxShape (c : CtxDecl) : Nat × Nat × Nat × Nat :=
  ((c.kvh.getD 0).toNat, (c.dim.getD 0).toNat, (c.ktag.getD 1).toNat, (c.vtag.getD 1).toNat)

/-- The fields of a `.ctx` lie in the limits of R187. -/
def ctxOk (c : CtxDecl) : Bool :=
  let (_, _, k, v) := ctxShape c
  decide (8 ≤ c.caplog.toNat) && decide (c.caplog.toNat ≤ 20) && [1, 2].contains k && [1, 2, 4, 5].contains v

/-- The bytes of a new loader context's CXD and frame table (R187, R188, R413). -/
def loaderCtxBytes (c : CtxDecl) (slab : Nat) : List Byte :=
  let (h, d, k, v) := ctxShape c
  leBytes 8 (1 + 4 + c.caplog.toNat * 2 ^ 7 + c.layers.toNat * 2 ^ 18 + h * 2 ^ 25 + d * 2 ^ 31 + k * 2 ^ 35 +
    v * 2 ^ 39 + 2 ^ 48) ++
  leBytes 8 slab ++ leBytes 48 0 ++ leBytes 8 1 ++ leBytes 184 0 ++ leBytes 8 (2 ^ 48) ++ leBytes 1016 0

/-- The state with the i-th loader context created: its slab is a NEW allocation, and its range has no attributes (R188,
R413, R426). -/
def State.createCtx (s : State) (q : LoadRequest) (r : BitVec 16) (i : Nat) (c : CtxDecl) : Load :=
  let cxd := loaderCxd q i c
  let (win, log) := loadSlab q
  let slab := win + i * 2 ^ log
  let s := s.poke cxd (loaderCtxBytes c slab)
  let d := dieOf (ctxTile c)
  let k := s.slabOrder cxd c.caplog.toNat
  if 2 ^ log < 2 ^ k * 65536 then .error .refused
  else match s.newRun d k with
    | .refused _ => .error (.noRoom d false)
    | .later _ => .error (.later d k)
    | .given run s => do
      let s ← s.needsNodes r (s.addRange r { slabEntry slab (2 ^ k * 65536) run 0 with priv := false } 0)
      .ok (s.modCtxSlot cxd fun z => { z with slab := [(d, run)] })

/-! Scope tables. -/

/-- A bitmap of 1,024 bits at a virtual address of a region, or none set where no range covers it. -/
def State.bitmapAt (s : State) (r : BitVec 16) (va : Word) : BitVec 1024 :=
  if va = 0 then 0
  else match s.leafAt r va.toNat with
    | some l => BitVec.ofNat 1024 (leNat (s.peek (l.entry.phys va.toNat) 128))
    | none => 0

/-- An entry of a region's table as its memory gives it (R168). -/
def State.tableCopy (s : State) (r : BitVec 16) (sc : Nat) : ScopeCopy :=
  let a := s.scopeBase r + 32 * sc
  let w0 := s.peekWord a
  { state := BitVec.ofNat 2 (bits w0 1 0), gen := BitVec.ofNat 24 (bits w0 27 4), host := bit w0 2,
    cmem := s.peekWord (a + 8), tilesAt := s.peekWord (a + 16), spadsAt := s.peekWord (a + 24),
    tiles := s.bitmapAt r (s.peekWord (a + 16)), spads := s.bitmapAt r (s.peekWord (a + 24)) }

/-- The state with a region's copies of its scope table read afresh from SCOPEBASE (R168, R223). -/
def State.readTable (s : State) (r : BitVec 16) : State :=
  s.modRegion r fun x => { x with scopes := (List.range 12).map fun i => (i + 2, s.tableCopy r (i + 2)) }

/-- The state with a `.scope` entry of a load made live (R15, R169), refused where it is not free. -/
def State.loadScope (s : State) (r : BitVec 16) (d : ScopeDecl) : Load :=
  let c := s.scopeCopy r d.index
  if c.state ≠ 0 || fixedScope d.index then .error .refused
  else
    let y : ScopeCopy := ⟨1, nextGen c.gen, d.host, d.cmem, d.tilesAt, d.spadsAt, d.tiles, d.spads⟩
    .ok ((s.setScopeCopy r d.index y).poke (s.scopeEntry r d.index) y.bytes)

/-! Loading. -/

/-- An entry that a load asks for in the host range table keeps R129 and R151. -/
def hostRangeOk (d : HostRangeDecl) : Bool :=
  let e := entryOfBytes d.data
  d.data.length = 64 && decide (e.vbase < e.limit) && e.allowed && e.shared && !e.tiered && !e.cow && !e.priv

/-- The state with the entries that a load asks for in the host range table; one that the kernel refuses is not written
(R151). The fields that only the device writes do not come from software (R128). -/
def State.hostRanges (s : State) (l : List HostRangeDecl) : State :=
  (l.filter hostRangeOk).foldl (fun s d =>
    s.modHub fun h =>
      let gen := match mfind h.ranges d.index.toNat with
        | some e => e.gen + 1
        | none => 1
      { h with ranges := mset h.ranges d.index.toNat ((entryOfBytes d.data).fresh gen) }) s

/-- A region as its load leaves it. -/
def loadedRegion (q : LoadRequest) : Region where
  rcb := q.rcb.toNat
  root := q.root
  handlers := q.handlers
  tiles := (loadTiles q).map fun t => ⟨t, keptSpace q t, areaOffset q t⟩
  tregs := q.tregs
  accs := q.accs
  lzb := loadLzb q
  forks := loadForks q
  slabwin := (loadSlab q).1
  slablog := (loadSlab q).2
  nctx := q.ctxs.length
  ctxs := loadCtxs q
  scopes := []
  pool := []
  freeUnits := []
  freeHalves := []
  stopping := false
  thawing := false
  again := false
  frozen := false
  saved := none
  unloading := false

/-- A line lies in the image of one of some ranges: a fetch through them can meet it in the instruction cache. -/
def lineOf (es : List RangeEntry) (line : Nat) : Bool :=
  es.any fun e => inImage e.offset e.vbase e.limit line || (e.forwarding && inImage e.foff e.vbase e.fbase line)

/-- The state in which a tile's instruction cache has been invalidated for a region (R254): the lines that its fetches have
met are gone, whatever its ranges are now, and so are those that they can meet through its tree or through entries that come
back to the tile's table. -/
def State.dropCode (s : State) (r : BitVec 16) (t : BitVec 10) (back : List RangeEntry) : State :=
  let es := (s.leaves r).map (·.entry) ++ back
  s.modTile t fun x => { x with icache := x.icache.filter fun c => !(c.regions.contains r || lineOf es c.line) }

/-- The fields that only the device writes, in the RCB of a region that has just been loaded (R57). -/
def State.freshRcb (s : State) (rcb : Nat) : State :=
  (((s.setRcbField rcb 0 49 48 0).setRcbField rcb 8 63 32 0).setRcbField rcb 10 63 0 0).setRcbField rcb 11 31 0 0

/-- A part of a load over a list, up to the first refusal. -/
def loadAll {α : Type} (f : State → α → Load) : List α → State → Load
  | [], s => .ok s
  | x :: l, s => match f s x with
    | .ok s => loadAll f l s
    | .error e => .error e

/-- The region number of a load (R57). -/
def State.loadNumber (s : State) (q : LoadRequest) : BitVec 16 := BitVec.ofNat 16 (s.rcbField q.rcb.toNat 0 15 0)

/-- The state with a region loaded, or how the load ends without it (R15, R16, R57, R58, R104, R127, R413, R426). -/
def State.loadRegion (s : State) (q : LoadRequest) : Load := do
  loadNeeds (s.hub.ready && !s.hub.hot)
  let s ← loadAll State.handBlocks q.blocks s
  let s := q.images.foldl (fun s i => s.poke i.base i.data) s
  let _ ← if s.rcbOk q.rcb.toNat then .ok () else .error .noRegion
  loadNeeds (carveValid q && decide (loadForks q ≤ 64) && codeOk q && q.ctxs.all ctxOk)
  let r := s.loadNumber q
  let s ← loadAll (fun s t => s.loadTile q r t) (loadTiles q) s
  let s := (s.placeKeeps q).freshRcb q.rcb.toNat
  let s : State := { s with regions := mset s.regions r.toNat (loadedRegion q) }
  let s ← s.initTree r
  let s ← loadAll (fun s t => s.windowRanges r t) (loadTiles q) s
  let s ← loadAll (fun s c => s.placeCode r c) q.code s
  loadNeeds (s.slabWindowOk q r)
  let s ← loadAll (fun s c => s.createCtx q r c.2 c.1) q.ctxs.zipIdx s
  let s ← loadAll (fun s d => s.loadScope r d) q.scopes (s.readTable r)
  let s := (loadTiles q).foldl (fun s t => (s.dropCode r t []).modTile t fun x =>
    { x with cuts := mset x.cuts r.toNat CutState.reset }) s
  .ok (s.hostRanges q.hostRanges)

/-- The state with the answer to a load of a region. -/
def State.loadAnswer (s : State) (a : Option (BitVec 8)) : State := s.modHub fun h => { h with loadStatus := a }

/-- REGION_LOAD (R57): a refused load loads nothing, and it is answered NOREGION where the RCB is refused; the answer to
another refusal is open (log 43). The store room that has refused an allocation counts it, and notes that it has asked its
neighbours (R158, R159). A load whose slab waits for a compaction starts it, and is asked for again (R143). -/
def execRegionLoad (req : LoadRequest) (s : State) : Host.Outcome State Fault Refusal :=
  .next (match s.loadRegion req with
    | .ok t => t.loadAnswer (some statusOk)
    | .error .noRegion => s.loadAnswer (some statusNoregion)
    | .error .refused => s.loadAnswer (some (Config.loadRefusal req.rcb))
    | .error (.noRoom d grow) =>
      (if grow then s.refuseGrow d else s.refuseRun d).loadAnswer (some (Config.loadRefusal req.rcb))
    | .error (.later d k) =>
      (s.modDie d fun x => if x.compact.isSome then x else { x with compact := some (BitVec.ofNat 5 k) }).loadAnswer none)

/-! Unloading. -/

/-- The threads that run or hold an activation of a region. -/
def State.threadsOf (s : State) (r : BitVec 16) : List ThreadId :=
  s.tiles.flatMap fun t => (List.range 8).filterMap fun h =>
    let x : ThreadId := ⟨BitVec.ofNat 10 t.1, BitVec.ofNat 3 h⟩
    let y := t.2.thread x.thread
    if y.active && y.region = r then some x else none

/-- The state with the queued messages of a region that start nothing any more written as dead letters of reason 4
(R83). -/
def State.buryQueued (s : State) (r : BitVec 16) : State :=
  (s.tiles.map fun x => BitVec.ofNat 10 x.1).foldl (fun s t =>
    classes.foldl (fun s c =>
      let q := (s.tile t).queue c
      let out (m : Inbound) : Bool := m.msg.region = r && !m.running && m.holder = 0
      let s := s.modTile t fun x => x.setQueue c (q.filter fun m => !out m)
      (q.filter out).foldl (fun s m => s.bury 4 m.msg) s) s) s

/-- The state in which a region is unloading (R57, R188): RSTATE is 2, nothing of it starts any more, and its fibres are
reclaimed, those that a freeze has suspended at once; loader contexts that nothing counts on are freed. -/
def State.startUnload (s : State) (r : BitVec 16) : State :=
  let s := s.modRegion r fun x => { x with unloading := true }
  let s := (s.setRcbField (s.rcbOf r) 0 49 48 2).buryQueued r
  let s := (s.fibresWhere fun f => f.region = r).foldl (fun s h => s.setRclm h) s
  let s := match s.region? r with
    | some (x : Region) => (x.ctxs.filter CtxSlot.loader).foldl (fun (s : State) (c : CtxSlot) => s.releaseCtx c.cxd) s
    | none => s
  (s.threadsOf r).foldl (fun s x => if (s.thread x).suspended then s.reclaimRunning x else s) s

/-- Nothing of a region runs or is under way any longer. -/
def State.quiet (s : State) (r : BitVec 16) : Bool :=
  (s.threadsOf r).isEmpty && (s.fibresWhere fun f => f.region = r).isEmpty &&
    s.tiles.all (fun t => t.2.cmds.all fun c => c.region ≠ r) && s.moves.all (fun m => m.region ≠ r) &&
    s.releases.all (fun x => x.region ≠ r) && s.inflight.all (fun a => a.region ≠ r)

/-- A tile without what it holds for a region: range table entries, cut state, queued messages, and futures that no fibre
has. -/
def Tile.forget (r : BitVec 16) (t : Tile) : Tile :=
  { t with
      rtable := t.rtable.filter fun e => e.rtag ≠ r
      cuts := mdel t.cuts r.toNat
      inbound := t.inbound.map fun q => q.filter fun m => m.msg.region ≠ r
      slots := t.slots.map fun x => match x.2.future with
        | some f => if f.region = r && x.2.fibre.isNone then (x.1, ⟨nextGen x.2.gen, none, none⟩) else x
        | none => x }

/-- The state without the use-once lines of a region (R156). -/
def State.dropOnceOf (s : State) (r : BitVec 16) : State :=
  (s.cmems.flatMap fun c => (c.2.useOnce.filter fun o => o.region = r).map (·.base)).foldl (fun s l => s.consumeOnce l 128) s

/-- The state in which the mailbox has answered a FREEZE or a THAW of a region that is loaded no longer: NOREGION (R52;
DEDUCED, log 23). -/
def State.answerGone (s : State) (r : BitVec 16) : State :=
  if s.hub.freezing = some r then (s.modHub fun h => { h with freezing := none }).answer statusNoregion [] else s

/-- The state without a region in which nothing is under way: its node pool returns to the store rooms (R424), its
use-once lines are dropped (R156), the tiles forget it, and a FREEZE or THAW that waits for it is answered. The entries of
the host range table stay: they are the hub's, and no rule has a region take them with it (DESIGN CHOICE, log 50). -/
def State.dropRegion (s : State) (r : BitVec 16) : State :=
  match s.region? r with
  | none => s
  | some y =>
    let s := (y.pool.foldl (fun s p => s.giveRun p.1 p.2) s).dropOnceOf r
    let s : State :=
      { s with regions := mdel s.regions r.toNat
               heldDecs := s.heldDecs.filter fun d => d.region ≠ r
               tiles := s.tiles.map fun t => (t.1, t.2.forget r)
               blocks := s.blocks.filter fun b => b.2.region ≠ r }
    s.answerGone r

/-- REGION_UNLOAD (R57): a loaded region begins to unload; one that has come to rest is freed. -/
def execRegionUnload (region : BitVec 16) (s : State) : Host.Outcome State Fault Refusal :=
  .next (
    match s.region? region with
    | none => s
    | some x =>
      if x.saved.isSome then s
      else if !x.unloading then s.startUnload region
      else if s.quiet region then s.dropRegion region
      else s)

/-! Switching. -/

/-- An inbound message of a region. -/
def Inbound.of (r : BitVec 16) (m : Inbound) : Bool := m.msg.region = r

/-- Intervals of a tile's array that a switch-out saves: kept space, the tile registers and accumulators of the suspended
threads, and payloads (R223). -/
def Tile.savedSpans (t : Tile) (y : RegionTile) (threads : List (BitVec 3)) (units : List (Nat × Nat)) : List (Nat × Nat) :=
  [(0, y.kept)] ++
    (threads.flatMap fun h => [(t.tregOff h 0, 16384 * t.tregs.toNat), (t.accOff h 0, 98304 * t.accs.toNat)]) ++
    units.map fun u => (t.lzOff + 256 * u.1, 256 * u.2)

/-- The fibre of a slot is of a region. -/
def State.slotOf (s : State) (t : BitVec 10) (r : BitVec 16) (n : Nat) : Bool :=
  match (s.slot t (BitVec.ofNat 12 n)).fibre with
  | some f => f.region = r
  | none => false

/-- A ready entry of a region. -/
def State.entryOf (s : State) (r : BitVec 16) (e : ReadyEntry) : Bool :=
  match s.fibre? e.handle with
  | some f => f.region = r
  | none => false

/-- What a switch-out saves of one tile (R223). -/
def State.saveTile (s : State) (r : BitVec 16) (y : RegionTile) : SavedTile :=
  let t := s.tile y.tile
  let threads := ((List.range 8).map (BitVec.ofNat 3)).filter fun h => (t.thread h).active && (t.thread h).region = r
  let inbound := classes.flatMap fun c => (t.queue c).filter (Inbound.of r)
  let kepts := t.slots.filterMap fun x => match x.2.fibre with
    | some f => if f.region = r then f.kept.map fun k => (x.1, k) else none
    | none => none
  let spans := t.savedSpans y threads ((inbound.map fun m => (m.unit, m.units)) ++ kepts.map fun k => (k.2.unit, k.2.units))
  let base := tileBase y.tile.toNat
  { tile := y.tile
    tregs := t.tregs
    accs := t.accs
    lzb := t.lzb
    threads := threads.map fun h => (h, t.thread h)
    bytes := spans.map fun p => ⟨p.1, s.peek (base + p.1) p.2⟩
    rtable := t.rtable.filter fun e => e.rtag = r
    scopes := match s.region? r with
      | some x => x.scopes
      | none => []
    inbound := inbound
    ready := t.ready.filter (s.entryOf r)
    backlog := t.backlog.filter (s.slotOf y.tile r)
    cut := s.cut y.tile r
    cmds := t.cmds.filter fun c => c.region = r
    poison := s.poison.filter fun u => spans.any fun p => decide (base + p.1 ≤ u) && decide (u < base + p.1 + p.2)
    kepts := kepts }

/-- A thread without an activation of a region that is switched out. -/
def Thread.leave (r : BitVec 16) (t : Thread) : Thread := if t.active && t.region = r then t.idle else t

/-- The fibre of a slot without its kept payload, which is saved. -/
def Slot.unkeep (r : BitVec 16) (x : Slot) : Slot :=
  match x.fibre with
  | some f => if f.region = r then { x with fibre := some { f with kept := none } } else x
  | none => x

/-- The state with what a region used of one tile freed (R223). -/
def State.clearTile (s : State) (r : BitVec 16) (t : BitVec 10) : State :=
  s.modTile t fun x =>
    { x with
        threads := x.threads.map (Thread.leave r)
        rtable := x.rtable.filter fun e => e.rtag ≠ r
        inbound := x.inbound.map fun q => q.filter fun m => !m.of r
        ready := x.ready.filter fun e => !s.entryOf r e
        backlog := x.backlog.filter fun n => !s.slotOf t r n
        cuts := mdel x.cuts r.toNat
        cmds := x.cmds.filter fun c => c.region ≠ r
        slots := x.slots.map fun y => (y.1, y.2.unkeep r) }

/-- REGION_SWITCH_OUT (R223): a frozen region is saved, and the tiles are free of it. -/
def execRegionSwitchOut (region : BitVec 16) (s : State) : Host.Outcome State Fault Refusal :=
  .next (
    match s.region? region with
    | none => s
    | some x =>
      if x.frozen && x.saved.isNone && !x.unloading then
        let tiles := s.regionTiles region
        let saved := tiles.map (s.saveTile region)
        tiles.foldl (fun s y => s.clearTile region y.tile)
          (s.modRegion region fun x => { x with saved := some saved, scopes := [] })
      else s)

/-- A tile has the CARVE that was saved. -/
def Tile.sameCarve (t : Tile) (v : SavedTile) : Bool := t.tregs = v.tregs && t.accs = v.accs && t.lzb = v.lzb

/-- The places of a saved tile are free as it stands: its threads and the units of its payloads. -/
def Tile.placesFree (t : Tile) (v : SavedTile) : Bool :=
  (v.threads.all fun h => !(t.thread h.1).active) &&
    ((v.inbound.map fun m => (m.unit, m.units)) ++ v.kepts.map fun k => (k.2.unit, k.2.units)).all fun u =>
      t.taken.all fun p => decide (p.2 ≤ u.1) || decide (u.1 + u.2 ≤ p.1)

/-- A tile can take a saved region now (R16, R105, R223). -/
def State.canTake (s : State) (r : BitVec 16) (kept : Nat) (v : SavedTile) : Bool :=
  let t := s.tile v.tile
  let held := (s.othersOn r v.tile).any fun y => decide (0 < y.kept)
  !(held && decide (0 < kept)) && (if t.sameCarve v then t.placesFree v else t.quiescent none && !held)

/-- The fibre of a slot with its kept payload again. -/
def Slot.rekeep (x : Slot) (k : Kept) : Slot :=
  match x.fibre with
  | some f => { x with fibre := some { f with kept := some k } }
  | none => x

/-- Commands of a tile in their issue order: of those that come back, each takes its place among the others (R427). -/
def mergeCmds (now back : List Cmd) : List Cmd :=
  sortBy (fun a b => decide (a.issueCyc.toNat ≤ b.issueCyc.toNat)) (now ++ back)

/-- A thread as a switch-in restores it: the last record that the tile keeps for it is no part of the image that was saved
(R213, R224). -/
def Thread.back (saved now : Thread) : Thread := { saved with record := now.record }

/-- The state with a saved tile restored (R223). -/
def State.restoreTile (s : State) (r : BitVec 16) (v : SavedTile) : State :=
  let t := v.tile
  let s := if (s.tile t).sameCarve v then s else s.writeCarve t v.tregs v.accs v.lzb
  let s := v.bytes.foldl (fun s i => s.poke (tileBase t.toNat + i.base) i.data) s
  let s : State := { s with poison := v.poison.foldl insertNat s.poison }
  (s.dropCode r t v.rtable).modTile t fun x =>
    let x := v.threads.foldl (fun x h => x.setThread h.1 (h.2.back (x.thread h.1))) x
    let x := v.inbound.foldl (fun x m => x.setQueue m.msg.cls (x.queue m.msg.cls ++ [m])) x
    { x with
        rtable := (v.rtable ++ x.rtable).take 32
        ready := x.ready ++ v.ready
        backlog := v.backlog.foldl insertNat x.backlog
        cuts := mset x.cuts r.toNat v.cut
        cmds := mergeCmds x.cmds v.cmds
        slots := v.kepts.foldl (fun l k => mset l k.1 ((mget Slot.reset l k.1).rekeep k.2)) x.slots }

/-- The state after a switch-in in which a THAW that waited for it takes place and is answered (R50, R222). -/
def State.thawWaiting (s : State) (r : BitVec 16) : State :=
  match s.region? r with
  | some x =>
    if x.thawing then s.thaw r else s
  | none => s

/-- REGION_SWITCH_IN (R223): the region returns to its tiles once they can take it; its scope copies are read afresh, and
it stays frozen until THAW. -/
def execRegionSwitchIn (region : BitVec 16) (s : State) : Host.Outcome State Fault Refusal :=
  .next (
    match s.region? region with
    | none => s
    | some x =>
      match x.saved with
      | none => s
      | some l =>
        let keptOf (t : BitVec 10) : Nat := match x.tiles.find? fun y => y.tile = t with
          | some y => y.kept
          | none => 0
        if l.all fun v => s.canTake region (keptOf v.tile) v then
          let s := l.foldl (fun s v => s.restoreTile region v) s
          ((s.modRegion region fun y => { y with saved := none }).readTable region).thawWaiting region
        else s)

end Sys2Proof.Machine
end

