-- ==== Sys2Proof/Machine/Readback.lean ====
section
/-! DEFINITION. The objects of READBACK (R51, R224, R225, R228, R320, R427): their sizes and their bytes. -/

namespace Sys2Proof.Machine

/-- An object of READBACK: its size and its bytes. -/
structure Object where
  size : Nat
  byte : Nat → Byte

/-- The object that a list of bytes is, padded with zero to a size. -/
def Object.padded (n : Nat) (bs : List Byte) : Object := ⟨n, fun i => (bs[i]?).getD 0⟩

/-- The object that a list of bytes is. -/
def Object.whole (bs : List Byte) : Object := .padded bs.length bs

/-- The object that a list of words is. -/
def Object.words (l : List Word) : Object := .whole (l.flatMap fun w => leBytes 8 w.toNat)

/-- Bytes padded with zero to a length. -/
def pad (n : Nat) (bs : List Byte) : List Byte := (bs ++ List.replicate n 0).take n

/-- Tags of four bits, two to a byte. -/
def tagBytes (l : List (BitVec 4)) : List Byte :=
  (groupsOf 2 l.length l).map fun p => BitVec.ofNat 8 (((p[0]?).getD 0).toNat + 16 * ((p[1]?).getD 0).toNat)

/-- An entry of the send buffer in 32 bytes (R320). -/
def SendEntry.bytes (e : SendEntry) : List Byte :=
  leBytes 8 e.dest.toNat ++ leBytes 8 e.arg.toNat ++
  leBytes 8 (bits e.src 55 0 + e.scope.toNat * 2 ^ 56 + e.type.toNat * 2 ^ 60) ++
  leBytes 8 (e.len.toNat + xKind e.xform * 2 ^ 13 + xOpt e.xform * 2 ^ 17 + xNpair e.xform * 2 ^ 18 +
    xParam e.xform * 2 ^ 26)

/-- An engine context in 64 bytes (R224). -/
def EngineCtx.bytes (e : EngineCtx) : List Byte :=
  pad 64 (leBytes 8 e.issued.toNat ++ leBytes 8 e.complete.toNat ++ leBytes 8 e.canhi.toNat ++ leBytes 16 e.done.toNat)

/-- A thread image (R224). -/
def Thread.image (t : Thread) : List Byte :=
  (t.g.toList.flatMap fun w => leBytes 8 w.toNat) ++
  leBytes 8 (t.p.toNat + nb t.latch * 2 ^ 8 + nb t.active * 2 ^ 9) ++
  ((t.m.toList.drop 1).flatMap fun w => leBytes 8 w.toNat) ++
  tagBytes t.vtag.toList ++ tagBytes t.ttag.toList ++
  leBytes 8 t.pc.toNat ++ (t.tshape.toList.flatMap fun w => leBytes 4 w.toNat) ++
  leBytes 8 t.icnt.toNat ++ leBytes 8 t.wdUsed.toNat ++ leBytes 8 t.msgid.toNat ++ leBytes 8 t.fibre.toNat ++
  leBytes 8 t.sends.length ++ leBytes 56 0 ++
  (t.engines.toList.flatMap EngineCtx.bytes) ++
  pad 256 (t.skid.flatMap fun e => leBytes 8 e.1.toNat ++ leBytes 8 e.2.toNat) ++
  pad 512 (t.sends.flatMap SendEntry.bytes) ++ leBytes 512 0 ++
  (t.v.toList.flatMap fun w => leBytes 256 w.toNat)

/-- A queue entry in 16 bytes (R85). -/
def ReadyEntry.bytes (e : ReadyEntry) : List Byte :=
  leBytes 8 e.handle.toNat ++ leBytes 8 (e.prio.toNat + 8 * nb e.pin + e.enq.toNat * 2 ^ 16)

/-- A queued message in 64 bytes (R225): R44 bytes 0 to 23, MSGID, the landing address, CUT and AFTER, and the colour in
the word after them. -/
def Tile.inboundBytes (t : Tile) (i : BitVec 10) (m : Inbound) : List Byte :=
  pad 64 (leBytes 8 m.msg.dest.toNat ++ leBytes 8 m.msg.arg.toNat ++
    leBytes 8 (m.msg.len + m.msg.cls.toNat * 2 ^ 16 + m.msg.region.toNat * 2 ^ 32) ++
    leBytes 8 m.msg.msgid.toNat ++ leBytes 8 (t.payloadVa i m.unit).toNat ++
    leBytes 8 (nb m.cut + 2 * nb m.after) ++ leBytes 8 (nb (m.msg.colour = some true)))

/-- A command of the scoreboard in 32 bytes (R427). -/
def Cmd.bytes (c : Cmd) : List Byte :=
  leBytes 8 c.number.toNat ++ leBytes 8 (1 + 2 * c.thr.toNat + 16 * c.ctx.toNat + 64 * nb c.running) ++
  leBytes 8 (encodeWord c.insn) ++ leBytes 8 c.issueCyc.toNat

/-- A watch pair in 16 bytes (R226). -/
def WatchPair.bytes (w : WatchPair) : List Byte :=
  leBytes 8 w.addr.toNat ++ leBytes 8 (w.sz.toNat + 16 * nb w.rd + 32 * nb w.wr + 64 * nb w.amo + 128 * nb w.eng +
    w.region.toNat * 2 ^ 16 + nb w.en * 2 ^ 32)

/-- A cut state in 32 bytes (R219). -/
def CutState.bytes (c : CutState) : List Byte :=
  leBytes 8 (nb c.colour + 2 * nb c.stopped) ++ leBytes 4 c.sent0.toNat ++ leBytes 4 c.sent1.toNat ++
  leBytes 4 c.recv0.toNat ++ leBytes 4 c.recv1.toNat ++ leBytes 8 c.stopcyc.toNat

/-- A backlog as its bitmap of 4,096 bits (R88). -/
def backlogBytes (l : List Nat) : List Byte := leBytes 512 (l.foldl (fun n k => n + 2 ^ k) 0)

/-- A line of an L1 with its physical tag and its valid bit; a way that holds no line reads zero. -/
def Tile.wayBytes (t : Tile) (set way : Nat) : List Byte :=
  match (t.l1.filter fun c => c.line % 512 = set)[way]? with
  | some c => leBytes 128 c.data.toNat ++ leBytes 8 (c.line * 128) ++ leBytes 8 1
  | none => leBytes 144 0

/-- A byte of a store room's free-block map (R427). -/
def Die.mapByte (x : Die) (d i : Nat) : Byte :=
  let free (k : Nat) : Bool := x.freeRuns.any fun r => decide (r.first ≤ k) && decide (k < r.first + 2 ^ r.order)
  let eight (first : Nat) : Nat := (List.range 8).foldl (fun n j => n + nb (free (first + j)) * 2 ^ j) 0
  if i < 491520 then BitVec.ofNat 8 (eight (d * 3932160 + 8 * i))
  else
    let k := (i - 491520) / 16
    let j := (i - 491520) % 16
    match x.borrowed[k]? with
    | some q =>
      if j < 8 then ((leBytes 8 (q.base * 65536 + 2 ^ 63))[j]?).getD 0
      else BitVec.ofNat 8 (eight (q.base + 8 * (j - 8)))
    | none => 0

/-- A line of a cluster memory and its state word (R225): the lines that it holds, normal ones first, in the order of the
model's lists; a place that has held a line and holds none now has open bytes (DESIGN CHOICE, log 6), and one that never
held a line holds the zeros of R32. -/
def State.cmemObject (s : State) (c index : Nat) : List Byte :=
  let x := s.cmem c
  match (x.lines ++ x.useOnce.map fun o => (o.base, false))[index]? with
  | some l =>
    s.peek l.1 128 ++ leBytes 8 (Config.lineState (some l.1) l.2 (decide (x.lines.length ≤ index))).toNat
  | none =>
    if x.high ≤ index then leBytes 136 0
    else ((List.range 128).map fun i => Config.freeByte (index * 128 + i)) ++
      leBytes 8 (Config.lineState none false false).toNat

/-- A byte of physical memory as READBACK class 13 shows it: fibre records, future objects and reference blocks stand in
the slot stores (R60, R225, R327). -/
def State.shownByte (s : State) (pa : Nat) : Byte := (s.slotByte pa).getD (readByte s.mem pa)

/-- An object of a tile (R225, classes 1 to 11), or none for an index out of range. -/
def State.tileObject (s : State) (cls : Nat) (i : BitVec 10) (index : Nat) : Option Object :=
  let t := s.tile i
  match cls with
  | 1 => if index < 8 then some (.whole (t.thread (BitVec.ofNat 3 index)).image) else none
  | 2 => if index = 0 then some ⟨0x300000, fun k => readByte s.mem (tileBase i.toNat + k)⟩ else none
  | 3 => if index < 32 then some (.padded 64 (match t.rtable[index]? with
      | some e => e.bytes
      | none => [])) else none
  | 4 =>
    if index < 2 ^ 20 then
      let r : BitVec 16 := BitVec.ofNat 16 (index / 16)
      some (.padded 32 (if (s.tilesOf r).contains i then (s.scopeCopy r (BitVec.ofNat 4 (index % 16))).bytes
        else ScopeCopy.reset.bytes))
    else none
  | 5 => if index < 128 then some (.padded 64 (match (t.queue (BitVec.ofNat 2 (index / 32)))[index % 32]? with
      | some m => t.inboundBytes i m
      | none => [])) else none
  | 6 =>
    if index = 0 then some (.padded 1024 (t.ready.flatMap fun e => ReadyEntry.bytes { e with pin := s.pinned e }))
    else if index = 1 then some (.whole (backlogBytes t.backlog))
    else none
  | 7 =>
    if index < 4 then some (.words [(t.channel (BitVec.ofNat 2 index)).word])
    else if index = 4 then some (.padded 1024 (t.cmds.flatMap Cmd.bytes))
    else none
  | 8 => if index < 6144 then some (.whole (t.wayBytes (index / 12) (index % 12))) else none
  | 9 =>
    if index = 0 then some (.words [t.carveWord])
    else if index = 1 then some (.words [t.nistat])
    else if h : 2 ≤ index ∧ index < 6 then some (.whole (t.watch[index - 2]'(by omega)).bytes)
    else if index = 6 then some (.words [s.cyc])
    else none
  | 10 => if index < 65536 then some (.whole (s.cut i (BitVec.ofNat 16 index)).bytes) else none
  | 11 => if index < 8 then some (.whole (t.thread (BitVec.ofNat 3 index)).record.bytes) else none
  | _ => none

/-- The object that READBACK names (R225), or none for a reserved class or an index out of range. -/
def State.object (s : State) (cls tile index : Nat) : Option Object :=
  if cls < 12 then if tile < 1024 then s.tileObject cls (BitVec.ofNat 10 tile) index else none
  else match cls with
    | 12 => if tile < 64 ∧ index < 131072 then some (.whole (s.cmemObject tile index)) else none
    | 13 => match home? (index * 4096) with
      | some _ => some ⟨4096, fun k => s.shownByte (index * 4096 + k)⟩
      | none => none
    | 14 =>
      if tile < 4 then
        let d := s.die (BitVec.ofNat 2 tile)
        if index = 0 then some (.words [d.srctl])
        else if index = 1 then some (.words [d.srstat])
        else if index = 2 then some ⟨495600, d.mapByte tile⟩
        else none
      else none
    | 15 =>
      if index = 0 then some (.padded 65536 s.hub.letters.flatten)
      else if index = 1 then some (.padded 65536 s.hub.debugs.flatten)
      else none
    | 16 =>
      let entry (q : List ReadyEntry) (k : Nat) : Object := .padded 16 (match q[k]? with
        | some e => ReadyEntry.bytes { e with pin := s.pinned e }
        | none => [])
      if tile < 64 then
        if index < 512 then some (entry (s.cmem tile).queue index)
        else if tile % 16 = 0 ∧ index < 4608 then some (entry (s.die (BitVec.ofNat 2 (tile / 16))).queue (index - 512))
        else none
      else none
    | _ => none

/-- The bytes that a READBACK asks for, or none for a class, an index, an offset or a length that R225 and R50 do not
allow. -/
def State.readback (s : State) (cls tile index off len : Nat) : Option (List Byte) :=
  if 8176 < len ∨ 2 ^ 32 ≤ index then none
  else match s.object cls tile index with
    | some o => if off + len ≤ o.size then some ((List.range len).map fun i => o.byte (off + i)) else none
    | none => none

end Sys2Proof.Machine
end

