-- ==== Sys2Proof/Machine/Mailbox.lean ====
section
/-! DEFINITION. The commands of the mailbox (R33, R38, R39, R49 to R52, R218, R222). -/

namespace Sys2Proof.Machine

/-- The command code of the request (R49). -/
def Hub.mbxCode (h : Hub) : Nat := bufferNat h.request 0 4
/-- The argument length of the request. -/
def Hub.mbxLen (h : Hub) : Nat := bufferNat h.request 4 4
/-- Word i of the arguments (R50). -/
def Hub.mbxArg (h : Hub) (i : Nat) : Nat := bufferNat h.request (8 + 8 * i) 8
/-- n bytes of the arguments. -/
def Hub.mbxBytes (h : Hub) (off n : Nat) : List Byte := (List.range n).map fun i => mget 0 h.request (8 + off + i)

/-- The state after a command with a code, if the mailbox has it to process: NOTREADY before READY where the command waits
for it, BADARG where its argument length does not fit, and else its effect (R33, R50). -/
def State.command (s : State) (code : Nat) (early : Bool) (fits : Nat → Bool) (f : State → State) : State :=
  if s.hub.mbxPending.isNone || s.hub.freezing.isSome || s.hub.mbxCode ≠ code then s
  else if !early && !s.hub.ready then s.answer statusNotready []
  else if fits s.hub.mbxLen then f s
  else s.answer statusBadarg []

/-- IDENT (R50). -/
def execIdent (s : State) : Host.Outcome State Fault Refusal :=
  .next (s.command 1 true (fun n => n = 0) fun s =>
    s.answer statusOk (Config.identReport s.hub.slotA s.hub.slotB s.hub.activeB))

/-- The signed body of an attestation report: bytes 0 to 463 (R39). The digests of the images are of those that step 2 has
booted, whatever the slots hold now; the active slot in the last word is the one marked active now, after a FWCOMMIT the new
one (DESIGN CHOICE, log 77). -/
def Hub.reportBody (h : Hub) : List Byte :=
  let item (k : Nat) : List Byte := leBytes 64 (Config.digest k h.runImage h.counter).toNat
  leBytes 4 1 ++ leBytes 4 5091 ++ h.mbxBytes 0 64 ++ item 0 ++ item 1 ++ item 2 ++ item 3 ++ item 4 ++ item 5 ++
    leBytes 4 h.counter ++ leBytes 4 (nb h.activeB)

/-- ATTEST (R39). -/
def execAttest (s : State) : Host.Outcome State Fault Refusal :=
  .next (s.command 2 true (fun n => n = 64) fun s =>
    let body := s.hub.reportBody
    s.answer statusOk (body ++ leBytes 4627 (Config.signature body).toNat))

/-- READBACK (R51, R225). -/
def execReadback (s : State) : Host.Outcome State Fault Refusal :=
  .next (s.command 3 false (fun n => n = 40) fun s =>
    let a := s.hub.mbxArg
    match s.readback (a 0) (a 1) (a 2) (a 3) (a 4) with
    | some bs => s.answer statusOk bs
    | none => s.answer statusBadarg [])

/-- The loaded region that a word of the arguments names. -/
def State.namedRegion (s : State) (n : Nat) : Option (BitVec 16) :=
  if n < 65536 ∧ (s.region? (BitVec.ofNat 16 n)).isSome then some (BitVec.ofNat 16 n) else none

/-- The mailbox waits for a region to be stopped, or with a THAW for it to run again (R50). -/
def State.waitFor (s : State) (r : BitVec 16) (thaw : Bool) : State :=
  s.modHub fun h => { h with freezing := some r, mbxThaw := thaw }

/-- FREEZE (R52, R218): answered OK at once where the region is frozen, and when the cut closes otherwise. -/
def execFreeze (s : State) : Host.Outcome State Fault Refusal :=
  .next (s.command 4 false (fun n => n = 8) fun s =>
    match s.namedRegion (s.hub.mbxArg 0) with
    | none => s.answer statusNoregion []
    | some r =>
      let frozen : Bool := match s.region? r with
        | some x => x.frozen
        | none => false
      if frozen then s.answer statusOk [] else (s.askFreeze r).waitFor r false)

/-- THAW (R52, R222): answered OK once the region runs again. A module that has reached its stop temperature gives no
region power again before a reset (R56; DEDUCED, log 70). -/
def execThaw (s : State) : Host.Outcome State Fault Refusal :=
  .next (s.command 5 false (fun n => n = 8) fun s =>
    match s.namedRegion (s.hub.mbxArg 0) with
    | none => s.answer statusNoregion []
    | some r =>
      match s.region? r with
      | none => s.answer statusNoregion []
      | some x =>
        if s.hub.hot then s.waitFor r true
        else if x.saved.isSome then (s.modRegion r fun y => { y with thawing := true }).waitFor r true
        else if x.frozen then (s.thaw r).answer statusOk []
        else if x.stopping then (s.thaw r).waitFor r true
        else s.answer statusOk [])

/-- The hub with bytes written into the image slot that is not active (R38). The spec gives a slot no size: bytes at any
64-bit offset are kept (DESIGN CHOICE, log 69). -/
def Hub.stage (h : Hub) (off : Nat) (bs : List Byte) : Hub :=
  if h.activeB then { h with slotA := bufferBytes h.slotA off bs } else { h with slotB := bufferBytes h.slotB off bs }

/-- FWSTAGE (R38, R50): a chunk of up to 4,080 bytes. -/
def execFwstage (s : State) : Host.Outcome State Fault Refusal :=
  .next (s.command 6 false (fun n => 8 ≤ n && n ≤ 4088) fun s =>
    (s.modHub fun h => h.stage (h.mbxArg 0) (h.mbxBytes 8 (h.mbxLen - 8))).answer statusOk [])

/-- FWCOMMIT (R38): the staged image becomes active for the next reset, and the counter, which has 64 steps (R37), may rise
to its security version; an image that fails verification changes nothing. -/
def execFwcommit (s : State) : Host.Outcome State Fault Refusal :=
  .next (s.command 7 false (fun n => n = 8) fun s =>
    let raise := s.hub.mbxArg 0
    let image := s.hub.slot (!s.hub.activeB)
    if 1 < raise then s.answer statusBadarg []
    else if s.hub.accepts 3 image then
      (s.modHub fun h =>
        { h with activeB := !h.activeB,
                 counter := if raise = 1 then min 64 (max h.counter (Config.imageVersion image)) else h.counter }).answer
        statusOk []
    else s.answer statusAuth [])

/-- RESET (R34). -/
def execReset (s : State) : Host.Outcome State Fault Refusal :=
  .next (s.command 8 true (fun n => n = 0) fun s => s.restart)

/-- LINKS (R50). -/
def execLinks (s : State) : Host.Outcome State Fault Refusal :=
  .next (s.command 9 false (fun n => n = 0) fun s =>
    s.answer statusOk (Config.linksReport s.hub.devnum s.hub.linkup (s.hub.routes.map fun r => (r.device, r.port))))

/-- MAILBOX_BADCMD (R33, R50): a code that is not assigned. -/
def execMailboxBadcmd (s : State) : Host.Outcome State Fault Refusal :=
  .next (
    if s.hub.mbxPending.isNone || s.hub.freezing.isSome || (1 ≤ s.hub.mbxCode && s.hub.mbxCode ≤ 9) then s
    else if s.hub.ready then s.answer statusBadcmd []
    else s.answer statusNotready [])

end Sys2Proof.Machine
end

