-- ==== Sys2Proof/Machine/Vector.lean ====
section
/-! DEFINITION. The register forms of the vector instructions (R335 to R349), and the 16-bit lane forms (R255). Each
reads its sources, tags included, before it writes. -/

namespace Sys2Proof.Machine

/-- A vector register written under a mask with elements of a tag, and the instruction of n bytes completed (R335). -/
def State.putV (s : State) (d : BitVec 5) (m : Word) (tag : BitVec 4) (new : List Nat) (n : Nat) : State :=
  let w := tagWidth tag
  (s.setV d (ofElems w (masked m w (elems w (s.v d)) new)) tag).advance n

/-- The mask of a 16-bit form (R255). -/
def mask16 (z : BitVec 1) : BitVec 3 := if z = 1 then 1 else 0

/-- `vadd` to `vmin` and `vfma` (R336, R337). -/
def laneBody (o : LaneOp) (d a b : BitVec 5) (m : BitVec 3) (n : Nat) (s : State) : Body := do
  let tag := s.vtag a
  let _ ← needClass s tag [.f, .a, .s, .u]
  let _ ← needAgree s tag (s.vtag b)
  let _ ← if o = .fma then needAgree s tag (s.vtag d) else .ok ()
  let w := tagWidth tag
  let new := ((elems w (s.v a)).zip (elems w (s.v b))).zip (elems w (s.v d)) |>.map fun p => o.apply tag p.1.1 p.1.2 p.2
  .ok (s.putV d (s.m m) tag new n)

/-- `vand`, `vor` and `vxor` (R336). -/
def bitBody (f : VWord → VWord → VWord) (d a b : BitVec 5) (m : BitVec 3) (n : Nat) (s : State) : Body := do
  let tag := s.vtag a
  let _ ← needAgree s tag (s.vtag b)
  .ok (s.putV d (s.m m) tag (elems (tagWidth tag) (f (s.v a) (s.v b))) n)

/-- `vshl` and `vshr` (R336). -/
def shiftBody (left : Bool) (d a b : BitVec 5) (m : BitVec 3) (n : Nat) (s : State) : Body := do
  let tag := s.vtag a
  let _ ← needClass s tag [.s, .u, .b]
  let _ ← needAgree s tag (s.vtag b)
  let w := tagWidth tag
  let new := List.zipWith (fun x k => if left then laneShl w x k else laneShr (tagClass tag = .s) w x k)
    (elems w (s.v a)) (elems w (s.v b))
  .ok (s.putV d (s.m m) tag new n)

/-- A one-source form on elements of some classes (R340). -/
def oneBody (ok : List TagClass) (f : BitVec 4 → Nat → Nat) (d a : BitVec 5) (m : BitVec 3) (n : Nat) (s : State) :
    Body := do
  let tag := s.vtag a
  let _ ← needClass s tag ok
  .ok (s.putV d (s.m m) tag ((elems (tagWidth tag) (s.v a)).map (f tag)) n)

/-- A correctly rounded function on elements of class F in a rounding mode (R245, R340). -/
def funBody (f : Val → Val × Bool) (mode : BitVec 3) (d a : BitVec 5) (m : BitVec 3) (n : Nat) (s : State) : Body :=
  match mode? mode.toNat with
  | none => stopWith s .roundMode
  | some r => oneBody [.f] (fun tag x => match tagFmt tag with
      | some fmt => let q := f (fmt.value x); fmt.pack r q.1 q.2
      | none => x) d a m n s

/-- `vmov` (R340). -/
def movBody (d a : BitVec 5) (m : BitVec 3) (n : Nat) (s : State) : Body :=
  .ok (s.putV d (s.m m) (s.vtag a) (elems (tagWidth (s.vtag a)) (s.v a)) n)

/-- `vadd vd, va, vb, mK` (R336). -/
def execVadd (d a b : BitVec 5) (m : BitVec 3) (s : State) : Host.Outcome State Fault Refusal :=
  settle (laneBody .add d a b m 4 s)

/-- `vsub vd, va, vb, mK` (R336). -/
def execVsub (d a b : BitVec 5) (m : BitVec 3) (s : State) : Host.Outcome State Fault Refusal :=
  settle (laneBody .sub d a b m 4 s)

/-- `vmul vd, va, vb, mK` (R336). -/
def execVmul (d a b : BitVec 5) (m : BitVec 3) (s : State) : Host.Outcome State Fault Refusal :=
  settle (laneBody .mul d a b m 4 s)

/-- `vmax vd, va, vb, mK` (R336). -/
def execVmax (d a b : BitVec 5) (m : BitVec 3) (s : State) : Host.Outcome State Fault Refusal :=
  settle (laneBody .max d a b m 4 s)

/-- `vmin vd, va, vb, mK` (R336). -/
def execVmin (d a b : BitVec 5) (m : BitVec 3) (s : State) : Host.Outcome State Fault Refusal :=
  settle (laneBody .min d a b m 4 s)

/-- `vand vd, va, vb, mK` (R336). -/
def execVand (d a b : BitVec 5) (m : BitVec 3) (s : State) : Host.Outcome State Fault Refusal :=
  settle (bitBody (· &&& ·) d a b m 4 s)

/-- `vor vd, va, vb, mK` (R336). -/
def execVor (d a b : BitVec 5) (m : BitVec 3) (s : State) : Host.Outcome State Fault Refusal :=
  settle (bitBody (· ||| ·) d a b m 4 s)

/-- `vxor vd, va, vb, mK` (R336). -/
def execVxor (d a b : BitVec 5) (m : BitVec 3) (s : State) : Host.Outcome State Fault Refusal :=
  settle (bitBody (· ^^^ ·) d a b m 4 s)

/-- `vshl vd, va, vb, mK` (R336). -/
def execVshl (d a b : BitVec 5) (m : BitVec 3) (s : State) : Host.Outcome State Fault Refusal :=
  settle (shiftBody true d a b m 4 s)

/-- `vshr vd, va, vb, mK` (R336). -/
def execVshr (d a b : BitVec 5) (m : BitVec 3) (s : State) : Host.Outcome State Fault Refusal :=
  settle (shiftBody false d a b m 4 s)

/-- `vfma vd, va, vb, mK` (R336). -/
def execVfma (d a b : BitVec 5) (m : BitVec 3) (s : State) : Host.Outcome State Fault Refusal :=
  settle (laneBody .fma d a b m 4 s)

/-- `vsel vd, va, vb, mK` (R338): every element is written. -/
def execVsel (d a b : BitVec 5) (m : BitVec 3) (s : State) : Host.Outcome State Fault Refusal :=
  settle do
    let tag := s.vtag a
    let _ ← needAgree s tag (s.vtag b)
    let w := tagWidth tag
    let new := masked (s.m m) w (elems w (s.v b)) (elems w (s.v a))
    .ok ((s.setV d (ofElems w new) tag).advance 4)

/-- `vperm vd, va, vb, mK` (R339). -/
def execVperm (d a b : BitVec 5) (m : BitVec 3) (s : State) : Host.Outcome State Fault Refusal :=
  settle do
    let tag := s.vtag a
    let _ ← need s (s.vtag b = tagIndex) .tagUnsupported
    let w := if tagWidth tag = 64 then 64 else 32
    let nc := 2048 / w
    let new := (List.range nc).map fun c =>
      let i := elem 32 (s.v b) c
      if i < nc then elem w (s.v a) i else 0
    .ok ((s.setV d (ofElems w (masked (s.m m) w (elems w (s.v d)) new)) tag).advance 4)

/-- `vabs vd, va, mK` (R340). -/
def execVabs (d a : BitVec 5) (m : BitVec 3) (s : State) : Host.Outcome State Fault Refusal :=
  settle (oneBody [.f, .a, .s] laneAbs d a m 4 s)

/-- `vneg vd, va, mK` (R340). -/
def execVneg (d a : BitVec 5) (m : BitVec 3) (s : State) : Host.Outcome State Fault Refusal :=
  settle (oneBody [.f, .a, .s] laneNeg d a m 4 s)

/-- `vexp2 vd, va, mode, mK` (R340, R245). -/
def execVexp2 (d a : BitVec 5) (r m : BitVec 3) (s : State) : Host.Outcome State Fault Refusal :=
  settle (funBody Val.exp2 r d a m 4 s)

/-- `vlog2 vd, va, mode, mK` (R340, R245). -/
def execVlog2 (d a : BitVec 5) (r m : BitVec 3) (s : State) : Host.Outcome State Fault Refusal :=
  settle (funBody Val.log2 r d a m 4 s)

/-- `vrcp vd, va, mode, mK` (R340, R245). -/
def execVrcp (d a : BitVec 5) (r m : BitVec 3) (s : State) : Host.Outcome State Fault Refusal :=
  settle (funBody Val.rcp r d a m 4 s)

/-- `vrsqrt vd, va, mode, mK` (R340, R245). -/
def execVrsqrt (d a : BitVec 5) (r m : BitVec 3) (s : State) : Host.Outcome State Fault Refusal :=
  settle (funBody Val.rsqrt r d a m 4 s)

/-- `vmov vd, va, mK` (R340). -/
def execVmov (d a : BitVec 5) (m : BitVec 3) (s : State) : Host.Outcome State Fault Refusal :=
  settle (movBody d a m 4 s)

/-! The 16-bit lane forms (R255): va is vd, the mask is `m0` or `m1`, the mode is RNE. -/

/-- The 16-bit `vadd` (R255): vd = vd vadd vb. -/
def execVadd16 (d b : BitVec 5) (z : BitVec 1) (s : State) : Host.Outcome State Fault Refusal :=
  settle (laneBody .add d d b (mask16 z) 2 s)

/-- The 16-bit `vsub` (R255): vd = vd vsub vb. -/
def execVsub16 (d b : BitVec 5) (z : BitVec 1) (s : State) : Host.Outcome State Fault Refusal :=
  settle (laneBody .sub d d b (mask16 z) 2 s)

/-- The 16-bit `vmul` (R255): vd = vd vmul vb. -/
def execVmul16 (d b : BitVec 5) (z : BitVec 1) (s : State) : Host.Outcome State Fault Refusal :=
  settle (laneBody .mul d d b (mask16 z) 2 s)

/-- The 16-bit `vmax` (R255): vd = vd vmax vb. -/
def execVmax16 (d b : BitVec 5) (z : BitVec 1) (s : State) : Host.Outcome State Fault Refusal :=
  settle (laneBody .max d d b (mask16 z) 2 s)

/-- The 16-bit `vmin` (R255): vd = vd vmin vb. -/
def execVmin16 (d b : BitVec 5) (z : BitVec 1) (s : State) : Host.Outcome State Fault Refusal :=
  settle (laneBody .min d d b (mask16 z) 2 s)

/-- The 16-bit `vabs` (R255): vd = vabs vb. -/
def execVabs16 (d b : BitVec 5) (z : BitVec 1) (s : State) : Host.Outcome State Fault Refusal :=
  settle (oneBody [.f, .a, .s] laneAbs d b (mask16 z) 2 s)

/-- The 16-bit `vneg` (R255): vd = vneg vb. -/
def execVneg16 (d b : BitVec 5) (z : BitVec 1) (s : State) : Host.Outcome State Fault Refusal :=
  settle (oneBody [.f, .a, .s] laneNeg d b (mask16 z) 2 s)

/-- The 16-bit `vexp2` (R255): vd = vexp2 vb. -/
def execVexp216 (d b : BitVec 5) (z : BitVec 1) (s : State) : Host.Outcome State Fault Refusal :=
  settle (funBody Val.exp2 0 d b (mask16 z) 2 s)

/-- The 16-bit `vrcp` (R255): vd = vrcp vb. -/
def execVrcp16 (d b : BitVec 5) (z : BitVec 1) (s : State) : Host.Outcome State Fault Refusal :=
  settle (funBody Val.rcp 0 d b (mask16 z) 2 s)

/-- The 16-bit `vrsqrt` (R255): vd = vrsqrt vb. -/
def execVrsqrt16 (d b : BitVec 5) (z : BitVec 1) (s : State) : Host.Outcome State Fault Refusal :=
  settle (funBody Val.rsqrt 0 d b (mask16 z) 2 s)

/-- The 16-bit `vand` (R255): vd = vd vand vb. -/
def execVand16 (d b : BitVec 5) (z : BitVec 1) (s : State) : Host.Outcome State Fault Refusal :=
  settle (bitBody (· &&& ·) d d b (mask16 z) 2 s)

/-- The 16-bit `vor` (R255): vd = vd vor vb. -/
def execVor16 (d b : BitVec 5) (z : BitVec 1) (s : State) : Host.Outcome State Fault Refusal :=
  settle (bitBody (· ||| ·) d d b (mask16 z) 2 s)

/-- The 16-bit `vxor` (R255): vd = vd vxor vb. -/
def execVxor16 (d b : BitVec 5) (z : BitVec 1) (s : State) : Host.Outcome State Fault Refusal :=
  settle (bitBody (· ^^^ ·) d d b (mask16 z) 2 s)

/-- The 16-bit `vshl` (R255): vd = vd vshl vb. -/
def execVshl16 (d b : BitVec 5) (z : BitVec 1) (s : State) : Host.Outcome State Fault Refusal :=
  settle (shiftBody true d d b (mask16 z) 2 s)

/-- The 16-bit `vshr` (R255): vd = vd vshr vb. -/
def execVshr16 (d b : BitVec 5) (z : BitVec 1) (s : State) : Host.Outcome State Fault Refusal :=
  settle (shiftBody false d d b (mask16 z) 2 s)

/-- The 16-bit `vmov` (R255): vd = vmov vb. -/
def execVmov16 (d b : BitVec 5) (z : BitVec 1) (s : State) : Host.Outcome State Fault Refusal :=
  settle (movBody d b (mask16 z) 2 s)

/-! Compare, reduce and single elements (R341 to R344). -/

/-- The elements that mask bit i governs (R234). -/
def governedBy (w i : Nat) : List Nat :=
  if w = 64 then [i / 2] else (List.range (32 / w)).map fun j => i * (32 / w) + j

/-- The mask that a compare leaves (R341). -/
def compareMask (c : Nat) (tag : BitVec 4) (m : Word) (x y : VWord) : Word :=
  let w := tagWidth tag
  wd (joinElems 1 ((List.range 64).map fun i =>
    nb (bit m i && (governedBy w i).all fun j => laneCompare c tag (elem w x j) (elem w y j))))

/-- `vcmp.cond md, va, vb, mK` (R341). -/
def execVcmp (d : BitVec 3) (a b : BitVec 5) (m c : BitVec 3) (s : State) : Host.Outcome State Fault Refusal :=
  settle do
    let tag := s.vtag a
    let _ ← needClass s tag [.f, .a, .s, .u]
    let _ ← needAgree s tag (s.vtag b)
    .ok ((s.setM d (compareMask c.toNat tag (s.m m) (s.v a) (s.v b))).advance 4)

/-- What the reductions share (R342): the tree of R244 over the active elements. -/
def reduceBody (o : RedOp) (d a : BitVec 5) (m : BitVec 3) (s : State) : Body := do
  let tag := s.vtag a
  let _ ← needClass s tag [.f, .a, .s, .u]
  let w := tagWidth tag
  let active := (elems w (s.v a)).zipIdx.map fun p => if governed (s.m m) w p.2 then p.1 else o.identity tag
  .ok ((s.setV d (ofElems w [o.reduce tag active]) tag).advance 4)

/-- `vred.add vd, va, mK` (R342). -/
def execVredAdd (d a : BitVec 5) (m : BitVec 3) (s : State) : Host.Outcome State Fault Refusal :=
  settle (reduceBody .add d a m s)

/-- `vred.max vd, va, mK` (R342). -/
def execVredMax (d a : BitVec 5) (m : BitVec 3) (s : State) : Host.Outcome State Fault Refusal :=
  settle (reduceBody .max d a m s)

/-- `vred.min vd, va, mK` (R342). -/
def execVredMin (d a : BitVec 5) (m : BitVec 3) (s : State) : Host.Outcome State Fault Refusal :=
  settle (reduceBody .min d a m s)

/-- The bits of a general register that an element of a tag takes: 48 for ACC48 (R343, R344). -/
def scalarBits (tag : BitVec 4) (x : Word) : Nat := x.toNat % 2 ^ (if tag = tagAcc48 then 48 else tagWidth tag)

/-- `vbcast vd, ga, fmt` (R343). -/
def execVbcast (d a : BitVec 5) (f : BitVec 4) (s : State) : Host.Outcome State Fault Refusal :=
  let w := tagWidth f
  .next ((s.setV d (ofElems w (List.replicate (2048 / w) (scalarBits f (s.g a)))) f).advance 4)

/-- `viota vd, fmt` (R343). -/
def execViota (d : BitVec 5) (f : BitVec 4) (s : State) : Host.Outcome State Fault Refusal :=
  settle do
    let _ ← need s ([TagClass.f, .s, .u].contains (tagClass f)) .formatOperand
    let w := tagWidth f
    let lane (j : Nat) : Nat := match tagFmt f with
      | some fmt => fmt.pack .rne (Val.ofInt j)
      | none => j % 2 ^ w
    .ok ((s.setV d (ofElems w ((List.range (2048 / w)).map lane)) f).advance 4)

/-- The element index of `vlane` and `vins` (R344). -/
def laneIndex (i : BitVec 5) (j : BitVec 4) : Nat := j.toNat * 32 + i.toNat

/-- `vlane gd, va, #i` (R344). -/
def execVlane (d a i : BitVec 5) (j : BitVec 4) (s : State) : Host.Outcome State Fault Refusal :=
  settle do
    let w := tagWidth (s.vtag a)
    let _ ← need s (decide (laneIndex i j < 2048 / w)) .laneIndex
    .ok (s.putG d (wd (elem w (s.v a) (laneIndex i j))))

/-- `vins vd, ga, #i` (R344). -/
def execVins (d a i : BitVec 5) (j : BitVec 4) (s : State) : Host.Outcome State Fault Refusal :=
  settle do
    let tag := s.vtag d
    let w := tagWidth tag
    let _ ← need s (decide (laneIndex i j < 2048 / w)) .laneIndex
    .ok ((s.setV d (ofElems w ((elems w (s.v d)).set (laneIndex i j) (scalarBits tag (s.g a)))) tag).advance 4)

/-! Scaling, rotation, random words and conversion (R345 to R349). -/

/-- `vscale vd, va, vb, mK` (R345). -/
def execVscale (d a b : BitVec 5) (m : BitVec 3) (s : State) : Host.Outcome State Fault Refusal :=
  settle do
    let tag := s.vtag a
    let _ ← needClass s tag [.f]
    let _ ← need s (s.vtag b = tagE8m0) .tagUnsupported
    let w := tagWidth tag
    let new := (elems w (s.v a)).zipIdx.map fun p => match tagFmt tag with
      | some f => laneScale f p.1 (elem 8 (s.v b) (p.2 / 32))
      | none => p.1
    .ok (s.putV d (s.m m) tag new 4)

/-- `vrope vd, va, gb, mK` (R346). -/
def execVrope (d a b : BitVec 5) (m : BitVec 3) (s : State) : Host.Outcome State Fault Refusal :=
  settle do
    let tag := s.vtag a
    let _ ← need s (tag = 1 || tag = 2) .tagUnsupported
    let fmt := if tag = 1 then fp32 else bf16
    let x := s.g b
    let new := rope fmt (bits x 15 8 + 1) (signedOf 24 (bits x 39 16)) (elems (tagWidth tag) (s.v a))
    .ok (s.putV d (s.m m) tag new 4)

/-- `vrng vd, ga, gb` (R347). -/
def execVrng (d a b : BitVec 5) (s : State) : Host.Outcome State Fault Refusal :=
  let new := (List.range 64).map fun i => gen (s.g a).toNat (((s.g b).toNat + i) % 2 ^ 64)
  .next ((s.setV d (ofElems 32 new) tagIndex).advance 4)

/-- `vcvt vd, va, fmt, mode, ovf, vrs` (R348, R349). A retag of raw bits to ACC48 copies bits 63 to 48 of each container as
R349 says, though R232 and R333 have an ACC48 container hold zeros there (DESIGN CHOICE, log 84). -/
def execVcvt (d a : BitVec 5) (t : BitVec 4) (z : BitVec 2) (m : BitVec 3) (o : BitVec 1) (r : BitVec 5) (s : State) :
    Host.Outcome State Fault Refusal :=
  settle do
    let _ ← need s (t ≠ tagMask) .formatOperand
    match mode? m.toNat with
    | none => stopWith s .roundMode
    | some mode =>
      let src := s.vtag a
      let _ ← need s (!(z ≠ 0 && src ≠ 0) && !(src = tagMask && t ≠ 0) &&
        !(mode = .sr && !(s.vtag r = tagIndex || s.vtag r = 0))) .tagUnsupported
      if t = 0 || (src = 0 && z = 0) then .ok ((s.setV d (s.v a) t).advance 4)
      else .ok ((s.setV d (convertReg src z.toNat t mode (o = 1) (s.v a) (s.v r)) t).advance 4)

end Sys2Proof.Machine
end

