-- ==== Sys2Proof/Machine/VectorMem.lean ====
section
/-! DEFINITION. Vector loads, stores, gathers and scatters by the thread itself (R350 to R354). -/

namespace Sys2Proof.Machine

/-- One element access of a vector form: its byte offset in the register, its address and its size. -/
structure ElemAccess where
  off : Nat
  va : Word
  size : Nat
  deriving DecidableEq, Repr

/-- Every active address judged in ascending order before any element is performed (R350). The answer pairs each access
with its range entry. -/
def judge (store : Bool) : List ElemAccess → State → Except Stop (State × List (ElemAccess × RangeEntry))
  | [], s => .ok (s, [])
  | u :: r, s => do
    let _ ← checkAligned s u.va u.size
    let (s, e, _) ← checkAccess s u.va u.size [if store then .write else .read] store false
    let (s, l) ← judge store r s
    .ok (s, (u, e) :: l)

/-- The judged loads performed in order: the offsets and the bytes read, and the accesses that were read at their
homes. -/
def loadUnits : List (ElemAccess × RangeEntry) → State →
    Except Stop (State × List (Nat × List Byte) × List (ElemAccess × RangeEntry))
  | [], s => .ok (s, [], [])
  | (u, e) :: r, s => do
    let home := s.readsHome e (e.phys u.va.toNat)
    let (s, bs) ← loadRead s u.va e (e.phys u.va.toNat) u.size
    let (s, l, k) ← loadUnits r s
    .ok (s, (u.off, bs) :: l, if home then (u, e) :: k else k)

/-- The use-once lines that a form has read at their homes are consumed: the whole form is one read (R156). -/
def consumeUnits (l : List (ElemAccess × RangeEntry)) (s : State) : State :=
  l.foldl (fun s p => s.consumeOnce (s.forwarded p.1.va.toNat (p.2.phys p.1.va.toNat)) p.1.size) s

/-- The bytes of a register with some replaced. -/
def patchBytes (old : List Byte) (l : List (Nat × List Byte)) : List Byte :=
  l.foldl (fun b p => b.take p.1 ++ p.2 ++ b.drop (p.1 + p.2.length)) old

/-- The bytes of a vector register (R234). -/
def vbytes (v : VWord) : List Byte := leBytes 256 v.toNat

/-- A vector register of 256 bytes. -/
def vofBytes (l : List Byte) : VWord := BitVec.ofNat 2048 (leNat l)

/-- A load fills 8-byte containers of ACC48 with their bits [63:48] cleared (R350). -/
def clearAcc48 (f : BitVec 4) (l : List (Nat × List Byte)) : List (Nat × List Byte) :=
  if f = tagAcc48 then l.map fun p => (p.1, p.2.take 6 ++ List.replicate (p.2.length - 6) 0) else l

/-- What the loads share: the judged accesses, the bytes, and the register with its new tag. -/
def vectorLoad (s : State) (d : BitVec 5) (f : BitVec 4) (us : List ElemAccess) : Body := do
  let (s, l) ← judge false us s
  let (s, bs, k) ← loadUnits l s
  let s := consumeUnits k s
  .ok ((s.setV d (vofBytes (patchBytes (vbytes (s.v d)) (clearAcc48 f bs))) f).advance 4)

/-- The bytes of a judged store, with neighbours that follow one another in memory under one entry joined into one
store, so that a whole line is written as one (R146, R208). -/
def joinStores (bytes : List Byte) : List (ElemAccess × RangeEntry) → List (Word × RangeEntry × List Byte)
  | [] => []
  | (u, e) :: r =>
    let mine := (bytes.drop u.off).take u.size
    match joinStores bytes r with
    | (va, f, bs) :: l => if va = u.va + wd u.size && f = e then (u.va, e, mine ++ bs) :: l
      else (u.va, e, mine) :: (va, f, bs) :: l
    | [] => [(u.va, e, mine)]

/-- The judged stores performed in order, one by one. -/
def storeUnits (bytes : List Byte) (l : List (ElemAccess × RangeEntry)) (s : State) : State :=
  l.foldl (fun s p => storePlain s p.1.va p.2 (p.2.phys p.1.va.toNat) ((bytes.drop p.1.off).take p.1.size)) s

/-- The active units of a contiguous register image under a mask: 8 bytes for 64-bit elements, else the 32-bit lanes
(R351, R353). -/
def activeUnits (w : Nat) (m : Word) : List Nat :=
  let size := if w = 64 then 8 else 4
  (List.range (256 / size)).filter fun k => bit m (if w = 64 then 2 * k else k)

/-- `vld vd, [ga], fmt, mK` (R351). -/
def execVld (d a : BitVec 5) (f : BitVec 4) (m : BitVec 3) (s : State) : Host.Outcome State Fault Refusal :=
  settle do
    let va := s.g a
    let _ ← checkAligned s va 32
    let size := if tagWidth f = 64 then 8 else 4
    vectorLoad s d f ((activeUnits (tagWidth f) (s.m m)).map fun k => ⟨k * size, va + wd (k * size), size⟩)

/-- `vst [ga], vd, mK` (R351). -/
def execVst (d a : BitVec 5) (m : BitVec 3) (s : State) : Host.Outcome State Fault Refusal :=
  settle do
    let va := s.g a
    let _ ← checkAligned s va 32
    let w := tagWidth (s.vtag d)
    let size := if w = 64 then 8 else 4
    let (s, l) ← judge true ((activeUnits w (s.m m)).map fun k => ⟨k * size, va + wd (k * size), size⟩) s
    .ok (((joinStores (vbytes (s.v d)) l).foldl (fun s p => storeSpan s p.1 p.2.1 p.2.2) s).advance 4)

/-- `vlds vd, [ga], gb, fmt, mK` (R352). -/
def execVlds (d a b : BitVec 5) (f : BitVec 4) (m : BitVec 3) (s : State) : Host.Outcome State Fault Refusal :=
  settle do
    let w := tagWidth f
    let _ ← need s (w ≠ 4) .formatOperand
    let js := (List.range (2048 / w)).filter fun j => governed (s.m m) w j
    vectorLoad s d f (js.map fun j => ⟨j * (w / 8), s.g a + wd j * s.g b, w / 8⟩)

/-- The units of `vgath` and `vscat` (R353). -/
def indexedUnits (s : State) (a b : BitVec 5) (m : BitVec 3) (w : Nat) : List ElemAccess :=
  let size := if w = 64 then 8 else 4
  (activeUnits w (s.m m)).map fun k => ⟨k * size, s.g a + wd (elem 32 (s.v b) k), size⟩

/-- `vgath vd, [ga], vb, fmt, mK` (R353). -/
def execVgath (d a b : BitVec 5) (f : BitVec 4) (m : BitVec 3) (s : State) : Host.Outcome State Fault Refusal :=
  settle do
    let _ ← need s (s.vtag b = tagIndex) .tagUnsupported
    vectorLoad s d f (indexedUnits s a b m (tagWidth f))

/-- `vscat [ga], vb, vd, mK` (R353). -/
def execVscat (d a b : BitVec 5) (m : BitVec 3) (s : State) : Host.Outcome State Fault Refusal :=
  settle do
    let _ ← need s (s.vtag b = tagIndex) .tagUnsupported
    let (s, l) ← judge true (indexedUnits s a b m (tagWidth (s.vtag d))) s
    .ok ((storeUnits (vbytes (s.v d)) l s).advance 4)

/-- The elements of eight rows of 32 bytes in transposed order: element c of row r is element 8c + r (R354). -/
def transposeRows (w : Nat) (rows : List (Nat × List Byte)) (old : List Nat) : List Nat :=
  old.zipIdx.map fun p =>
    match rows.find? fun q => q.1 = p.2 % 8 with
    | some q => leNat q.2 / 2 ^ (w * (p.2 / 8)) % 2 ^ w
    | none => p.1

/-- The rows of a transposed block that have an active element, in the order of the first one of each: element c of row
r is element 8c + r (R350, R354). -/
def activeRows (m : Word) (w : Nat) : List Nat :=
  (List.range (2048 / w)).foldl (fun l j => if governed m w j && !l.contains (j % 8) then l ++ [j % 8] else l) []

/-- `vldt vd, [ga], gb, fmt, mK` (R354). -/
def execVldt (d a b : BitVec 5) (f : BitVec 4) (m : BitVec 3) (s : State) : Host.Outcome State Fault Refusal :=
  settle do
    let _ ← if (s.g a).toNat % 32 = 0 ∧ (s.g b).toNat % 32 = 0 then .ok () else stopAt s .misaligned (s.g a)
    let w := tagWidth f
    let rows := activeRows (s.m m) w
    let (s, l) ← judge false (rows.map fun r => ⟨r, s.g a + wd r * s.g b, 32⟩) s
    let (s, bs, k) ← loadUnits l s
    let s := consumeUnits k s
    let cut (x : Nat) : Nat := if f = tagAcc48 then x % 2 ^ 48 else x
    let new := (transposeRows w bs (elems w (s.v d))).map cut
    .ok (s.putV d (s.m m) f new 4)

end Sys2Proof.Machine
end

