-- ==== Sys2Proof/Machine/Dispatch.lean ====
section
/-! DEFINITION. The dispatch of an instruction or an event to its meaning: one arm for each constructor, one direct
call in each arm. -/

namespace Sys2Proof.Machine

/-- What an instruction does to the thread `cur` of the module, or an event to the module. -/
def exec (i : Instr) (s : State) : Host.Outcome State Fault Refusal :=
  match i with
  | .fuseLoad ok => Sys2Proof.Machine.execFuseLoad ok s
  | .clockCalibration ok => Sys2Proof.Machine.execClockCalibration ok s
  | .sramRepair ok => Sys2Proof.Machine.execSramRepair ok s
  | .linkCalibration ok => Sys2Proof.Machine.execLinkCalibration ok s
  | .hbmTraining ok => Sys2Proof.Machine.execHbmTraining ok s
  | .portEqualisation ok drives driveBytes => Sys2Proof.Machine.execPortEqualisation ok drives driveBytes s
  | .hbmZeroing ok => Sys2Proof.Machine.execHbmZeroing ok s
  | .sramZeroing ok => Sys2Proof.Machine.execSramZeroing ok s
  | .portFailure port => Sys2Proof.Machine.execPortFailure port s
  | .linkDomainFormation devnum linkup routes => Sys2Proof.Machine.execLinkDomainFormation devnum linkup routes s
  | .timeSync advance ppm synced => Sys2Proof.Machine.execTimeSync advance ppm synced s
  | .driveFailure drive => Sys2Proof.Machine.execDriveFailure drive s
  | .hostMessage off data => Sys2Proof.Machine.execHostMessage off data s
  | .hostMessageTimeout slot => Sys2Proof.Machine.execHostMessageTimeout slot s
  | .hostHdmAccess off len store => Sys2Proof.Machine.execHostHdmAccess off len store s
  | .registerWrite off data => Sys2Proof.Machine.execRegisterWrite off data s
  | .gangArm n => Sys2Proof.Machine.execGangArm n s
  | .gangCancel n => Sys2Proof.Machine.execGangCancel n s
  | .gangFire n => Sys2Proof.Machine.execGangFire n s
  | .regionLoad req => Sys2Proof.Machine.execRegionLoad req s
  | .regionUnload region => Sys2Proof.Machine.execRegionUnload region s
  | .regionSwitchOut region => Sys2Proof.Machine.execRegionSwitchOut region s
  | .regionSwitchIn region => Sys2Proof.Machine.execRegionSwitchIn region s
  | .threadDispatch tile => Sys2Proof.Machine.execThreadDispatch tile s
  | .queueSpill queue => Sys2Proof.Machine.execQueueSpill queue s
  | .queueRefill queue => Sys2Proof.Machine.execQueueRefill queue s
  | .steal tile => Sys2Proof.Machine.execSteal tile s
  | .watchdog tile thread => Sys2Proof.Machine.execWatchdog tile thread s
  | .messageArrival n => Sys2Proof.Machine.execMessageArrival n s
  | .decrementArrival n => Sys2Proof.Machine.execDecrementArrival n s
  | .fibreReclaim tile slot => Sys2Proof.Machine.execFibreReclaim tile slot s
  | .engineCommandStart tile n => Sys2Proof.Machine.execEngineCommandStart tile n s
  | .engineCommandFinish tile n => Sys2Proof.Machine.execEngineCommandFinish tile n s
  | .tableWalk tile region va => Sys2Proof.Machine.execTableWalk tile region va s
  | .blockFetchComplete block ok bad => Sys2Proof.Machine.execBlockFetchComplete block ok bad s
  | .writeBackComplete block ok => Sys2Proof.Machine.execWriteBackComplete block ok s
  | .moveStep n => Sys2Proof.Machine.execMoveStep n s
  | .forwardRecordRemoval n => Sys2Proof.Machine.execForwardRecordRemoval n s
  | .compaction die k => Sys2Proof.Machine.execCompaction die k s
  | .borrow die => Sys2Proof.Machine.execBorrow die s
  | .batchReturn die n => Sys2Proof.Machine.execBatchReturn die n s
  | .rangeRelease n => Sys2Proof.Machine.execRangeRelease n s
  | .scopeDrain region sc => Sys2Proof.Machine.execScopeDrain region sc s
  | .barrierWake tile thread => Sys2Proof.Machine.execBarrierWake tile thread s
  | .pauseExpiry tile thread => Sys2Proof.Machine.execPauseExpiry tile thread s
  | .tileStop tile region => Sys2Proof.Machine.execTileStop tile region s
  | .cutClose region => Sys2Proof.Machine.execCutClose region s
  | .rgnctlFreeze issuer region => Sys2Proof.Machine.execRgnctlFreeze issuer region s
  | .rgnctlThaw issuer region => Sys2Proof.Machine.execRgnctlThaw issuer region s
  | .hostSignal vec => Sys2Proof.Machine.execHostSignal vec s
  | .add d a b => Sys2Proof.Machine.execAdd d a b s
  | .sub d a b => Sys2Proof.Machine.execSub d a b s
  | .and d a b => Sys2Proof.Machine.execAnd d a b s
  | .or d a b => Sys2Proof.Machine.execOr d a b s
  | .xor d a b => Sys2Proof.Machine.execXor d a b s
  | .shl d a b => Sys2Proof.Machine.execShl d a b s
  | .shr d a b => Sys2Proof.Machine.execShr d a b s
  | .sra d a b => Sys2Proof.Machine.execSra d a b s
  | .mul d a b => Sys2Proof.Machine.execMul d a b s
  | .mulh d a b => Sys2Proof.Machine.execMulh d a b s
  | .mulhu d a b => Sys2Proof.Machine.execMulhu d a b s
  | .div d a b => Sys2Proof.Machine.execDiv d a b s
  | .divu d a b => Sys2Proof.Machine.execDivu d a b s
  | .rem d a b => Sys2Proof.Machine.execRem d a b s
  | .remu d a b => Sys2Proof.Machine.execRemu d a b s
  | .min d a b => Sys2Proof.Machine.execMin d a b s
  | .max d a b => Sys2Proof.Machine.execMax d a b s
  | .minu d a b => Sys2Proof.Machine.execMinu d a b s
  | .maxu d a b => Sys2Proof.Machine.execMaxu d a b s
  | .clz d a => Sys2Proof.Machine.execClz d a s
  | .ctz d a => Sys2Proof.Machine.execCtz d a s
  | .pop d a => Sys2Proof.Machine.execPop d a s
  | .ext d a b => Sys2Proof.Machine.execExt d a b s
  | .ins d a b => Sys2Proof.Machine.execIns d a b s
  | .sel d a b p => Sys2Proof.Machine.execSel d a b p s
  | .addi d a k => Sys2Proof.Machine.execAddi d a k s
  | .andi d a k => Sys2Proof.Machine.execAndi d a k s
  | .ori d a k => Sys2Proof.Machine.execOri d a k s
  | .xori d a k => Sys2Proof.Machine.execXori d a k s
  | .shli d a n => Sys2Proof.Machine.execShli d a n s
  | .shri d a n => Sys2Proof.Machine.execShri d a n s
  | .srai d a n => Sys2Proof.Machine.execSrai d a n s
  | .li d k => Sys2Proof.Machine.execLi d k s
  | .lih d k => Sys2Proof.Machine.execLih d k s
  | .addpc d k => Sys2Proof.Machine.execAddpc d k s
  | .cmp p a b c => Sys2Proof.Machine.execCmp p a b c s
  | .cmpi p a c k => Sys2Proof.Machine.execCmpi p a c k s
  | .pand d a b => Sys2Proof.Machine.execPand d a b s
  | .por d a b => Sys2Proof.Machine.execPor d a b s
  | .pxor d a b => Sys2Proof.Machine.execPxor d a b s
  | .pnot d a => Sys2Proof.Machine.execPnot d a s
  | .b p z o => Sys2Proof.Machine.execB p z o s
  | .j o => Sys2Proof.Machine.execJ o s
  | .call o => Sys2Proof.Machine.execCall o s
  | .jr a => Sys2Proof.Machine.execJr a s
  | .callr a => Sys2Proof.Machine.execCallr a s
  | .loop r o => Sys2Proof.Machine.execLoop r o s
  | .bz r o => Sys2Proof.Machine.execBz r o s
  | .bnz r o => Sys2Proof.Machine.execBnz r o s
  | .ld d b z o => Sys2Proof.Machine.execLd d b z o s
  | .st d b z o => Sys2Proof.Machine.execSt d b z o s
  | .ldAcq d b z c o => Sys2Proof.Machine.execLdAcq d b z c o s
  | .stRel d b z c o => Sys2Proof.Machine.execStRel d b z c o s
  | .ldVol d b z o => Sys2Proof.Machine.execLdVol d b z o s
  | .stVol d b z o => Sys2Proof.Machine.execStVol d b z o s
  | .pref b o => Sys2Proof.Machine.execPref b o s
  | .amoW d a b c o => Sys2Proof.Machine.execAmoW d a b c o s
  | .amoD d a b c o => Sys2Proof.Machine.execAmoD d a b c o s
  | .amoFFp32 d a b c => Sys2Proof.Machine.execAmoFFp32 d a b c s
  | .amoFBf16 d a b c => Sys2Proof.Machine.execAmoFBf16 d a b c s
  | .cas d a b c z => Sys2Proof.Machine.execCas d a b c z s
  | .fence c => Sys2Proof.Machine.execFence c s
  | .barInit a b c => Sys2Proof.Machine.execBarInit a b c s
  | .barArrive a b c => Sys2Proof.Machine.execBarArrive a b c s
  | .barWait a b c => Sys2Proof.Machine.execBarWait a b c s
  | .sev c => Sys2Proof.Machine.execSev c s
  | .tlwait b t => Sys2Proof.Machine.execTlwait b t s
  | .tlread d t => Sys2Proof.Machine.execTlread d t s
  | .scopeSet a c => Sys2Proof.Machine.execScopeSet a c s
  | .scopeGet d c => Sys2Proof.Machine.execScopeGet d c s
  | .scopeRetire c => Sys2Proof.Machine.execScopeRetire c s
  | .pause b => Sys2Proof.Machine.execPause b s
  | .send d a b c => Sys2Proof.Machine.execSend d a b c s
  | .sendT d a b c => Sys2Proof.Machine.execSendT d a b c s
  | .fibNew d a b => Sys2Proof.Machine.execFibNew d a b s
  | .spawn d a => Sys2Proof.Machine.execSpawn d a s
  | .spawnG d a b c => Sys2Proof.Machine.execSpawnG d a b c s
  | .fibDec a b c => Sys2Proof.Machine.execFibDec a b c s
  | .fref a b => Sys2Proof.Machine.execFref a b s
  | .fdrop a => Sys2Proof.Machine.execFdrop a s
  | .fconfirm a => Sys2Proof.Machine.execFconfirm a s
  | .fput a b c => Sys2Proof.Machine.execFput a b c s
  | .fget d a => Sys2Proof.Machine.execFget d a s
  | .fon a b => Sys2Proof.Machine.execFon a b s
  | .vadd d a b m => Sys2Proof.Machine.execVadd d a b m s
  | .vsub d a b m => Sys2Proof.Machine.execVsub d a b m s
  | .vmul d a b m => Sys2Proof.Machine.execVmul d a b m s
  | .vmax d a b m => Sys2Proof.Machine.execVmax d a b m s
  | .vmin d a b m => Sys2Proof.Machine.execVmin d a b m s
  | .vand d a b m => Sys2Proof.Machine.execVand d a b m s
  | .vor d a b m => Sys2Proof.Machine.execVor d a b m s
  | .vxor d a b m => Sys2Proof.Machine.execVxor d a b m s
  | .vshl d a b m => Sys2Proof.Machine.execVshl d a b m s
  | .vshr d a b m => Sys2Proof.Machine.execVshr d a b m s
  | .vfma d a b m => Sys2Proof.Machine.execVfma d a b m s
  | .vsel d a b m => Sys2Proof.Machine.execVsel d a b m s
  | .vperm d a b m => Sys2Proof.Machine.execVperm d a b m s
  | .vabs d a m => Sys2Proof.Machine.execVabs d a m s
  | .vneg d a m => Sys2Proof.Machine.execVneg d a m s
  | .vexp2 d a r m => Sys2Proof.Machine.execVexp2 d a r m s
  | .vlog2 d a r m => Sys2Proof.Machine.execVlog2 d a r m s
  | .vrcp d a r m => Sys2Proof.Machine.execVrcp d a r m s
  | .vrsqrt d a r m => Sys2Proof.Machine.execVrsqrt d a r m s
  | .vmov d a m => Sys2Proof.Machine.execVmov d a m s
  | .vadd16 d b z => Sys2Proof.Machine.execVadd16 d b z s
  | .vsub16 d b z => Sys2Proof.Machine.execVsub16 d b z s
  | .vmul16 d b z => Sys2Proof.Machine.execVmul16 d b z s
  | .vmax16 d b z => Sys2Proof.Machine.execVmax16 d b z s
  | .vmin16 d b z => Sys2Proof.Machine.execVmin16 d b z s
  | .vabs16 d b z => Sys2Proof.Machine.execVabs16 d b z s
  | .vneg16 d b z => Sys2Proof.Machine.execVneg16 d b z s
  | .vexp216 d b z => Sys2Proof.Machine.execVexp216 d b z s
  | .vrcp16 d b z => Sys2Proof.Machine.execVrcp16 d b z s
  | .vrsqrt16 d b z => Sys2Proof.Machine.execVrsqrt16 d b z s
  | .vand16 d b z => Sys2Proof.Machine.execVand16 d b z s
  | .vor16 d b z => Sys2Proof.Machine.execVor16 d b z s
  | .vxor16 d b z => Sys2Proof.Machine.execVxor16 d b z s
  | .vshl16 d b z => Sys2Proof.Machine.execVshl16 d b z s
  | .vshr16 d b z => Sys2Proof.Machine.execVshr16 d b z s
  | .vmov16 d b z => Sys2Proof.Machine.execVmov16 d b z s
  | .vcmp d a b m c => Sys2Proof.Machine.execVcmp d a b m c s
  | .vredAdd d a m => Sys2Proof.Machine.execVredAdd d a m s
  | .vredMax d a m => Sys2Proof.Machine.execVredMax d a m s
  | .vredMin d a m => Sys2Proof.Machine.execVredMin d a m s
  | .vbcast d a f => Sys2Proof.Machine.execVbcast d a f s
  | .viota d f => Sys2Proof.Machine.execViota d f s
  | .vlane d a k j => Sys2Proof.Machine.execVlane d a k j s
  | .vins d a k j => Sys2Proof.Machine.execVins d a k j s
  | .vscale d a b m => Sys2Proof.Machine.execVscale d a b m s
  | .vrope d a b m => Sys2Proof.Machine.execVrope d a b m s
  | .vrng d a b => Sys2Proof.Machine.execVrng d a b s
  | .vcvt d a t z m o r => Sys2Proof.Machine.execVcvt d a t z m o r s
  | .vld d a f m => Sys2Proof.Machine.execVld d a f m s
  | .vst d a m => Sys2Proof.Machine.execVst d a m s
  | .vlds d a b f m => Sys2Proof.Machine.execVlds d a b f m s
  | .vgath d a b f m => Sys2Proof.Machine.execVgath d a b f m s
  | .vscat d a b m => Sys2Proof.Machine.execVscat d a b m s
  | .vldt d a b f m => Sys2Proof.Machine.execVldt d a b f m s
  | .tld d a f => Sys2Proof.Machine.execTld d a f s
  | .tldT d a f => Sys2Proof.Machine.execTldT d a f s
  | .tst d a => Sys2Proof.Machine.execTst d a s
  | .mma d a b => Sys2Proof.Machine.execMma d a b s
  | .mmaS d a b k => Sys2Proof.Machine.execMmaS d a b k s
  | .azero d => Sys2Proof.Machine.execAzero d s
  | .ald d a => Sys2Proof.Machine.execAld d a s
  | .ast d a => Sys2Proof.Machine.execAst d a s
  | .arow d a b => Sys2Proof.Machine.execArow d a b s
  | .ctxBind a => Sys2Proof.Machine.execCtxBind a s
  | .fpush a => Sys2Proof.Machine.execFpush a s
  | .farg a b => Sys2Proof.Machine.execFarg a b s
  | .fpro a => Sys2Proof.Machine.execFpro a s
  | .fpop a b => Sys2Proof.Machine.execFpop a b s
  | .ffork d a => Sys2Proof.Machine.execFfork d a s
  | .finfo d a z => Sys2Proof.Machine.execFinfo d a z s
  | .kvapp d a b c => Sys2Proof.Machine.execKvapp d a b c s
  | .attn a b c => Sys2Proof.Machine.execAttn a b c s
  | .attnFin d a => Sys2Proof.Machine.execAttnFin d a s
  | .rng d a => Sys2Proof.Machine.execRng d a s
  | .topk d a => Sys2Proof.Machine.execTopk d a s
  | .gmask d a => Sys2Proof.Machine.execGmask d a s
  | .draw d a => Sys2Proof.Machine.execDraw d a s
  | .drawv d a => Sys2Proof.Machine.execDrawv d a s
  | .accept d a => Sys2Proof.Machine.execAccept d a s
  | .route d a c => Sys2Proof.Machine.execRoute d a c s
  | .cpy d a b => Sys2Proof.Machine.execCpy d a b s
  | .cpyT d a b => Sys2Proof.Machine.execCpyT d a b s
  | .cpyMc d a b c => Sys2Proof.Machine.execCpyMc d a b c s
  | .gath d a => Sys2Proof.Machine.execGath d a s
  | .scat d a => Sys2Proof.Machine.execScat d a s
  | .coll a c => Sys2Proof.Machine.execColl a c s
  | .ring a c => Sys2Proof.Machine.execRing a c s
  | .wptr d h => Sys2Proof.Machine.execWptr d h s
  | .promo d a b k => Sys2Proof.Machine.execPromo d a b k s
  | .evict a b => Sys2Proof.Machine.execEvict a b s
  | .pin a b => Sys2Proof.Machine.execPin a b s
  | .unpin a b => Sys2Proof.Machine.execUnpin a b s
  | .rprobe d a => Sys2Proof.Machine.execRprobe d a s
  | .rsplit a => Sys2Proof.Machine.execRsplit a s
  | .rmerge a => Sys2Proof.Machine.execRmerge a s
  | .rinv a c => Sys2Proof.Machine.execRinv a c s
  | .rset a => Sys2Proof.Machine.execRset a s
  | .rmove a b c => Sys2Proof.Machine.execRmove a b c s
  | .rcompact a b => Sys2Proof.Machine.execRcompact a b s
  | .eret a b => Sys2Proof.Machine.execEret a b s
  | .sysr d n m => Sys2Proof.Machine.execSysr d n m s
  | .sysw d n m => Sys2Proof.Machine.execSysw d n m s
  | .carve a => Sys2Proof.Machine.execCarve a s
  | .wpset a b => Sys2Proof.Machine.execWpset a b s
  | .sstep a => Sys2Proof.Machine.execSstep a s
  | .accessPerformedAtHome n => Sys2Proof.Machine.execAccessPerformedAtHome n s
  | .fetchStop cause addr insn => Sys2Proof.Machine.execFetchStop cause addr insn s
  | .notAnInstruction cause insn => Sys2Proof.Machine.execNotAnInstruction cause insn s
  | .uncorrectableError place => Sys2Proof.Machine.execUncorrectableError place s
  | .hostAccessTimeout pa => Sys2Proof.Machine.execHostAccessTimeout pa s
  | .powerOn => Sys2Proof.Machine.execPowerOn s
  | .pcieConventionalReset => Sys2Proof.Machine.execPcieConventionalReset s
  | .functionLevelReset => Sys2Proof.Machine.execFunctionLevelReset s
  | .atticKernelVerify => Sys2Proof.Machine.execAtticKernelVerify s
  | .bootImageLoad => Sys2Proof.Machine.execBootImageLoad s
  | .linkLost => Sys2Proof.Machine.execLinkLost s
  | .thermalThrottle => Sys2Proof.Machine.execThermalThrottle s
  | .thermalRecovery => Sys2Proof.Machine.execThermalRecovery s
  | .stopTemperature => Sys2Proof.Machine.execStopTemperature s
  | .ident => Sys2Proof.Machine.execIdent s
  | .attest => Sys2Proof.Machine.execAttest s
  | .readback => Sys2Proof.Machine.execReadback s
  | .freeze => Sys2Proof.Machine.execFreeze s
  | .thaw => Sys2Proof.Machine.execThaw s
  | .fwstage => Sys2Proof.Machine.execFwstage s
  | .fwcommit => Sys2Proof.Machine.execFwcommit s
  | .reset => Sys2Proof.Machine.execReset s
  | .links => Sys2Proof.Machine.execLinks s
  | .mailboxBadcmd => Sys2Proof.Machine.execMailboxBadcmd s
  | .ret => Sys2Proof.Machine.execRet s
  | .nop => Sys2Proof.Machine.execNop s
  | .wfe => Sys2Proof.Machine.execWfe s
  | .done => Sys2Proof.Machine.execDone s
  | .keep => Sys2Proof.Machine.execKeep s
  | .trap => Sys2Proof.Machine.execTrap s
  | .halt => Sys2Proof.Machine.execHalt s
  | .bkpt => Sys2Proof.Machine.execBkpt s

end Sys2Proof.Machine
end

