-- ==== Sys2Proof/Machine/Issue.lean ====
section
/-! DEFINITION. The issue stage (R96, R98, R227, R228): what holds an instruction back (R356, R425), its count in ICNT
and in the skid ring, and its handing to `exec`. -/

namespace Sys2Proof.Machine

/-- The vector registers that an instruction reads or writes (R356). -/
def vregsOf : Instr → List (BitVec 5)
  | .vadd d a b _ => [d, a, b]
  | .vsub d a b _ => [d, a, b]
  | .vmul d a b _ => [d, a, b]
  | .vmax d a b _ => [d, a, b]
  | .vmin d a b _ => [d, a, b]
  | .vand d a b _ => [d, a, b]
  | .vor d a b _ => [d, a, b]
  | .vxor d a b _ => [d, a, b]
  | .vshl d a b _ => [d, a, b]
  | .vshr d a b _ => [d, a, b]
  | .vfma d a b _ => [d, a, b]
  | .vsel d a b _ => [d, a, b]
  | .vperm d a b _ => [d, a, b]
  | .vabs d a _ => [d, a]
  | .vneg d a _ => [d, a]
  | .vexp2 d a _ _ => [d, a]
  | .vlog2 d a _ _ => [d, a]
  | .vrcp d a _ _ => [d, a]
  | .vrsqrt d a _ _ => [d, a]
  | .vmov d a _ => [d, a]
  | .vadd16 d b _ => [d, b]
  | .vsub16 d b _ => [d, b]
  | .vmul16 d b _ => [d, b]
  | .vmax16 d b _ => [d, b]
  | .vmin16 d b _ => [d, b]
  | .vabs16 d b _ => [d, b]
  | .vneg16 d b _ => [d, b]
  | .vexp216 d b _ => [d, b]
  | .vrcp16 d b _ => [d, b]
  | .vrsqrt16 d b _ => [d, b]
  | .vand16 d b _ => [d, b]
  | .vor16 d b _ => [d, b]
  | .vxor16 d b _ => [d, b]
  | .vshl16 d b _ => [d, b]
  | .vshr16 d b _ => [d, b]
  | .vmov16 d b _ => [d, b]
  | .vcmp _ a b _ _ => [a, b]
  | .vredAdd d a _ => [d, a]
  | .vredMax d a _ => [d, a]
  | .vredMin d a _ => [d, a]
  | .vbcast d _ _ => [d]
  | .viota d _ => [d]
  | .vlane _ a _ _ => [a]
  | .vins d _ _ _ => [d]
  | .vscale d a b _ => [d, a, b]
  | .vrope d a _ _ => [d, a]
  | .vrng d _ _ => [d]
  | .vcvt d a _ _ m _ rs => if m = 4 then [d, a, rs] else [d, a]
  | .vld d _ _ _ => [d]
  | .vst d _ _ => [d]
  | .vlds d _ _ _ _ => [d]
  | .vgath d _ b _ _ => [d, b]
  | .vscat d _ b _ => [d, b]
  | .vldt d _ _ _ _ => [d]
  | .arow d _ _ => [d]
  | _ => []

/-- An instruction reads or writes `p7` (R356). -/
def usesP7 : Instr → Bool
  | .sel _ _ _ p => p = 7
  | .cmp p _ _ _ => p = 7
  | .cmpi p _ _ _ => p = 7
  | .pand d a b => d = 7 || a = 7 || b = 7
  | .por d a b => d = 7 || a = 7 || b = 7
  | .pxor d a b => d = 7 || a = 7 || b = 7
  | .pnot d a => d = 7 || a = 7
  | .b p _ _ => p = 7
  | .cas _ _ _ _ _ => true
  | .barInit _ _ _ => true
  | .tlwait _ _ => true
  | .scopeSet _ _ => true
  | .scopeRetire _ => true
  | .fput _ _ _ => true
  | .fget _ _ => true
  | .attnFin _ _ => true
  | .pin _ _ => true
  | .unpin _ _ => true
  | .rprobe _ _ => true
  | .rsplit _ => true
  | .rmerge _ => true
  | .rset _ => true
  | .rmove _ _ _ => true
  | .rcompact _ _ => true
  | .eret _ _ => true
  | .sysw _ _ _ => true
  | .sstep _ => true
  | _ => false

/-- A command of the thread that has not finished will write a register that the instruction names (R356). -/
def State.hazard (s : State) (x : ThreadId) (i : Instr) : Bool :=
  (s.tile x.tile).cmds.any fun c => c.thr = x.thread && c.owned &&
    ((match c.vdst with
      | some d => (vregsOf i).contains d
      | none => false) || (c.p7dst && usesP7 i))

/-- The stop that a poisoned `arow` left for an instruction that names its vector register (R425). -/
def Thread.vStop (t : Thread) (i : Instr) : Option Deferred :=
  t.deferred.find? fun d => match d.vreg with
    | some r => (vregsOf i).contains r
    | none => false

/-- A thread may issue (R96, R98, R220): it runs an activation, nothing holds it, and its budget lasts. -/
def State.mayIssue (s : State) (x : ThreadId) : Bool :=
  let t := s.thread x
  t.active && !t.suspended && (t.hold = .free || t.hold = .retest) && decide (t.wdUsed.toNat < 2 ^ t.eff.wdog)

/-- An instruction is issued by a thread: ICNT and the skid ring count it, unless it waits and was counted before
(R224, R228, R422). -/
def State.count (s : State) (x : ThreadId) (insn : Nat) : State :=
  s.modThread x fun t =>
    let t := { t with insn := BitVec.ofNat 32 insn }
    if t.counted then t
    else
      let ring := t.skid ++ [(t.pc, s.cyc)]
      { t with icnt := t.icnt + 1, skid := ring.drop (ring.length - 16) }

/-- The bits of an instruction belong to the vector slot (R96): the 16-bit lane forms, majors 0x24 to 0x32, and
`rmove`. The halfword 0 is no lane form: its stop is taken in the scalar slot. So is that of a word whose major lies in
neither list of R96, which names no slot for it (DESIGN CHOICE, log 68). -/
def vectorWord (insn : Nat) : Bool :=
  let major := insn / 2 ^ 26
  (insn % 2 = 0 && insn ≠ 0) || (0x24 ≤ major && major ≤ 0x32) || (major = 0x34 && insn / 2 % 64 = 5)

/-- A slot of a tile has served a thread (R96). -/
def State.serve (s : State) (x : ThreadId) (vector : Bool) : State :=
  s.modTile x.tile fun t => if vector then { t with rotV := x.thread } else { t with rotS := x.thread }

/-- An event or an instruction handed to `exec`. -/
def State.run (s : State) (x : ThreadId) (i : Instr) : Host.Outcome State Fault Refusal := exec i { s with cur := x }

/-- The context to which an instruction issues a command (R113); none where it issues none. -/
def ctxOf : Instr → Option (BitVec 2)
  | .tld _ _ _ => some ctxMatrix
  | .tldT _ _ _ => some ctxMatrix
  | .tst _ _ => some ctxMatrix
  | .mma _ _ _ => some ctxMatrix
  | .mmaS _ _ _ _ => some ctxMatrix
  | .azero _ => some ctxMatrix
  | .ald _ _ => some ctxMatrix
  | .ast _ _ => some ctxMatrix
  | .arow _ _ _ => some ctxMatrix
  | .attn _ _ _ => some ctxMatrix
  | .attnFin _ _ => some ctxMatrix
  | .rng _ _ => some ctxDraw
  | .topk _ _ => some ctxDraw
  | .gmask _ _ => some ctxDraw
  | .draw _ _ => some ctxDraw
  | .drawv _ _ => some ctxDraw
  | .accept _ _ => some ctxDraw
  | .route _ _ _ => some ctxExchange
  | .cpy _ _ _ => some ctxCopy
  | .cpyT _ _ _ => some ctxCopy
  | .cpyMc _ _ _ _ => some ctxCopy
  | .gath _ _ => some ctxCopy
  | .scat _ _ => some ctxCopy
  | .coll _ _ => some ctxExchange
  | .ring _ _ => some ctxExchange
  | .promo _ _ _ _ => some ctxCopy
  | .evict _ _ => some ctxCopy
  | .rmove _ _ _ => some ctxCopy
  | _ => none

/-- The reclamation of the thread's fibre is due (R73). -/
def State.rclmOf (s : State) (x : ThreadId) : Bool :=
  match s.fibre? (s.thread x).fibre with
  | some f => f.rclm
  | none => false

/-- A command for which the scoreboard or its context has no room does not issue (R114, R117), unless the fibre is to be
reclaimed at it. -/
def State.crowded (s : State) (x : ThreadId) (i : Instr) : Bool :=
  match ctxOf i with
  | some c => !s.hasRoom x c && !s.rclmOf x
  | none => false

/-- A format or a mode that an instruction does not accept stops it before its own checks (R259 step 5). -/
def formatStop : Instr → Bool
  | .viota _ f => !([TagClass.f, .s, .u].contains (tagClass f))
  | .vcvt _ _ t _ m _ _ => t = tagMask || (mode? m.toNat).isNone
  | .vlds _ _ _ f _ => tagWidth f = 4
  | .vexp2 _ _ r _ => (mode? r.toNat).isNone
  | .vlog2 _ _ r _ => (mode? r.toNat).isNone
  | .vrcp _ _ r _ => (mode? r.toNat).isNone
  | .vrsqrt _ _ r _ => (mode? r.toNat).isNone
  | _ => false

/-- An instruction stops or is reclaimed before the stop that a poisoned `arow` left is judged (R73, R259, R425): by step
3 or 5 of R259, or at the reclamation point that `arow` is. -/
def State.stopsFirst (s : State) (x : ThreadId) (i : Instr) : Bool :=
  formatStop i || match i with
    | .arow _ a _ => (s.tile x.tile).accs.toNat ≤ a.toNat || s.rclmOf x
    | _ => false

/-- The stop that a poisoned `arow` left for an instruction, where nothing stops it before (R425). -/
def State.vStop (s : State) (x : ThreadId) (i : Instr) : Option Deferred :=
  if s.stopsFirst x i then none else (s.thread x).vStop i

/-- The next instruction of a thread taken (R254, R259), with the effective values of its activation (R58). An
instruction that waits for a register or for room does nothing. A fetch that stops is handed on as it was made: its stop
makes it again in the same state (R149). -/
def State.takeNext (s : State) (x : ThreadId) : Host.Outcome State Fault Refusal :=
  match s.fetch x with
  | .hole pa => .fault (.noMemory pa)
  | .stop _ c addr insn => (s.serve x false).run x (.fetchStop c addr (BitVec.ofNat 32 insn))
  | .word s' insn =>
    let s' := if (s.thread x).counted then s' else s'.serve x (vectorWord insn)
    match decodeWord insn with
    | .error e => s'.run x (.notAnInstruction (badCause e) (BitVec.ofNat 32 insn))
    | .ok i =>
      if s'.hazard x i || s'.crowded x i then .next s
      else match s'.vStop x i with
        | some d => .next (({ s'.count x insn with cur := x }).stop ⟨d.cause, d.addr, 0, none, none⟩)
        | none => (s'.count x insn).run x i

/-- A step changed by a function of the state that follows. -/
def andThen (o : Host.Outcome State Fault Refusal) (f : State → State) : Host.Outcome State Fault Refusal :=
  match o with
  | .next s => .next (f s)
  | .fault e => .fault e
  | .refused e => .refused e

/-- The next instruction of a thread taken; afterwards no activation acts. -/
def State.issueNow (s : State) (x : ThreadId) : Host.Outcome State Fault Refusal :=
  andThen ((s.actsFor (some (s.thread x).eff)).takeNext x) fun s => s.actsFor none

/-- The issue stage takes the next instruction of a thread (R96). A thread that may not issue does nothing. -/
def State.issue (s : State) (x : ThreadId) : Host.Outcome State Fault Refusal :=
  if s.mayIssue x then s.issueNow x else .next s

/-! Single steps (R229). -/

/-- A wait that a step's one test did not end: the thread stays at the instruction (R229). A `pause` that was stepped
waits for its full count (R422). -/
def Thread.unwait (t : Thread) : Thread :=
  match t.hold with
  | .stepping _ => t
  | .pause _ => if t.counted then { t with hold := .free, counted := false, polls := 0, captured := none } else t
  | _ => { t with hold := .free, counted := false, polls := 0, captured := none }

/-- The instruction of a single step (R229). -/
def State.singleStep (s : State) (x : ThreadId) : Host.Outcome State Fault Refusal :=
  let t := s.thread x
  if t.active && t.suspended then
    andThen ((s.modThread x fun t => { t with stepFault := none, counted := false }).issueNow x)
      fun s => s.modThread x Thread.unwait
  else .next s

/-- The instruction that a single step is to issue waits for a register or for room: the step waits with it (R229). -/
def State.stepWaits (s : State) (x : ThreadId) : Bool :=
  let t := s.thread x
  t.active && t.suspended && match (s.actsFor (some t.eff)).fetch x with
    | .word s insn => match decodeWord insn with
      | .ok i => s.hazard x i || s.crowded x i
      | .error _ => false
    | _ => false

/-- The step of a thread is not over: a command that it issued runs, be it a `coll` or `ring` that waits for a partner, or
its `pause` still counts (R229, R422). A `coll` or `ring` that waited when the region froze is none of the step. A thread
that is suspended no longer is in no step (DEDUCED, log 24). -/
def State.stepOpen (s : State) (x : ThreadId) : Bool :=
  let t := s.thread x
  let own (c : Cmd) : Bool := c.thr = x.thread && (c.icnt = t.icnt || !s.awaitsPartner x.tile c)
  t.suspended && ((s.tile x.tile).cmds.any own || match t.hold with
    | .pause _ => true
    | _ => false)

/-- The end of a single step: a debug record with STEP_DONE, whose STEP is 1 (R213), and the threads that wait for it go on
(R229, R412). -/
def State.stepEnds (s : State) (x : ThreadId) : State :=
  let f := { s.faultRec x .stepDone .n 0 0 with step := true }
  let s := s.sendDebug (some x.tile) f
  { s with tiles := s.tiles.map fun t => (t.1, { t.2 with threads := t.2.threads.map fun y =>
      if y.hold = (Hold.stepping x) then { y with hold := .free } else y }) }

end Sys2Proof.Machine
end

