-- ==== Sys2Proof/Machine/Clock.lean ====
section
/-! DEFINITION. The passing of a cycle (R53, R56, R85, R98). -/

namespace Sys2Proof.Machine

/-- Millionths of a tick in one cycle, at a clock in MHz and a rate adjustment in parts per million (R53, R56). -/
def cycleLength (mhz : Nat) (ppm : Int) : Nat := (10 ^ 3 * (10 ^ 6 + ppm).toNat) / mhz

/-- TIME after a cycle (R53). -/
def State.timePasses (s : State) : State :=
  let f := s.timeFrac + cycleLength s.clockMHz s.ppm
  { s with time := s.time + wd (f / 10 ^ 6), timeFrac := f % 10 ^ 6 }

/-- The watchdog of a thread after a cycle (R98, R220): it counts from the first issue, and not while suspended. -/
def Thread.watch (t : Thread) : Thread :=
  if t.active && !t.suspended && t.icnt ≠ 0 then { t with wdUsed := t.wdUsed + 1 } else t

/-- A cycle passes: TIME runs, and gang slots whose tick has come fire (R55); after READY CYC counts (R85) and the
watchdogs with it. Each copy that streams moves a beat (R119). -/
def State.tick (s : State) : State :=
  let s := s.timePasses.fireDue
  if s.hub.ready then
    let s := s.stream
    { s with cyc := s.cyc + 1, tiles := s.tiles.map fun t => (t.1, { t.2 with threads := t.2.threads.map Thread.watch }) }
  else s

end Sys2Proof.Machine
end

