-- ==== Sys2Proof/Machine/Place.lean ====
section
/-! DEFINITION. A program placed for the next step (log 8): one loaded region, its range tree, its code, and a fibre
whose activation runs on thread 0 of tile 0. It stands for bring-up, the load of a region and the dispatch of a fibre,
which the events perform. -/

namespace Sys2Proof.Machine

/-- The physical address of the placed RCB. -/
def placeRcb : Nat := 0x1000000
/-- The root of the placed range tree. -/
def placeRoot : Nat := 0x1001000
/-- The virtual address of the placed code; its range maps it from `placeImage` upward. -/
def placePc : Word := 0x1000
/-- The physical address of virtual address 0 in the placed range. -/
def placeImage : Nat := 0x2000000

/-- The placed range: 64 KiB from virtual address 0, with every permission. -/
def placeEntry : RangeEntry where
  vbase := 0
  limit := 0x10000
  offset := wd placeImage
  permR := true
  permW := true
  permX := true
  priv := false
  shared := false
  cow := false
  vol := false
  tiered := false
  forwarding := false
  gen := 1
  fscope := 0
  rtag := 0
  owner := 0
  fbase := 0
  foff := 0
  btier := 0
  baddr := 0

/-- The placed region: region 0, a root, with handler 0 on tile 0 as its root and system handler. -/
def placeRegion : Region where
  rcb := placeRcb
  root := 0
  handlers := [⟨0, 0, placePc⟩]
  tiles := [⟨0, 0, 0⟩]
  tregs := 4
  accs := 1
  lzb := 8
  forks := 0
  slabwin := 0
  slablog := 0
  nctx := 0
  ctxs := []
  scopes := []
  pool := []
  freeUnits := []
  freeHalves := []
  stopping := false
  thawing := false
  again := false
  frozen := false
  saved := none
  unloading := false

/-- The placed fibre's handle: slot 0 of tile 0, in its first generation. -/
def placeFibre : Word := mkHandle 0 0 1 1

/-- The placed fibre, whose activation runs on thread 0 of tile 0. -/
def placeRecord : Fibre where
  handler := 0
  fstate := .running
  conf := true
  pin := false
  cont := false
  rclm := false
  detach := false
  conth := 0
  region := 0
  parent := 0
  depctr := 0
  arg := 0
  refs := []
  refBlocks := []
  waitfut := 0
  kept := none
  spawnt := 0
  bound := none
  creators := []
  group := 0
  acquires := []
  pending := none
  settled := none
  waitsCounter := false
  park := none
  fault := none
  kvFault := none
  runsOn := some ⟨0, 0⟩

/-- The placed fibre's future. -/
def placeFuture : Future where
  count := 1
  fstat := .running
  conf := true
  group := false
  result := 0
  fibre := placeFibre
  waiters := []
  gleft := 0
  gscope := 0
  gsets := none
  detach := false
  counter := none
  members := []
  region := 0
  released := false

/-- The effective values of the placed region (R58): those of its RCB, whose OVR bits 3, 4, 6 and 7 are set, and the
defaults. -/
def placeEff : Eff where
  region := 0
  budget := 65536
  prio := 0
  fdom := 0
  scopeBase := 0x1002000
  tree := 0
  rangeRoot := placeRoot
  wdog := 20
  sys := some (0, 0)
  regen := none

/-- The placed thread at its first instruction (R17). -/
def placeThread : Thread :=
  { Thread.reset with
      g := ((Vector.replicate 32 (0 : Word)).set 4 placeFibre).set 5 (futureHandle placeFibre)
      active := true
      pc := placePc
      fibre := placeFibre
      eff := placeEff }

/-- The bytes of the placed program in memory: the RCB, the tree, and the code. -/
def placeBytes (m : List Host.Cell) (code : List Byte) : List Host.Cell :=
  let m := writeBytes m placeRcb (leBytes 256 0)
  let m := writeNat m placeRcb 8 (0xD8 * 2 ^ 32)
  let m := writeNat m (placeRcb + 16) 8 65536
  let m := writeNat m (placeRcb + 24) 8 0x1002000
  let m := writeNat m (placeRcb + 32) 8 placeRoot
  let m := writeNat m (placeRcb + 40) 8 20
  let m := writeNat m (placeRcb + 48) 8 0x1003000
  let m := writeNat m (placeRcb + 56) 8 4
  let m := writeNat m (placeRcb + 80) 8 1
  let m := writeBytes m placeRoot (leBytes 256 0)
  let m := writeNat m placeRoot 8 1
  let m := writeNat m (placeRoot + 8) 8 (2 ^ 56)
  let m := writeNat m (placeRoot + 128) 8 (placeRoot + 0x101)
  let m := writeNat m (placeRoot + 136) 8 (placeRoot + 0x181)
  let m := writeBytes m (placeRoot + 0x100) placeEntry.bytes
  let m := writeBytes m (placeRoot + 0x140) (leBytes 192 0)
  writeBytes m (placeImage + placePc.toNat) code

/-- The state with a program of one instruction placed as the next thing that a step runs. -/
def State.withProgram (s : State) (code : List Byte) : State :=
  { s with
      agenda := [.issue 0 0]
      hub := { s.hub with ready := true, phase := 11, fail := false }
      mem := placeBytes s.mem code
      poison := []
      inflight := []
      slotStores := [(0, ⟨0x4000000, 1, []⟩)]
      tiles := mset s.tiles 0
        { Tile.reset with
            tregs := 4
            accs := 1
            threads := (Vector.replicate 8 Thread.reset).set 0 placeThread
            slots := [(0, ⟨1, some placeRecord, some placeFuture⟩)] }
      regions := mset s.regions 0 placeRegion }

end Sys2Proof.Machine
end

