-- ==== Sys2Proof/Machine/Policy.lean ====
section
/-! DEFINITION. What an entry of the agenda does, and the plan that the machine makes for a cycle where the agenda is
empty: what is due, in an order that the spec leaves free, and then the passing of the cycle. -/

namespace Sys2Proof.Machine

/-- An event of the opcode table: a term that has no encoding. -/
def isEvent (i : Instr) : Bool := i.size = 0

/-- The numbers below n, highest first. -/
def downFrom (n : Nat) : List Nat := (List.range n).reverse

/-! Before READY. -/

/-- The step of bring-up that is due (R31). -/
def bringUpEvent (h : Hub) : List Instr :=
  if h.fail then []
  else match h.phase.toNat with
    | 0 => [.powerOn]
    | 1 => [.fuseLoad (Config.stepPasses 1)]
    | 2 => [.atticKernelVerify]
    | 3 => [.clockCalibration (Config.stepPasses 3)]
    | 4 => [.sramRepair (Config.stepPasses 4)]
    | 5 => [.linkCalibration (Config.stepPasses 5)]
    | 6 => [.hbmTraining (Config.stepPasses 6)]
    | 7 => [.portEqualisation (Config.stepPasses 7) Config.drivesFound Config.driveBytes]
    | 8 => [.hbmZeroing (Config.stepPasses 8)]
    | 9 => [.sramZeroing (Config.stepPasses 9)]
    | 10 => [.bootImageLoad]
    | _ => []

/-! The hub. -/

/-- The mailbox command that waits (R49, R50). -/
def mailboxEvent (h : Hub) : List Instr :=
  if h.mbxPending.isNone || h.freezing.isSome then []
  else match h.mbxCode with
    | 1 => [.ident]
    | 2 => [.attest]
    | 3 => [.readback]
    | 4 => [.freeze]
    | 5 => [.thaw]
    | 6 => [.fwstage]
    | 7 => [.fwcommit]
    | 8 => [.reset]
    | 9 => [.links]
    | _ => [.mailboxBadcmd]

/-- Gang slots whose tick has come, and messages that time out (R45, R55). -/
def timedEvents (s : State) : List Instr :=
  (((List.range 8).map (BitVec.ofNat 3)).filter fun n =>
    (s.hub.gang n).state = 1 && decide ((s.hub.gang n).tick.toNat ≤ s.time.toNat)).map .gangFire ++
  (s.hub.assemblies.filter fun a => a.late s.time).map fun a => .hostMessageTimeout (BitVec.ofNat 10 a.slot)

/-! Work between the parts. -/

/-- What is on its way arrives (R67, R121, R160). -/
def arrivalEvents (s : State) : List Instr :=
  (downFrom s.inflight.length).map .accessPerformedAtHome ++ (downFrom s.net.length).map .messageArrival ++
    (downFrom s.decs.length).map .decrementArrival

/-- Stops that spread and cuts that close (R220, R221), regions that have come to rest (R57), and retiring scope entries
(R169). -/
def regionEvents (s : State) : List Instr :=
  s.regions.flatMap fun x =>
    let r : BitVec 16 := BitVec.ofNat 16 x.1
    (if x.2.stopping then ((s.tilesOf r).map fun t => Instr.tileStop t r) ++ [.cutClose r] else []) ++
      (if x.2.unloading then [.regionUnload r] else []) ++
      (x.2.scopes.filter fun c => c.2.state = 2).map fun c => .scopeDrain r (BitVec.ofNat 4 c.1)

/-- Fibres to reclaim and ranges to release (R75, R415). -/
def endEvents (s : State) : List Instr :=
  s.reclaims.map (fun h => .fibreReclaim (hTile h) (hSlot h)) ++ (downFrom s.releases.length).map .rangeRelease

/-- Blocks that are fetched or written back (R153), and ranges that move (R140). -/
def tierEvents (s : State) : List Instr :=
  (s.blocks.filterMap fun b => match b.2.state with
    | .fetching => some (.blockFetchComplete (BitVec.ofNat 52 b.1) true [])
    | .evicting => some (.writeBackComplete (BitVec.ofNat 52 b.1) true)
    | _ => none) ++
  (downFrom s.moves.length).flatMap fun n => [.moveStep n, .forwardRecordRemoval n]

/-- What the store rooms do (R143, R158). -/
def dieEvents (s : State) : List Instr :=
  ((List.range 4).map (BitVec.ofNat 2)).flatMap fun d =>
    let x := s.die d
    (if x.free < x.reserve.toNat && decide (x.askAt ≤ s.cyc.toNat) && !x.allocated.isEmpty then [.borrow d] else []) ++
      (downFrom x.borrowed.length).map (fun n => .batchReturn d n) ++
      match x.compact with
      | some k => [.compaction d k]
      | none => []

/-- A command that runs may finish: one that streams once its beats have had their cycles (R119). -/
def mayFinish (s : State) (c : Cmd) : Bool :=
  c.cancelled || (c.running && (!streams c.insn || decide (c.issueCyc.toNat + (c.size + 63) / 64 < s.cyc.toNat)))

/-- Engine commands of a tile that start and finish (R114, R117). -/
def engineEvents (s : State) (t : BitVec 10) : List Instr :=
  let l := (s.tile t).cmds
  (downFrom l.length).flatMap fun n =>
    match l[n]? with
    | some c => if mayFinish s c then [.engineCommandFinish t n] else if c.running then [] else [.engineCommandStart t n]
    | none => []

/-- Waits and budgets of a tile's threads that end (R98, R184, R311). -/
def waitEvents (s : State) (t : BitVec 10) : List Instr :=
  ((List.range 8).map (BitVec.ofNat 3)).flatMap fun h =>
    let x := (s.tile t).thread h
    if !x.active then []
    else
      (if x.expired then [Instr.watchdog t h] else []) ++
        match x.hold with
        | .pause c => if s.cyc.toNat < c then [] else if x.counted then [.barrierWake t h] else [.pauseExpiry t h]
        | _ => []

/-- What the scheduler of a tile does (R84 to R94). -/
def scheduleEvents (s : State) (t : BitVec 10) : List Instr :=
  let x := s.tile t
  (if 56 < x.ready.length then [.queueSpill (.tile t)] else []) ++
    (if x.ready.length < 8 && (!x.backlog.isEmpty || (s.cmem (clusterOf t)).queue.any (s.entryFits t) ||
        (s.die (dieOf t)).queue.any (s.entryFits t)) then [.queueRefill (.tile t)] else []) ++
    (if s.maySteal t then [.steal t] else []) ++
    (if (s.choice t).isSome || x.ready.any (fun e => (s.fibre? e.handle).isNone) || !(x.inbound.toList.all List.isEmpty)
      then [.threadDispatch t] else [])

/-- The cluster queues that spill or refill (R84). -/
def clusterEvents (s : State) : List Instr :=
  s.cmems.flatMap fun x =>
    let c : BitVec 6 := BitVec.ofNat 6 x.1
    (if 448 < x.2.queue.length then [.queueSpill (.cluster c)] else []) ++
      if x.2.queue.length < 64 && !(s.die (BitVec.ofNat 2 (x.1 / 16))).queue.isEmpty then [.queueRefill (.cluster c)]
      else []

/-! The issue stage (R96). -/

/-- The slot for which a thread is eligible, if it is: true for the vector slot. -/
def State.slotFor (s : State) (x : ThreadId) : Option Bool :=
  if s.mayIssue x && (s.thread x).hold = .free then
    match (s.actsFor (some (s.thread x).eff)).fetch x with
    | .hole _ => some false
    | .stop _ _ _ _ => some false
    | .word s insn =>
      match decodeWord insn with
      | .error _ => some (vectorWord insn)
      | .ok i => if s.hazard x i || s.crowded x i then none else some (vectorWord insn)
  else none

/-- The threads in rotation, beginning after the one last served. -/
def rotation (last : BitVec 3) : List (BitVec 3) := (List.range 8).map fun i => last + 1 + BitVec.ofNat 3 i

/-- What a tile issues in a cycle: tests of the instructions that wait, and one instruction for each slot. -/
def issueActs (s : State) (t : BitVec 10) : List Act :=
  let x := s.tile t
  let waits := (rotation x.rotS).filter fun h => s.mayIssue ⟨t, h⟩ && (x.thread h).hold = .retest
  let pick (last : BitVec 3) (v : Bool) : List (BitVec 3) :=
    ((rotation last).find? fun h => s.slotFor ⟨t, h⟩ = some v).toList
  (waits ++ pick x.rotS false ++ pick x.rotV true).map (Act.issue t)

/-- The compute dies have power: it is removed at the stop temperature, once every region is frozen (R56; DEDUCED,
log 42). -/
def State.powered (s : State) : Bool :=
  !s.hub.hot || s.regions.any fun x => !x.2.frozen

/-- An event is of the hub or the attic alone: it needs no power of the compute dies (R56). -/
def hubEvent : Instr → Bool
  | .powerOn => true
  | .pcieConventionalReset => true
  | .functionLevelReset => true
  | .linkLost => true
  | .portFailure _ => true
  | .linkDomainFormation _ _ _ => true
  | .timeSync _ _ _ => true
  | .driveFailure _ => true
  | .thermalThrottle => true
  | .thermalRecovery => true
  | .stopTemperature => true
  | .hostMessage _ _ => true
  | .hostMessageTimeout _ => true
  | .registerWrite _ _ => true
  | .gangArm _ => true
  | .gangCancel _ => true
  | .gangFire _ => true
  | .ident => true
  | .attest => true
  | .readback => true
  | .freeze => true
  | .thaw => true
  | .fwstage => true
  | .fwcommit => true
  | .reset => true
  | .links => true
  | .mailboxBadcmd => true
  | .hostSignal _ => true
  | _ => false

/-- An entry of the agenda may act: without power, only the hub and the attic and the passing of time do (R56). -/
def State.acts (s : State) : Act → Bool
  | .event e => s.powered || hubEvent e
  | .tick => true
  | _ => s.powered

/-- The plan for the next cycle. -/
def plan (s : State) : List Act :=
  let hub := mailboxEvent s.hub ++ timedEvents s
  if !s.hub.ready then (bringUpEvent s.hub ++ hub).map .event ++ [.tick]
  else if !s.powered then hub.map .event ++ [.tick]
  else
    let tiles := s.tiles.map fun t => BitVec.ofNat 10 t.1
    (hub ++ arrivalEvents s ++ regionEvents s ++ endEvents s ++ tierEvents s ++ dieEvents s ++
      tiles.flatMap (engineEvents s) ++ tiles.flatMap (waitEvents s) ++ clusterEvents s ++
      tiles.flatMap (scheduleEvents s)).map .event ++ tiles.flatMap (issueActs s) ++ [.tick]

/-- The state in which an entry of the agenda is put off to the end of the cycle. -/
def State.later (s : State) (a : Act) : State := { s with agenda := (if s.agenda.isEmpty then plan s else s.agenda) ++ [a] }

/-- An entry of the agenda performed. A single step that waits for room is tried again, and its end follows once what it
issued has finished (R229). -/
def perform (a : Act) (s : State) : Host.Outcome State Fault Refusal :=
  if !s.acts a then .next s
  else match a with
  | .issue t h => s.issue ⟨t, h⟩
  | .event e => if isEvent e && e.wf then exec e s else .refused .illFormed
  | .step t h =>
    if s.stepWaits ⟨t, h⟩ then .next (s.later (.step t h))
    else andThen (s.singleStep ⟨t, h⟩) fun s => { s with agenda := .stepDone t h :: s.agenda }
  | .stepDone t h =>
    if s.stepOpen ⟨t, h⟩ then .next (s.later (.stepDone t h)) else .next (s.stepEnds ⟨t, h⟩)
  | .tick => .next s.tick

end Sys2Proof.Machine
end

