-- ==== Sys2Proof/Machine/Step.lean ====
section
/-! DEFINITION. One step of the machine: the next entry of the agenda, or of the plan that the machine makes for the
next cycle where the agenda is empty. -/

namespace Sys2Proof.Machine

/-- One step. -/
def step (s : State) : Host.Outcome State Fault Refusal :=
  match s.agenda with
  | a :: r => perform a { s with agenda := r }
  | [] =>
    match plan s with
    | a :: r => perform a { s with agenda := r }
    | [] => .next s.tick

/-- The state in which the instruction with these bits is the next one that `step` fetches and runs. -/
def State.withFetchWord (s : State) (nbits w : Nat) : State := s.withProgram (leBytes 4 (w % 2 ^ nbits))

end Sys2Proof.Machine
end

