-- ==== Sys2Proof/Certificates/Slice0/Obligations.lean ====
section
/-! DEFINITION. The statements about the Marolmano. Each docstring names the rule of spec/ that it formalises, or
says that it is the model's own. In every statement `exec i s` performs i for the thread `s.cur`, whose registers
`s.g`, `s.p`, `s.m`, `s.v` and `s.pc` read. -/

open Sys2Proof Sys2Proof.Machine

/-! Helpers of the statements. -/

namespace Sys2Proof.Claims

/-- The instruction completes in the state t. -/
abbrev Does (i : Instr) (s t : State) : Prop := exec i s = .next t

/-- Every byte of memory reads as before. -/
def SameMemory (s t : State) : Prop := ∀ a, readByte t.mem a = readByte s.mem a

/-- Every byte of memory outside n bytes from an address reads as before. -/
def SameOutside (s t : State) (pa n : Nat) : Prop := ∀ a, a < pa ∨ pa + n ≤ a → readByte t.mem a = readByte s.mem a

/-- Every tile but the current thread's, every other thread of that tile, and everything of the module outside the
tiles is as before. -/
def SameElsewhere (s t : State) : Prop :=
  (∀ i, i ≠ s.cur.tile → t.tile i = s.tile i) ∧
  (∀ h, h ≠ s.cur.thread → (t.tile s.cur.tile).thread h = (s.tile s.cur.tile).thread h) ∧
  { t with tiles := s.tiles } = s

/-- What a thread holds besides its general registers, its predicates, its lane masks, its vector registers, its pc
and the marks of a waiting instruction. -/
def SameRest (x y : Thread) : Prop :=
  { y with g := x.g, p := x.p, m := x.m, v := x.v, vtag := x.vtag, pc := x.pc, hold := x.hold, counted := x.counted,
           polls := x.polls, captured := x.captured } = x

/-- The general registers but one are as before, and that one, unless it is `g0`, holds a value. -/
def WroteG (s t : State) (d : BitVec 5) (x : Word) : Prop :=
  ∀ r, t.g r = if r = d ∧ d ≠ 0 then x else s.g r

/-- Predicates, lane masks and vector registers with their tags are as before. -/
def SameFlags (s t : State) : Prop := (∀ r, t.p r = s.p r) ∧ (∀ r, t.m r = s.m r)

/-- Vector registers and their tags are as before. -/
def SameVectors (s t : State) : Prop := ∀ r, t.v r = s.v r ∧ t.vtag r = s.vtag r

/-- A bit of a 64-bit word. -/
def bitAt (x : Word) (k : Nat) : Bool := x.getLsbD k

/-- The first n bits of a word from bit 63 downward are zero, and the next one, if there is one, is 1. -/
def LeadingZeros (x : Word) (n : Nat) : Prop :=
  n ≤ 64 ∧ (∀ k, k < n → bitAt x (63 - k) = false) ∧ (n < 64 → bitAt x (63 - n) = true)

/-- The first n bits of a word from bit 0 upward are zero, and the next one, if there is one, is 1. -/
def TrailingZeros (x : Word) (n : Nat) : Prop :=
  n ≤ 64 ∧ (∀ k, k < n → bitAt x k = false) ∧ (n < 64 → bitAt x n = true)

/-- A fibre's activation may go on at a reclamation point (R73). -/
def NotReclaimed (s : State) : Prop := reclaimPoint s = .ok ()

/-- The issuing fibre is confirmed (R78). -/
def Confirmed (s : State) : Prop := s.confirmed = true

/-- The current thread runs an activation of its region's system handler (R420). -/
def Privileged (s : State) : Prop := s.privileged = true

end Sys2Proof.Claims

open Sys2Proof.Claims

/-! Encodings. -/

/-- Words of control instructions (R264), of every form of load and store (R265), of the system forms (R277) and of atomics and
range forms, as the spec works them out or lays out their fields, and words laid out from the tables of R279 to R293 bit by
bit, decode to the instructions that they stand for. A check of chosen words. -/
def Obligations.DecodeWords : Prop :=
  decodeWord 0x05CE7801 = .ok (.add 14 14 15) ∧
  decodeWord 0x06D560B1 = .ok (.sel 22 21 12 1) ∧
  decodeWord 0x1AAE0005 = .ok (.shli 21 14 2) ∧
  decodeWord 0x1CE00821 = .ok (.li 7 0x410) ∧
  decodeWord 0x2C230201 = .ok (.cmpi 1 3 0 256) ∧
  decodeWord 0x30213801 = .ok (.pand 1 1 7) ∧
  decodeWord 0x43800039 = .ok (.b 7 0 28) ∧
  decodeWord 0x4800002D = .ok (.call 22) ∧
  decodeWord 0x4C000005 = .ok .ret ∧
  decodeWord 0x4C000007 = .ok .nop ∧
  decodeWord 0x5287FFF1 = .ok (.loop 20 0x3FFF8) ∧
  decodeWord 0x60E84001 = .ok (.ld 7 8 2 0) ∧
  decodeWord 0x652A4001 = .ok (.st 9 10 2 0) ∧
  decodeWord 0x68497C01 = .ok (.ldAcq 2 9 3 14 0) ∧
  decodeWord 0x6829FC01 = .ok (.stRel 1 9 3 14 0) ∧
  decodeWord 0x6CE86001 = .ok (.ldVol 7 8 3 0) ∧
  decodeWord 0x6CE8E1FF = .ok (.stVol 7 8 3 0xFF) ∧
  decodeWord 0x70080005 = .ok (.pref 8 2) ∧
  decodeWord 0x756C6961 = .ok (.amoD 11 12 13 2 0) ∧
  decodeWord 0x78681707 = .ok (.cas 3 8 2 14 1) ∧
  decodeWord 0xD1280001 = .ok (.rprobe 9 8) ∧
  decodeWord 0xD0090707 = .ok (.rinv 9 14) ∧
  decodeWord 0xE0000001 = .ok .trap ∧
  decodeWord 0xE0042803 = .ok (.eret 4 5) ∧
  decodeWord 0xE0E08005 = .ok (.sysr 7 0 16) ∧
  decodeWord 0xE0E08807 = .ok (.sysw 7 0 17) ∧
  decodeWord 0xE0000009 = .ok .halt ∧
  decodeWord 0xE008000B = .ok (.carve 8) ∧
  decodeWord 0xE000000D = .ok .bkpt ∧
  decodeWord 0xE008480F = .ok (.wpset 8 9) ∧
  decodeWord 0xE0080011 = .ok (.sstep 8)

/-- DECODE AND ENCODE AGREE (R253 to R277): the bytes of a well-formed instruction, whatever bytes follow, decode to
it, with every operand at every value that the encoding admits. -/
def Obligations.DecodeEncode : Prop :=
  ∀ (i : Instr) (rest : List Byte), i.wf = true → isEvent i = false → decode (encode i ++ rest) = .ok (i, rest)

/-- EACH WORD HAS ONE MEANING (R259): what a word decodes to is well-formed, is no event, and encodes as the bits of
that word. So two words of the same length that differ decode to different instructions. -/
def Sys2Proof.Claims.EncodeDecode : Prop :=
  ∀ (w : Nat) (i : Instr), w < 2 ^ 32 → decodeWord w = .ok i →
    i.wf = true ∧ isEvent i = false ∧ encodeWord i = w % 2 ^ (8 * i.size)

/-- Encodings that are refused (R256, R259, R260): the halfword of zeros, and every 32-bit word with a major that the
map of R260 does not assign, named here by their numbers. -/
def Sys2Proof.Claims.ReservedEncodings : Prop :=
  (∀ w, w % 2 ^ 16 = 0 → decodeWord w = .error .zeroHalfword) ∧
  (∀ w, w < 2 ^ 32 → w % 2 = 1 →
    (w / 2 ^ 26 ∈ [0, 0x0D, 0x0E, 0x0F, 0x15, 0x16, 0x17, 0x21, 0x22, 0x23, 0x29, 0x2A, 0x2B, 0x2D, 0x2F, 0x31, 0x33,
        0x35, 0x36, 0x37, 0x39, 0x3A, 0x3B, 0x3C, 0x3D, 0x3E, 0x3F] ↔
      decodeWord w = .error .reservedMajor))

/-! Steps. -/

/-- A STEP RUNS THE DECODED INSTRUCTION (R58, R96, R228, R253): where the agenda names a thread that may issue, the dies
have power, the bits at its pc are fetched as w in the state s' under the effective values of its activation, they decode
to i, no unfinished command or full scoreboard holds i back, and no stop of a poisoned `arow` comes first, the step is
`exec` of i for that thread, in s' with the slot of R96 served, ICNT and the skid ring counting i unless i waits and was
counted before; afterwards no activation acts. -/
def Sys2Proof.Claims.StepRunsInstruction : Prop :=
  ∀ (s s' : State) (t : BitVec 10) (h : BitVec 3) (r : List Act) (w : Nat) (i : Instr),
    let q : State := { s with agenda := r }
    s.agenda = .issue t h :: r → q.powered = true → q.mayIssue ⟨t, h⟩ = true →
    (q.actsFor (some (q.thread ⟨t, h⟩).eff)).fetch ⟨t, h⟩ = .word s' w →
    decodeWord w = .ok i →
    let u := if (s'.thread ⟨t, h⟩).counted then s' else s'.serve ⟨t, h⟩ (vectorWord w)
    u.hazard ⟨t, h⟩ i = false → u.crowded ⟨t, h⟩ i = false → u.vStop ⟨t, h⟩ i = none →
    step s = andThen (exec i { u.count ⟨t, h⟩ w with cur := ⟨t, h⟩ }) fun q => q.actsFor none

/-- A step performs the event that the agenda names, if the event is well-formed and the dies have power or need none for
it; without power it changes nothing, and what the dies held is kept (the model's reading of R56, log 42). The agenda is the
model's own (log 16). -/
def Sys2Proof.Claims.StepRunsEvent : Prop :=
  ∀ (s : State) (e : Instr) (r : List Act),
    let q : State := { s with agenda := r }
    s.agenda = .event e :: r →
    (isEvent e = true → e.wf = true → (q.powered = true ∨ hubEvent e = true) → step s = exec e q) ∧
    (q.powered = false → hubEvent e = false → step s = .next q)

/-! Reset. -/

/-- What reset leaves (R34, R42, R43, R49, R54, R104, R159, R226): STAT reads 0, TIME is 0, the device has no number in
a domain (0xFF), the mailbox is busy, every gang slot is idle; every tile has a landing zone of 8 banks and no tile
register or accumulator, and its array is scratchpad from bank 0 on, 376 banks; a store room keeps 1,024 blocks in
reserve; a watch pair is disabled with SZ 3. -/
def Obligations.ResetState : Prop :=
  State.reset.hub.stat = 0 ∧ State.reset.time = 0 ∧ State.reset.hub.devnum = 0xFF ∧
  State.reset.hub.mbxBusy = true ∧ State.reset.hub.mbxDone = false ∧
  (∀ n, (State.reset.hub.gang n).state = 0) ∧
  (∀ t, (State.reset.tile t).lzb = 8 ∧ (State.reset.tile t).tregs = 0 ∧ (State.reset.tile t).accs = 0 ∧
    (State.reset.tile t).spb = 376) ∧
  (∀ d, (State.reset.die d).reserve = 1024) ∧
  (∀ t, (State.reset.tile t).watch = Vector.replicate 4 ⟨0, 3, false, false, false, false, 0, false⟩)

/-- THE INVARIANT of memory: the physical memory and the cellar are in canonical form, so that equal contents are equal
data. The model's own. -/
def Sys2Proof.Claims.MemOk (s : State) : Prop := Memory.wf s.mem ∧ Memory.wf s.cellar

/-- The invariant holds after reset. -/
def Obligations.ResetInvariant : Prop := MemOk State.reset

/-- Every step keeps the invariant. -/
def Obligations.StepKeepsInvariant : Prop := ∀ s t : State, MemOk s → step s = .next t → MemOk t

/-! Registers. -/

/-- R11, R278: `g0` reads 0 and discards what is written to it, `p0` reads 1 and discards, `m0` reads all ones. -/
def Obligations.HardwiredRegisters : Prop :=
  (∀ (x : Thread), x.rg 0 = 0 ∧ x.rp 0 = true ∧ x.rm 0 = BitVec.allOnes 64) ∧
  (∀ (x : Thread) (w : Word), x.wg 0 w = x ∧ x.wm 0 w = x) ∧
  (∀ (x : Thread) (b : Bool), x.wp 0 b = x)

/-- THE FRAME of a write of a general register: the register holds the value unless it is `g0`, every other general
register, every predicate, mask and vector register is as before, the pc has moved past 4 bytes, and nothing else of
the thread, of its tile or of the module has changed, memory included. -/
def Sys2Proof.Claims.RegisterWriteFrame : Prop :=
  ∀ (s : State) (d : BitVec 5) (x : Word),
    WroteG s (s.putG d x) d x ∧ SameFlags s (s.putG d x) ∧ SameVectors s (s.putG d x) ∧
    (s.putG d x).pc = s.pc + 4 ∧ SameRest s.self (s.putG d x).self ∧ SameElsewhere s (s.putG d x) ∧
    SameMemory s (s.putG d x)

/-- THE FRAME of a write of a predicate, in the same terms. -/
def Sys2Proof.Claims.PredicateWriteFrame : Prop :=
  ∀ (s : State) (d : BitVec 3) (b : Bool),
    (∀ r, (s.putP d b).p r = if r = d ∧ d ≠ 0 then b else s.p r) ∧ (∀ r, (s.putP d b).g r = s.g r) ∧
    (∀ r, (s.putP d b).m r = s.m r) ∧ SameVectors s (s.putP d b) ∧ (s.putP d b).pc = s.pc + 4 ∧
    SameRest s.self (s.putP d b).self ∧ SameElsewhere s (s.putP d b) ∧ SameMemory s (s.putP d b)

/-! Integer instructions. What `putG` and `putP` leave unchanged is `RegisterWriteFrame` and `PredicateWriteFrame`. -/

/-- R279: sums, differences, products and bitwise operations, and the smaller and the larger of two words. The high
product is the floor of the exact one by 2 to the 64. -/
def Obligations.ArithmeticResults : Prop :=
  ∀ (s : State) (d a b : BitVec 5),
    Does (.add d a b) s (s.putG d (s.g a + s.g b)) ∧
    Does (.sub d a b) s (s.putG d (s.g a - s.g b)) ∧
    Does (.and d a b) s (s.putG d (s.g a &&& s.g b)) ∧
    Does (.or d a b) s (s.putG d (s.g a ||| s.g b)) ∧
    Does (.xor d a b) s (s.putG d (s.g a ^^^ s.g b)) ∧
    Does (.mul d a b) s (s.putG d (BitVec.ofInt 64 ((s.g a).toInt * (s.g b).toInt))) ∧
    Does (.mulh d a b) s (s.putG d (BitVec.ofInt 64 (((s.g a).toInt * (s.g b).toInt) / 2 ^ 64))) ∧
    Does (.mulhu d a b) s (s.putG d (BitVec.ofNat 64 (((s.g a).toNat * (s.g b).toNat) / 2 ^ 64))) ∧
    Does (.min d a b) s (s.putG d (if (s.g b).slt (s.g a) then s.g b else s.g a)) ∧
    Does (.max d a b) s (s.putG d (if (s.g a).slt (s.g b) then s.g b else s.g a)) ∧
    Does (.minu d a b) s (s.putG d (if s.g b < s.g a then s.g b else s.g a)) ∧
    Does (.maxu d a b) s (s.putG d (if s.g a < s.g b then s.g b else s.g a))

/-- R280: the register shifts, whose amount is all 64 bits of gb, and the immediate shifts of R285. -/
def Obligations.ShiftResults : Prop :=
  ∀ (s : State) (d a b : BitVec 5) (n : BitVec 6),
    Does (.shl d a b) s (s.putG d (if 64 ≤ (s.g b).toNat then 0 else s.g a <<< (s.g b).toNat)) ∧
    Does (.shr d a b) s (s.putG d (if 64 ≤ (s.g b).toNat then 0 else s.g a >>> (s.g b).toNat)) ∧
    Does (.sra d a b) s (s.putG d ((s.g a).sshiftRight (if 64 ≤ (s.g b).toNat then 63 else (s.g b).toNat))) ∧
    Does (.shli d a n) s (s.putG d (s.g a <<< n.toNat)) ∧
    Does (.shri d a n) s (s.putG d (s.g a >>> n.toNat)) ∧
    Does (.srai d a n) s (s.putG d ((s.g a).sshiftRight n.toNat))

/-- R281: division never faults, truncates toward zero, and has fixed limit cases; for every nonzero divisor the
dividend is divisor times quotient plus remainder, modulo 2 to the 64. -/
def Obligations.DivisionResults : Prop :=
  (∀ (s : State) (d a b : BitVec 5),
    Does (.div d a b) s (s.putG d (
      if s.g b = 0 then BitVec.allOnes 64
      else if (s.g a).toInt = -2 ^ 63 ∧ (s.g b).toInt = -1 then BitVec.ofNat 64 (2 ^ 63)
      else BitVec.ofInt 64 ((s.g a).toInt.tdiv (s.g b).toInt))) ∧
    Does (.rem d a b) s (s.putG d (
      if s.g b = 0 then s.g a
      else if (s.g a).toInt = -2 ^ 63 ∧ (s.g b).toInt = -1 then 0
      else BitVec.ofInt 64 ((s.g a).toInt - (s.g b).toInt * (s.g a).toInt.tdiv (s.g b).toInt))) ∧
    Does (.divu d a b) s (s.putG d (if s.g b = 0 then BitVec.allOnes 64 else s.g a / s.g b)) ∧
    Does (.remu d a b) s (s.putG d (if s.g b = 0 then s.g a else s.g a % s.g b))) ∧
  (∀ x y : Word, y ≠ 0 →
    x = y * divSigned x y + remSigned x y ∧ x = y * divUnsigned x y + remUnsigned x y)

/-- R282: `clz` counts zero bits from bit 63 downward to the first 1, `ctz` from bit 0 upward, `pop` counts the 1 bits,
and `clz` and `ctz` of 0 give 64. -/
def Obligations.BitCounts : Prop :=
  ∀ (s : State) (d a : BitVec 5),
    (∃ n, Does (.clz d a) s (s.putG d (BitVec.ofNat 64 n)) ∧ LeadingZeros (s.g a) n ∧ (s.g a = 0 → n = 64)) ∧
    (∃ n, Does (.ctz d a) s (s.putG d (BitVec.ofNat 64 n)) ∧ TrailingZeros (s.g a) n ∧ (s.g a = 0 → n = 64)) ∧
    Does (.pop d a) s (s.putG d (BitVec.ofNat 64 ((List.range 64).countP fun k => bitAt (s.g a) k)))

/-- R283: `ext` takes w bits from position pos to the low end and zeros above them, `ins` replaces the w bits from
position pos by the low bits of ga and keeps the others; pos is bits 5 to 0 of gb and w is bits 14 to 8, cut at
bit 63. -/
def Obligations.FieldResults : Prop :=
  ∀ (s : State) (d a b : BitVec 5), ∀ pos w, pos = (s.g b).toNat % 64 → w = min ((s.g b).toNat / 256 % 128) (64 - pos) →
    (∃ x, Does (.ext d a b) s (s.putG d x) ∧
      ∀ k, k < 64 → bitAt x k = (decide (k < w) && bitAt (s.g a) (pos + k))) ∧
    (∃ x, Does (.ins d a b) s (s.putG d x) ∧
      ∀ k, k < 64 → bitAt x k =
        if pos ≤ k ∧ k < pos + w then bitAt (s.g a) (k - pos) else bitAt (s.g d) k)

/-- R284 to R286: `sel`, the immediate forms with the extension of each immediate, and constants and addresses. -/
def Obligations.SelectAndImmediates : Prop :=
  ∀ (s : State) (d a b : BitVec 5) (p : BitVec 3) (i : BitVec 15) (k : BitVec 20),
    Does (.sel d a b p) s (s.putG d (if s.p p = true then s.g a else s.g b)) ∧
    Does (.addi d a i) s (s.putG d (s.g a + i.signExtend 64)) ∧
    Does (.andi d a i) s (s.putG d (s.g a &&& i.signExtend 64)) ∧
    Does (.ori d a i) s (s.putG d (s.g a ||| i.zeroExtend 64)) ∧
    Does (.xori d a i) s (s.putG d (s.g a ^^^ i.signExtend 64)) ∧
    Does (.li d k) s (s.putG d (k.signExtend 64)) ∧
    Does (.lih d k) s (s.putG d ((s.g d <<< 20) ||| k.zeroExtend 64)) ∧
    Does (.addpc d k) s (s.putG d ((s.pc + 2 * k.signExtend 64) &&& 0x00FFFFFFFFFFFFFF))

/-- R287: the ten conditions of `cmp` and `cmpi`, with the extension of the immediate, and R288: the predicate
operations. -/
def Obligations.Predicates : Prop :=
  ∀ (s : State),
    (∀ (p : BitVec 3) (a b : BitVec 5),
      Does (.cmp p a b 0) s (s.putP p (s.g a == s.g b)) ∧
      Does (.cmp p a b 1) s (s.putP p (s.g a != s.g b)) ∧
      Does (.cmp p a b 2) s (s.putP p ((s.g a).slt (s.g b))) ∧
      Does (.cmp p a b 3) s (s.putP p ((s.g a).sle (s.g b))) ∧
      Does (.cmp p a b 4) s (s.putP p ((s.g b).slt (s.g a))) ∧
      Does (.cmp p a b 5) s (s.putP p ((s.g b).sle (s.g a))) ∧
      Does (.cmp p a b 6) s (s.putP p ((s.g a).ult (s.g b))) ∧
      Does (.cmp p a b 7) s (s.putP p ((s.g a).ule (s.g b))) ∧
      Does (.cmp p a b 8) s (s.putP p ((s.g b).ult (s.g a))) ∧
      Does (.cmp p a b 9) s (s.putP p ((s.g b).ule (s.g a)))) ∧
    (∀ (p : BitVec 3) (a : BitVec 5) (c : BitVec 4) (i : BitVec 11),
      Does (.cmpi p a c i) s (s.putP p (condHolds c.toNat (s.g a)
        (if c.toNat < 6 then i.signExtend 64 else i.zeroExtend 64)))) ∧
    (∀ d a b : BitVec 3,
      Does (.pand d a b) s (s.putP d (s.p a && s.p b)) ∧
      Does (.por d a b) s (s.putP d (s.p a || s.p b)) ∧
      Does (.pxor d a b) s (s.putP d (s.p a != s.p b)) ∧
      Does (.pnot d a) s (s.putP d (!s.p a)))

/-- R289 to R293: a taken transfer makes the target, modulo 2 to the 56, the next instruction; a transfer that is not
taken goes on after it. `call` writes the return address to `g31`; `loop` tests the counter as it reads after the
decrement, so that `loop g0` always branches; `nop` does nothing. -/
def Obligations.Branches : Prop :=
  ∀ (s : State),
    (∀ (p : BitVec 3) (e : BitVec 1) (o : BitVec 21),
      Does (.b p e o) s (if s.p p = (e == 1) then s.jump ((s.pc + 2 * o.signExtend 64) &&& 0x00FFFFFFFFFFFFFF)
        else s.advance 4)) ∧
    (∀ o : BitVec 25,
      Does (.j o) s (s.jump ((s.pc + 2 * o.signExtend 64) &&& 0x00FFFFFFFFFFFFFF)) ∧
      Does (.call o) s ((s.setG 31 (s.pc + 4)).jump ((s.pc + 2 * o.signExtend 64) &&& 0x00FFFFFFFFFFFFFF))) ∧
    (∀ (r : BitVec 5) (o : BitVec 18),
      let t := (s.pc + 2 * o.signExtend 64) &&& 0x00FFFFFFFFFFFFFF
      (s.g r ≠ 1 → Does (.loop r o) s ((s.setG r (s.g r - 1)).jump t)) ∧
      (s.g r = 1 → Does (.loop r o) s ((s.setG r 0).advance 4)) ∧
      Does (.bz r o) s (if s.g r = 0 then s.jump t else s.advance 4) ∧
      Does (.bnz r o) s (if s.g r = 0 then s.advance 4 else s.jump t)) ∧
    Does .nop s (s.advance 4)

/-- R284: `sel` writes ga where its predicate holds 1, and gb otherwise; `p0` makes it a move of ga. Bits 9 to 7 of the word hold
the predicate, and the rule's example word decodes to its instruction. -/
def Obligations.SelectForm : Prop :=
  (∀ (s : State) (d a b : BitVec 5) (p : BitVec 3),
    Does (.sel d a b p) s (s.putG d (if s.p p = true then s.g a else s.g b)) ∧
    Does (.sel d a b 0) s (s.putG d (s.g a)) ∧
    decodeWord (2 ^ 26 + d.toNat * 2 ^ 21 + a.toNat * 2 ^ 16 + b.toNat * 2 ^ 11 + p.toNat * 2 ^ 7 + 0x18 * 2 + 1) =
      .ok (.sel d a b p)) ∧
  decodeWord 0x06D560B1 = .ok (.sel 22 21 12 1)

/-- R290: `b` goes to its target, modulo 2 to the 56, where its predicate equals its sense, and to pc + 4 otherwise. So sense 1 takes the
branch where the predicate holds 1 and sense 0 where it holds 0; with `p0` sense 1 is always taken and sense 0 never. The
offset reaches from -2^20 to 2^20 - 1 halfwords. The word is major 0x10 with pred in bits 25 to 23, the sense in bit 22 and
the offset in bits 21 to 1, and the rule's example word decodes to its instruction. -/
def Obligations.ConditionalBranch : Prop :=
  (∀ (s : State) (p : BitVec 3) (e : BitVec 1) (o : BitVec 21),
    let next := BitVec.ofInt 64 ((s.pc.toNat + 2 * o.toInt) % 2 ^ 56)
    Does (.b p e o) s (if s.p p = (e == 1) then s.jump next else s.advance 4) ∧
    Does (.b 0 1 o) s (s.jump next) ∧ Does (.b 0 0 o) s (s.advance 4) ∧
    (s.advance 4).pc = s.pc + 4 ∧ (s.jump next).pc = next ∧
    -2 ^ 20 ≤ o.toInt ∧ o.toInt ≤ 2 ^ 20 - 1 ∧
    decodeWord (0x10 * 2 ^ 26 + p.toNat * 2 ^ 23 + e.toNat * 2 ^ 22 + o.toNat * 2 + 1) = .ok (.b p e o)) ∧
  decodeWord 0x43800039 = .ok (.b 7 0 28)

/-- R292: a register jump to an even address below 2 to the 56 goes there, and `callr` writes the return address after
it has read its target, so that `callr lk` jumps to the old link. -/
def Sys2Proof.Claims.JumpTargets : Prop :=
  ∀ (s : State) (a : BitVec 5),
    ((s.g a).toNat < 2 ^ 56 → (s.g a).toNat % 2 = 0 →
      Does (.jr a) s (s.jump (s.g a)) ∧
      Does (.callr a) s ((s.setG 31 (s.pc + 4)).jump (s.g a))) ∧
    ((s.g 31).toNat < 2 ^ 56 → (s.g 31).toNat % 2 = 0 → Does .ret s (s.jump (s.g 31)))

/-- R292: where a target has a bit above bit 55 the register jump stops with RANGE_NONE and ADDR holds the target, else
where bit 0 is 1 it stops with MISALIGNED_TARGET; the stop is taken in the state before the jump, so that no link is
written. -/
def Sys2Proof.Claims.JumpStops : Prop :=
  ∀ (s : State) (a : BitVec 5),
    (2 ^ 56 ≤ (s.g a).toNat →
      Does (.jr a) s (s.stop ⟨.rangeNone, s.g a, 0, none, none⟩) ∧
      Does (.callr a) s (s.stop ⟨.rangeNone, s.g a, 0, none, none⟩)) ∧
    ((s.g a).toNat < 2 ^ 56 → (s.g a).toNat % 2 = 1 →
      Does (.jr a) s (s.stop ⟨.misalignedTarget, 0, 0, none, none⟩) ∧
      Does (.callr a) s (s.stop ⟨.misalignedTarget, 0, 0, none, none⟩)) ∧
    (2 ^ 56 ≤ (s.g 31).toNat → Does .ret s (s.stop ⟨.rangeNone, s.g 31, 0, none, none⟩)) ∧
    ((s.g 31).toNat < 2 ^ 56 → (s.g 31).toNat % 2 = 1 → Does .ret s (s.stop ⟨.misalignedTarget, 0, 0, none, none⟩))

/-- Each word of 32 bits has one meaning, or is refused by name (R256 to R260). -/
def Obligations.WordsHaveOneMeaning : Prop :=
  Claims.EncodeDecode ∧ Claims.ReservedEncodings

/-- A step runs the decoded instruction of the thread that the agenda names (R96, R228, R253), and performs the event
that it names. The agenda is the model's own (log 16), and that a step of the dies changes nothing without power, so that what
they held is kept, is its reading of R56 (log 42). -/
def Obligations.StepRuns : Prop :=
  Claims.StepRunsInstruction ∧ Claims.StepRunsEvent

/-- R292: where a register jump goes, and where it stops. -/
def Obligations.RegisterJumps : Prop :=
  Claims.JumpTargets ∧ Claims.JumpStops

/-! Loads, stores and atomics. -/

/-- Steps 2 to 5 of R295 pass for an access of n bytes at va by the current thread: it is aligned, it translates for
every kind in `kinds` under the entry e to the physical address pa, nothing holds it for speculation, and its blocks
are RESIDENT. The look-up leaves the state s'. -/
def Sys2Proof.Claims.Mapped (s : State) (va : Word) (n : Nat) (kinds : List Kind) (store held : Bool) (s' : State)
    (e : RangeEntry) (pa : Nat) : Prop :=
  va.toNat % n = 0 ∧ checkAccess s va n kinds store held = .ok (s', e, pa)

/-- R160, R161, R166, R296, R298: a volatile load is performed once at its home, after the thread's own earlier volatile
accesses and its earlier stores to that home, and zero-extends the little-endian bytes that the home holds there; a load
with acquire does the same, waits for the other volatile accesses only through a VOLATILE range, and then drops the lines of
the L1 that its scope names. The watch pairs of the home see it (R227), and use-once lines that it reads are consumed (R156).
That the L1 keeps no older copy of the line that is read past it, which R109 does not say, is the model's (log 51). -/
def Sys2Proof.Claims.LoadsAtHome : Prop :=
  ∀ (s s' : State) (d b : BitVec 5) (z : BitVec 2) (o : BitVec 8) (e : RangeEntry) (pa : Nat),
    let n := 2 ^ z.toNat
    let va := s.memAddr b o n
    let read (q : State) : State :=
      let a := q.forwarded va.toNat pa
      ((q.dropBoth q.cur.tile pa a).watched q.issuer .rd a n).consumeOnce a n
    let value (q : State) : Word := BitVec.ofNat 64 (readNat q.mem (q.forwarded va.toNat pa) n)
    let clean (q : State) : Prop := firstPoison q.poison (q.forwarded va.toNat pa) n = none
    (let q := s'.drainVol.drainAt va.toNat pa
     Mapped s va n [.read] false true s' e pa → clean q → Does (.ldVol d b z o) s ((read q).putG d (value q))) ∧
    (∀ (c : BitVec 4) (x : Sets), useScope s c = .ok x →
      let q := (if e.vol = true then s'.drainVol else s').drainAt va.toNat pa
      Mapped s va n [.read] false false s' e pa → clean q →
      Does (.ldAcq d b z c o) s (((read q).acquire x).putG d (value q)))

/-- R109, R110, R130, R296, R297: a plain load from the tile's own array, or through a VOLATILE range, where it is a
volatile access, reads the home; one that finds its line in the L1 returns the bytes that the L1 holds, whatever the home
holds; any other reads the home, and the line enters the L1 unless a unit of it is poisoned; of a read that a forward record
sends elsewhere it is the line of that other address, which the tile has read in the end (R140, R173). The model's own are
three points: a plain load is performed as it issues (log 16), the L1 keeps no older copy of a line that is read past it
(log 51), and a line with a poisoned unit is not taken in (log 73). -/
def Sys2Proof.Claims.PlainLoads : Prop :=
  ∀ (s s' : State) (d b : BitVec 5) (z : BitVec 2) (o : BitVec 8) (e : RangeEntry) (pa : Nat),
    let n := 2 ^ z.toNat
    let va := s.memAddr b o n
    let value (q : State) : Word := BitVec.ofNat 64 (readNat q.mem (q.forwarded va.toNat pa) n)
    let clean (q : State) : Prop := firstPoison q.poison (q.forwarded va.toNat pa) n = none
    let used (r : State) : State := r.consumeOnce (r.forwarded va.toNat pa) n
    Mapped s va n [.read] false false s' e pa →
    (let q := (if e.vol = true then s'.drainVol else s').drainAt va.toNat pa
     let a := q.forwarded va.toNat pa
     (ownArray s'.cur.tile pa = true ∨ e.vol = true) → clean q →
      Does (.ld d b z o) s ((used ((q.dropBoth q.cur.tile pa a).watched q.issuer .rd a n)).putG d (value q))) ∧
    (ownArray s'.cur.tile pa = false → e.vol = false →
      (∀ l, (s'.tile s'.cur.tile).l1Line pa = some l →
        Does (.ld d b z o) s (s'.putG d (BitVec.ofNat 64 (leNat (lineBytes l.data (pa % 128) n))))) ∧
      (let q := s'.drainAt va.toNat pa
       let a := q.forwarded va.toNat pa
       (s'.tile s'.cur.tile).l1Line pa = none → clean q →
        let f := if ownArray q.cur.tile a = true ∨ poisoned q.poison (a / 128 * 128) 128 = true then
            q.dropBoth q.cur.tile pa a
          else q.fillL1 q.cur.tile pa a
        Does (.ld d b z o) s ((used (f.watched f.issuer .rd a n)).putG d (value q))))

/-- A store of the current thread on its way to its home, with what it carries (R160, R165, R227). -/
def Sys2Proof.Claims.onItsWay (s : State) (va : Word) (pa : Nat) (bs : List Byte) (vol : Bool) (x : Option Sets) : State :=
  { s with inflight := s.inflight ++
      [⟨s.cur.tile, s.cur.thread, s.self.fibre, s.self.msgid, s.self.region, s.self.icnt, va.toNat, pa, bs, vol, x⟩] }

/-- What a store that has passed its checks does (R110, R161, R165, R166, R297): a volatile one waits for the thread's
earlier volatile accesses; the line that the tile's L1 holds is updated; a store to the tile's own array is performed before
the next instruction issues, while any other goes on its way to its home (log 16); the home is that of the address to which
a forward record sends the store (R140). That the L1 drops the line of that address, which R110 and R140 do not say, is the
model's (log 86). -/
def Sys2Proof.Claims.Stored (s : State) (va : Word) (pa : Nat) (bs : List Byte) (vol : Bool) (x : Option Sets)
    (t : State) : Prop :=
  let u := ((if vol = true then s.drainVol else s).updateL1 s.cur.tile pa bs).dropForwarded s.cur.tile va.toNat pa
  let own := ownArray u.cur.tile (u.forwarded va.toNat pa)
  (own = true → t = ((u.drainAt va.toNat pa).performStore u.issuer .wr va.toNat pa bs).advance 4) ∧
  (own = false → t = (onItsWay u va pa bs vol x).advance 4)

/-- R110, R130, R161, R165, R296, R297: a plain store updates the line that the tile's L1 holds. Where its home is the tile's
own array it is performed at once; any other goes on its way to its home. Through a VOLATILE range it is a volatile
access. -/
def Sys2Proof.Claims.PlainStores : Prop :=
  ∀ (s s' : State) (d b : BitVec 5) (z : BitVec 2) (o : BitVec 8) (e : RangeEntry) (pa : Nat),
    let n := 2 ^ z.toNat
    let va := s.memAddr b o n
    Mapped s va n [.write] true false s' e pa →
    ∃ t, Does (.st d b z o) s t ∧ Stored s' va pa (leBytes n (s'.g d).toNat) e.vol none t

/-- R160, R166, R172, R298: a volatile store goes on its way after the thread's earlier volatile accesses, and a store
with release after the thread's earlier stores to the homes of its scope, whose sets it captures. -/
def Sys2Proof.Claims.StoresAtHome : Prop :=
  ∀ (s s' : State) (d b : BitVec 5) (z : BitVec 2) (o : BitVec 8) (e : RangeEntry) (pa : Nat),
    let n := 2 ^ z.toNat
    let va := s.memAddr b o n
    (Mapped s va n [.write] true true s' e pa →
      ∃ t, Does (.stVol d b z o) s t ∧ Stored s' va pa (leBytes n (s'.g d).toNat) true none t) ∧
    (∀ (c : BitVec 4) (x : Sets), useScope s c = .ok x → Mapped s va n [.write] true false s' e pa →
      ∃ t, Does (.stRel d b z c o) s t ∧
        Stored (s'.release x) va pa (leBytes n (s'.g d).toNat) e.vol (some x) t)

/-- THE BYTES OF A STORE (R20, R160): a store that is performed writes its bytes from its physical address upward, as a
forward record sends it, and every byte of memory outside them reads as before. -/
def Obligations.StoreBytes : Prop :=
  ∀ (s : State) (x : Issuer) (k : WKind) (va pa : Nat) (bs : List Byte),
    let t := s.performStore x k va pa bs
    let a := s.forwarded va pa
    (∀ i (h : i < bs.length), readByte t.mem (a + i) = bs[i]) ∧ SameOutside s t a bs.length

/-- R299: a prefetch always completes, and writes no register; it neither faults nor waits. -/
def Sys2Proof.Claims.Prefetch : Prop :=
  ∀ (s : State) (b : BitVec 5) (o : BitVec 8), Does (.pref b o) s ((s.prefetch (s.memAddr b o 128)).advance 4)

/-- The home of an atomic at va, as the act finds it (R130, R177, R178, R300): the scope released, through a VOLATILE range
the thread's earlier volatile accesses performed, the thread's earlier stores to the home performed, and the tile's L1
without the line. -/
def Sys2Proof.Claims.atHome (s' : State) (x : Sets) (e : RangeEntry) (va : Word) (pa : Nat) : State :=
  let r := s'.release x
  let q := (if e.vol = true then r.drainVol else r).drainAt va.toNat pa
  q.dropBoth q.cur.tile pa (q.forwarded va.toNat pa)

/-- An atomic of n bytes at va passes its checks (R295, R300): its scope may be used, the address is aligned and maps for
reading and writing, and no byte of it is poisoned at its home. -/
def Sys2Proof.Claims.AtomicRuns (s : State) (va : Word) (n : Nat) (c : BitVec 4) (x : Sets) (s' : State) (e : RangeEntry)
    (pa : Nat) : Prop :=
  useScope s c = .ok x ∧ Mapped s va n [.read, .write] true false s' e pa ∧
    firstPoison (atHome s' x e va pa).poison ((atHome s' x e va pa).forwarded va.toNat pa) n = none

/-- The old value of an atomic: the n bytes at its home, little-endian. -/
def Sys2Proof.Claims.oldValue (s' : State) (x : Sets) (e : RangeEntry) (va : Word) (pa n : Nat) : Nat :=
  let q := atHome s' x e va pa
  readNat q.mem (q.forwarded va.toNat pa) n

/-- The state after an atomic has written a new value at its home (R177). -/
def Sys2Proof.Claims.newValue (s' : State) (x : Sets) (e : RangeEntry) (va : Word) (pa n v : Nat) : State :=
  let q := atHome s' x e va pa
  q.performStore q.issuer .amo va.toNat pa (leBytes n v)

/-- R177, R178, R300 to R302: an atomic whose checks pass reads the old value at its home, writes the new one in the same
act, returns the old one zero-extended, and acquires its scope at the end. The operand of the 4-byte forms is the low 32
bits of gb. -/
def Sys2Proof.Claims.AtomicForms : Prop :=
  ∀ (s s' : State) (d a b : BitVec 5) (c o : BitVec 4) (x : Sets) (e : RangeEntry) (pa : Nat),
    let va := s.g a
    let done (n : Nat) (f : Nat → Nat) : State :=
      let old := oldValue s' x e va pa n
      ((newValue s' x e va pa n (f old)).acquire x).putG d (BitVec.ofNat 64 old)
    let w := (s.g b).toNat % 2 ^ 32
    (AtomicRuns s va 8 c x s' e pa → Does (.amoD d a b c o) s (done 8 fun y => amoValue o.toNat 8 y (s.g b).toNat)) ∧
    (AtomicRuns s va 4 c x s' e pa →
      Does (.amoW d a b c o) s (done 4 fun y => amoValue o.toNat 4 y w) ∧
      Does (.amoFFp32 d a b c) s (done 4 fun y => add32 y w) ∧
      Does (.amoFBf16 d a b c) s (done 4 fun y => addBf16Pair y w))

/-- The new values of the nine integer atomics on words of n bits (R301): the sum modulo 2^n, and, or, exclusive or, the
smaller and the larger as signed numbers, whose sign is bit n - 1, the smaller and the larger as unsigned ones, and the
operand itself. -/
def Sys2Proof.Claims.AmoValues (n : Nat) (amo : Nat → Nat → Nat → Nat) : Prop :=
  ∀ x y : BitVec n,
    amo 0 x.toNat y.toNat = (x + y).toNat ∧
    amo 1 x.toNat y.toNat = (x &&& y).toNat ∧
    amo 2 x.toNat y.toNat = (x ||| y).toNat ∧
    amo 3 x.toNat y.toNat = (x ^^^ y).toNat ∧
    amo 4 x.toNat y.toNat = (if y.slt x then y else x).toNat ∧
    amo 5 x.toNat y.toNat = (if x.slt y then y else x).toNat ∧
    amo 6 x.toNat y.toNat = (if y.ult x then y else x).toNat ∧
    amo 7 x.toNat y.toNat = (if x.ult y then y else x).toNat ∧
    amo 8 x.toNat y.toNat = y.toNat

/-- R301: the new values of the integer atomics, by their op codes, of the 4-byte forms and of the 8-byte forms. -/
def Sys2Proof.Claims.AtomicValues : Prop :=
  AmoValues 32 (fun op => amoValue op 4) ∧ AmoValues 64 (fun op => amoValue op 8)

/-- R303: `cas` writes the low bytes of gb where the old value is the low bytes of gd, and nothing otherwise; `p7` says
which, and gd receives the old value in both cases. -/
def Sys2Proof.Claims.CompareAndSwap : Prop :=
  ∀ (s s' : State) (d a b : BitVec 5) (c : BitVec 4) (z : BitVec 1) (x : Sets) (e : RangeEntry) (pa : Nat),
    let n := if z = 0 then 4 else 8
    let va := s.g a
    let q := atHome s' x e va pa
    let w := q.forwarded va.toNat pa
    let old := oldValue s' x e va pa n
    AtomicRuns s va n c x s' e pa →
    (old = (s.g d).toNat % 2 ^ (8 * n) →
      Does (.cas d a b c z) s
        ((((newValue s' x e va pa n ((s.g b).toNat % 2 ^ (8 * n))).acquire x).setP 7 true).putG d (BitVec.ofNat 64 old))) ∧
    (old ≠ (s.g d).toNat % 2 ^ (8 * n) →
      Does (.cas d a b c z) s
        (((((q.watched q.issuer .amo w n).consumeOnce w n).acquire x).setP 7 false).putG d (BitVec.ofNat 64 old)))

/-- R295 steps 1 and 2: a load, a store, an atomic, a barrier form, a fence or a `sev` with a scope that is free or retired
stops with SCOPE_FREE or SCOPE_RETIRED, the address of the access in ADDR (zero where there is none) and the index in INFO.
A load, a store, an atomic or a barrier form with a scope that it may use, or with none, whose address is not a multiple of
its size stops with MISALIGNED at that address. Nothing is read or written. A `bar.init` whose count it turns away is
none of these, and a `bar.wait` that waits again has used its scope already. -/
def Obligations.AccessStops : Prop :=
  ∀ (s : State) (d a b : BitVec 5) (z : BitVec 2) (o : BitVec 8) (p : BitVec 4) (y : BitVec 1),
    let va := s.memAddr b o (2 ^ z.toNat)
    let count : Prop := s.g b ≠ 0 ∧ (s.g b).toNat < 2 ^ 24
    let waits : Prop := NotReclaimed s ∧ s.self.sends = [] ∧ s.self.captured = none
    let odd (i : Instr) (addr : Word) (n : Nat) : Prop :=
      addr.toNat % n ≠ 0 → Does i s (s.stop ⟨.misaligned, addr, 0, none, none⟩)
    odd (.ld d b z o) va (2 ^ z.toNat) ∧ odd (.st d b z o) va (2 ^ z.toNat) ∧
    odd (.ldVol d b z o) va (2 ^ z.toNat) ∧ odd (.stVol d b z o) va (2 ^ z.toNat) ∧
    (∀ (c : BitVec 4) (x : Sets), useScope s c = .ok x →
      odd (.ldAcq d b z c o) va (2 ^ z.toNat) ∧ odd (.stRel d b z c o) va (2 ^ z.toNat) ∧
      odd (.amoW d a b c p) (s.g a) 4 ∧ odd (.amoD d a b c p) (s.g a) 8 ∧
      odd (.amoFFp32 d a b c) (s.g a) 4 ∧ odd (.amoFBf16 d a b c) (s.g a) 4 ∧
      odd (.cas d a b c y) (s.g a) (if y = 0 then 4 else 8) ∧
      (count → odd (.barInit a b c) (s.g a) 8) ∧ odd (.barArrive a b c) (s.g a) 8 ∧
      (waits → odd (.barWait a b c) (s.g a) 8)) ∧
    (∀ c : BitVec 4, 2 ≤ c.toNat → c.toNat ≤ 13 →
      ∀ k, ((s.scopeCopy s.self.region c).state = 0 ∧ k = Cause.scopeFree ∨
          (s.scopeCopy s.self.region c).state = 2 ∧ k = Cause.scopeRetired) →
        let no (i : Instr) (addr : Word) : Prop := Does i s (s.stop ⟨k, addr, c.setWidth 64, none, none⟩)
        no (.ldAcq d b z c o) va ∧ no (.stRel d b z c o) va ∧
        no (.amoW d a b c p) (s.g a) ∧ no (.amoD d a b c p) (s.g a) ∧
        no (.amoFFp32 d a b c) (s.g a) ∧ no (.amoFBf16 d a b c) (s.g a) ∧ no (.cas d a b c y) (s.g a) ∧
        (count → no (.barInit a b c) (s.g a)) ∧ no (.barArrive a b c) (s.g a) ∧ (waits → no (.barWait a b c) (s.g a)) ∧
        no (.fence c) 0 ∧ no (.sev c) 0)

/-! Synchronisation. -/

/-- R172, R173, R176, R306: a fence releases and acquires its scope. R185, R308: `wfe` ends at once where the latch is
set, and clears it; `sev` releases its scope and sets the latches that the scope selects. R309: `tlread` returns
ISSUED. R311: `pause` holds the thread for the smaller of gb and 2 to the 20 cycles, and `pause` of 0 not at all. -/
def Sys2Proof.Claims.FenceForms : Prop :=
  ∀ (s : State),
    (∀ (c : BitVec 4) (x : Sets), useScope s c = .ok x →
      Does (.fence c) s (((s.release x).acquire x).advance 4) ∧
      (Confirmed s → Does (.sev c) s (((s.release x).setLatches s.self.region x).advance 4))) ∧
    (s.self.latch = true → Does .wfe s ((s.modSelf fun t => { t with latch := false }).advance 4)) ∧
    (∀ (d : BitVec 5) (c : BitVec 2), Does (.tlread d c) s (s.putG d (s.self.engine c).issued)) ∧
    (∀ b : BitVec 5,
      (s.g b = 0 → Does (.pause b) s (s.advance 4)) ∧
      (s.g b ≠ 0 → Does (.pause b) s ((s.advance 4).modSelf fun t =>
        { t with hold := .pause ((s.advance 4).cyc.toNat + min (s.g b).toNat (2 ^ 20)) })))

/-- R183, R307: `bar.init` writes a count of 1 to 2^24 - 1 as the word of a barrier in phase 0 with no arrival, and
sets `p7`; any other count writes 0 to `p7` and nothing else. An arrival in the barrier's phase counts one more; the
last one begins the next phase, modulo 2^16, with none; one that no count stops runs on into the phase (R24). That every
change of the word, and not the closing arrival alone, has the waiters read it again is the model's (R184; log 53). -/
def Sys2Proof.Claims.BarrierWords : Prop :=
  ∀ (s s' : State) (a b : BitVec 5) (c : BitVec 4) (x : Sets) (e : RangeEntry) (pa : Nat),
    ((s.g b = 0 ∨ 2 ^ 24 ≤ (s.g b).toNat) → Does (.barInit a b c) s (s.putP 7 false)) ∧
    (s.g b ≠ 0 → (s.g b).toNat < 2 ^ 24 → useScope s c = .ok x → Mapped s (s.g a) 8 [.write] true true s' e pa →
      let q := atHome s' x e (s.g a) pa
      Does (.barInit a b c) s (((newValue s' x e (s.g a) pa 8 (s.g b).toNat).wakeBarrier
        (q.forwarded (s.g a).toNat pa)).putP 7 true)) ∧
    (∀ n k f : Nat, n < 2 ^ 24 → k < n → f < 2 ^ 16 →
      let w := f * 2 ^ 48 + k * 2 ^ 24 + n
      arrived w f = some (if k + 1 = n then (f + 1) % 2 ^ 16 * 2 ^ 48 + n else f * 2 ^ 48 + (k + 1) * 2 ^ 24 + n) ∧
      (∀ g, g ≠ f → arrived w g = none)) ∧
    (∀ n f : Nat, 0 < n → n < 2 ^ 24 - 1 → f < 2 ^ 16 →
      arrived (f * 2 ^ 48 + (2 ^ 24 - 1) * 2 ^ 24 + n) f = some (f * 2 ^ 48 ||| 2 ^ 48 ||| n)) ∧
    (∀ f, arrived (f * 2 ^ 48) f = none)

/-- R183, R307: `bar.arrive` in the barrier's phase writes the word with one more arrival as an atomic at its home,
has the waiters read it again, and goes on: R183 wakes them at the closing arrival, R184 allows more, and the model does it
at each (log 53). R183, R184: `bar.wait` flushes the send buffer, reads the word at its home, and where the phase is another
than gb acquires the sets that it captured first, and goes on. That the tile's L1 keeps no copy of the line that `bar.wait`
reads is the model's (log 51). -/
def Sys2Proof.Claims.BarrierActs : Prop :=
  ∀ (s s' : State) (a b : BitVec 5) (c : BitVec 4) (x : Sets) (e : RangeEntry) (pa : Nat),
    let va := s.g a
    (let q := atHome s' x e va pa
     ∀ new u f, useScope s c = .ok x → Mapped s va 8 [.read, .write] true true s' e pa →
      firstPoison q.poison (q.forwarded va.toNat pa) 8 = none →
      arrived (oldValue s' x e va pa 8) ((s.g b).toNat % 2 ^ 16) = some new →
      let t := newValue s' x e va pa 8 new
      t.translate t.cur.tile t.self.region (t.lineage t.me) va 8 .read = .ok (u, f) →
      Does (.barArrive a b c) s ((t.wakeBarrier (t.forwarded va.toNat (f.phys va.toNat))).advance 4)) ∧
    (NotReclaimed s → s.self.sends = [] → s.self.captured = none → useScope s c = .ok x →
      Mapped s va 8 [.read] false true s' e pa →
      let q := (if e.vol = true then s'.drainVol else s').drainAt va.toNat pa
      let w := q.forwarded va.toNat pa
      firstPoison q.poison w 8 = none → readNat q.mem w 8 / 2 ^ 48 ≠ (s.g b).toNat % 2 ^ 16 →
      Does (.barWait a b c) s
        (((((q.dropBoth q.cur.tile pa w).watched q.issuer .rd w 8).consumeOnce w 8).acquire x).advance 4))

/-- R115, R309: `tlwait` on 0, on a number that has not been issued, or on one whose command and every earlier one have
finished, with an empty send buffer and no stop left behind for it, goes on and writes `p7`: 0 for a number not issued,
1 for 0, and otherwise whether the command completed, exactly for the last 128 numbers and by CANHI before them. -/
def Sys2Proof.Claims.TimelineWait : Prop :=
  ∀ (s : State) (b : BitVec 5) (c : BitVec 2),
    let n := (s.g b).toNat
    let e := s.self.engine c
    NotReclaimed s → s.self.sends = [] → (n = 0 ∨ e.issued.toNat < n ∨ n ≤ e.complete.toNat) →
    (∀ d ∈ s.self.deferred, ¬(d.ctx = c ∧ d.number.toNat ≤ n)) →
    Does (.tlwait b c) s (s.putP 7 (
      if e.issued.toNat < n then false
      else if n = 0 then true
      else if e.issued.toNat ≤ n + 127 then e.done.getLsbD (n % 128)
      else decide (e.canhi.toNat < n)))

/-- R167, R169, R310: `scope.get` of an index with fixed sets returns 1, and of any other index word 0 of its entry as
its home holds it. `scope.retire` makes a live entry retiring and writes 1 to `p7`, and does nothing to any other and
writes 0. That the tile's L1 keeps no copy of the line that `scope.get` reads is the model's (log 51). -/
def Sys2Proof.Claims.ScopeForms : Prop :=
  ∀ (s : State) (d : BitVec 5) (c : BitVec 4),
    ((c.toNat < 2 ∨ 14 ≤ c.toNat) → Does (.scopeGet d c) s (s.putG d 1)) ∧
    (2 ≤ c.toNat → c.toNat ≤ 13 →
      let pa := s.scopeEntry s.self.region c
      let q := s.drainHome pa
      Does (.scopeGet d c) s (((q.dropLine q.cur.tile pa).watched q.issuer .rd pa 8).putG d (BitVec.ofNat 64 (readNat q.mem pa 8)))) ∧
    (Confirmed s →
      let q := s.release setsDevice
      let x := q.scopeCopy q.self.region c
      (x.state ≠ 1 → Does (.scopeRetire c) s ((q.acquire setsDevice).putP 7 false)) ∧
      (x.state = 1 →
        let y : ScopeCopy := { x with state := 2 }
        Does (.scopeRetire c) s (((((q.setScopeCopy q.self.region c y).pokeNat
          (q.scopeEntry q.self.region c) 8 y.word0)).acquire setsDevice).putP 7 true)))

/-- R168, R169, R310: `scope.set` of a free entry from a descriptor of the layout of R168 makes it live with the next
generation, HOST, CMEM and the bitmaps that TILES and SPADS name, writes the entry at its home, and sets `p7`; an entry
that is not free stays as it is, and `p7` is 0. -/
def Sys2Proof.Claims.ScopeSet : Prop :=
  ∀ (s s1 s2 s3 s4 : State) (a : BitVec 5) (c : BitVec 4) (e : RangeEntry) (pa : Nat) (bs : List Byte)
    (tiles spads : BitVec 1024),
    let q := s.release setsDevice
    Mapped q (s.g a) 32 [.read] false true s1 e pa → loadSpan s1 (s.g a) e 32 = .ok (s2, bs) →
    scopeDescOk (wordAt bs 0) (wordAt bs 2) (wordAt bs 3) = true →
    readBitmap s2 (wordAt bs 2) = .ok (s3, tiles) →
    ((wordAt bs 3 = 0 ∧ s4 = s3 ∧ spads = 0) ∨ (wordAt bs 3 ≠ 0 ∧ readBitmap s3 (wordAt bs 3) = .ok (s4, spads))) →
    let r := s4.self.region
    ((s4.scopeCopy r c).state = 0 →
      Does (.scopeSet a c) s
        (((s4.scopeLive r c (bit (wordAt bs 0) 2) (wordAt bs 1) (wordAt bs 2) (wordAt bs 3) tiles spads).acquire
          setsDevice).putP 7 true)) ∧
    ((s4.scopeCopy r c).state ≠ 0 → Does (.scopeSet a c) s ((s4.acquire setsDevice).putP 7 false))

/-- Loads and the prefetch (R109, R110, R160, R161, R166, R294 to R299). That a load is performed as it issues is log 16, that a
read past the L1 drops its line there is log 51, and that a line with a poisoned unit is not taken in is log 73. -/
def Obligations.Loads : Prop :=
  Claims.PlainLoads ∧ Claims.LoadsAtHome ∧ Claims.Prefetch

/-- Stores (R110, R160, R161, R165, R166, R172, R296 to R298). That every store but one to the own array waits on its way is
log 16, and that the L1 drops the line of the address to which a forward record sends a store is log 86. -/
def Obligations.Stores : Prop :=
  Claims.PlainStores ∧ Claims.StoresAtHome

/-- Atomics (R177, R178, R300 to R303). -/
def Obligations.Atomics : Prop :=
  Claims.AtomicForms ∧ Claims.AtomicValues ∧ Claims.CompareAndSwap

/-- Fences, events, pauses and waits for commands (R115, R172 to R176, R185, R306, R308, R309, R311). -/
def Obligations.FencesAndEvents : Prop :=
  Claims.FenceForms ∧ Claims.TimelineWait

/-- Barriers (R183, R184, R307). That every change of the word has its waiters read it again is log 53, and that the L1 keeps no
copy of the line that `bar.wait` reads is log 51. -/
def Obligations.Barriers : Prop :=
  Claims.BarrierWords ∧ Claims.BarrierActs

/-- Scope forms (R167 to R169, R310). That the L1 keeps no copy of the line that `scope.get` reads is log 51. -/
def Obligations.Scopes : Prop :=
  Claims.ScopeForms ∧ Claims.ScopeSet

/-! Messages, fibres and futures. -/

/-- The issuing fibre is confirmed, or the fibre that a handle names lies in its own subtree, which R78 exempts. -/
def Sys2Proof.Claims.MayReach (s : State) (named : Bool) (h : Word) : Prop :=
  Confirmed s ∨ (named = true ∧ (s.fibre? h).isSome = true ∧ s.inSubtree s.me h = true)

/-- The payload of a send is empty, or its span maps for reading and its blocks are RESIDENT (R318); the checks leave the
state t. -/
def Sys2Proof.Claims.PayloadOk (s : State) (src len : Word) (t : State) : Prop :=
  (len = 0 ∧ t = s) ∨
    (len ≠ 0 ∧ ∃ e pa, checkMapped s src len.toNat [.read] = .ok (t, e, pa) ∧ checkResident t src e len.toNat = .ok ())

/-- R66, R78, R318, R326: a send with a good destination word, a payload of at most 4,096 bytes that is empty, or mapped
and RESIDENT, and a send scope that may be used, of a fibre that R78 does not hold, is appended to the send buffer with the
sets that its scope captured, and so is a decrement. Nothing leaves the tile yet. A 17th entry first flushes the sixteen.
A bad destination word or transform stops the send with SEND_INVALID, and a payload that is too long with PAYLOAD_LENGTH;
a decrement stops with HANDLE_INVALID, or with SEND_INVALID where its count is not from 1 to 65,535. -/
def Sys2Proof.Claims.Sends : Prop :=
  ∀ (s t u : State) (d a b : BitVec 5) (c : BitVec 4) (x : Sets),
    let dest := s.g d
    let len := s.g b
    let xf := s.g (pair b)
    let put (q : State) (y : SendEntry) : State := (q.modSelf fun t => { t with sends := t.sends ++ [y] }).advance 4
    let plain : SendEntry := ⟨dest, s.g (pair d), addr56 (s.g a), c, 0, len.setWidth 13, 0, x⟩
    let typed : SendEntry := ⟨dest, s.g (pair d), addr56 (s.g a), c, 1, len.setWidth 13, xf, x⟩
    let xfOk : Prop := xformOk xf = true ∧ (xKind xf = 5 → xParam xf % 4 = 0)
    let dec : SendEntry := ⟨s.g a, s.g b, 0, c, 2, 0, 0, x⟩
    (NotReclaimed s → s.destOk dest = true → len.toNat ≤ 4096 → useScope s c = .ok x → PayloadOk s (s.g a) len t →
      MayReach t (dMode dest == 1) (dFibre dest) →
      (t.self.sends.length < 16 → Does (.send d a b c) s (put t plain) ∧
        (xfOk → (xKind xf = 5 → len.toNat % 4 = 0) → Does (.sendT d a b c) s (put t typed))) ∧
      (16 ≤ t.self.sends.length → flush t = .ok u → Does (.send d a b c) s (put u plain) ∧
        (xfOk → (xKind xf = 5 → len.toNat % 4 = 0) → Does (.sendT d a b c) s (put u typed)))) ∧
    (NotReclaimed s →
      (s.destOk dest = false → Does (.send d a b c) s (s.stop ⟨.sendInvalid, 0, 0, none, none⟩) ∧
        Does (.sendT d a b c) s (s.stop ⟨.sendInvalid, 0, 0, none, none⟩)) ∧
      (s.destOk dest = true → 4096 < len.toNat → Does (.send d a b c) s (s.stop ⟨.payloadLength, 0, 0, none, none⟩)) ∧
      (s.destOk dest = true → ¬xfOk → Does (.sendT d a b c) s (s.stop ⟨.sendInvalid, 0, 0, none, none⟩)) ∧
      (s.destOk dest = true → xfOk → (4096 < len.toNat ∨ (xKind xf = 5 ∧ len.toNat % 4 ≠ 0)) →
        Does (.sendT d a b c) s (s.stop ⟨.payloadLength, 0, 0, none, none⟩))) ∧
    (let named := handleForm (s.g a) = true ∧ (hKind (s.g a) = 1 ∨ hKind (s.g a) = 2)
     let counts := 0 < (s.g b).toNat ∧ (s.g b).toNat < 2 ^ 16
     (named → counts → useScope s c = .ok x → MayReach s true (s.g a) →
       (s.self.sends.length < 16 → Does (.fibDec a b c) s (put s dec)) ∧
       (16 ≤ s.self.sends.length → flush s = .ok u → Does (.fibDec a b c) s (put u dec))) ∧
     (¬named → Does (.fibDec a b c) s (s.stop ⟨.handleInvalid, 0, 0, none, none⟩)) ∧
     (named → ¬counts → Does (.fibDec a b c) s (s.stop ⟨.sendInvalid, 0, 0, none, none⟩)))

/-- R66, R179, R219, R314, R319: a flush performs the entries of the send buffer in the order in which they were appended,
each leaving the buffer as it is performed, and ends at the first that stops. A send or `send.t` that is flushed releases
the sets of its scope, reads its payload at its homes, takes the tile's next message id, and puts one message on its way:
with its destination, argument, class, transform and scope, its payload as read, and the colour of its region unless it
goes to a peer device. A decrement that is flushed releases its scope, takes an id, and puts one decrement on its way. -/
def Sys2Proof.Claims.Flush : Prop :=
  (∀ s, s.self.sends = [] → flush s = .ok s) ∧
  (∀ s t, flush s = .ok t → t.self.sends = []) ∧
  (∀ s e r, s.self.sends = e :: r →
    (∀ t, flushEntry s e = .ok t → flush s = flush (t.modSelf fun x => { x with sends := x.sends.drop 1 })) ∧
    (∀ x, flushEntry s e = .error x → flush s = .error x)) ∧
  (∀ (s u : State) (e : SendEntry) (bs : List Byte),
    let q := s.release e.sets
    let tile := q.cur.tile
    let r := q.self.region
    e.type ≠ 2 → readPayload q e.src e.len.toNat = .ok (u, bs) →
    ∃ t, flushEntry s e = .ok t ∧ (t.tile tile).seq = (u.tile tile).seq + 1 ∧
      t.net = u.net ++ [⟨u.uids, .plain, mkMsgId (u.tile tile).seq tile u.hub.devnum, e.dest, e.arg, dClass e.dest, r,
        bs.length, bs, e.xform, some e.sets, if u.remote e.dest = true then none else some (u.cut tile r).colour⟩]) ∧
  (∀ (s : State) (e : SendEntry),
    let q := s.release e.sets
    let tile := q.cur.tile
    let r := q.self.region
    e.type = 2 →
    ∃ t, flushEntry s e = .ok t ∧ (t.tile tile).seq = (q.tile tile).seq + 1 ∧
      t.decs = q.decs ++ [⟨q.uids, e.dest, e.arg.toNat, r, tile, some e.sets, some (q.cut tile r).colour⟩])

/-- R65, R322, R323: `done` with no stop left behind and an empty send buffer ends the activation, after the releases of a
fibre that ends by it. `keep` marks the payload, if there is one, to be kept. -/
def Sys2Proof.Claims.DoneAndKeep : Prop :=
  ∀ (s : State),
    (NotReclaimed s → s.self.deferred = [] → s.self.sends = [] → Does .done s ((s.endRelease.advance 4).finish s.cur)) ∧
    Does .keep s ((s.modSelf fun t => { t with keeps := t.keeps || t.payLen != 0 }).advance 4)

/-- R81, R315, R324, R327: `spawn` with a good spawn word, a handler that is installed on the home tile, a budget that lasts
and a free slot there, and with room for the reference that the issuer takes, places a fibre with the word's flags and argument, held by the issuer unless DETACH is set,
makes it ready, and returns its future; `fib.new` places one that waits with its count as the word of its dependence
counter. Where the spawn is refused both return 0. -/
def Sys2Proof.Claims.Spawns : Prop :=
  ∀ (s u : State) (d a b : BitVec 5),
    let w := s.g a
    let home := swTile w
    let p := u.placeFibre home (u.childOf w (s.g (pair a)))
    let n := (s.g b).toNat
    w.toNat < 2 ^ 25 →
    (s.spawnRefused home (swHandler w) = true →
      Does (.spawn d a) s (s.putG d 0) ∧ (0 < n → n < 2 ^ 32 → Does (.fibNew d a b) s (s.putG d 0))) ∧
    (s.spawnRefused home (swHandler w) = false → needOwnBlock s (swDetach w) = .ok u →
      let t := if swDetach w = true then p.2 else p.2.hold p.2.me p.1
      Does (.spawn d a) s ((t.makeReady p.1 ⟨.first, swHandler w, 0, s.g (pair a), 0⟩).putG d p.1) ∧
      (0 < n → n < 2 ^ 32 →
        let pa := counterAt home (hSlot p.1)
        let q := (p.2.pokeNat pa 8 n).modFibre (fibreHandle p.1) fun f =>
          { f with depctr := BitVec.ofNat 64 pa, waitsCounter := true }
        let t := if swDetach w = true then q else q.hold q.me p.1
        Does (.fibNew d a b) s (t.putG d p.1)))

/-- R79 to R81, R325: `spawn.g` with good words and a scope that may be used launches a group of x times y times z
members over the tiles of the scope and returns its completion future, or returns 0 where the group is refused; the
issuer's reference needs room (R327). The counter, where one is named, is a word of the issuing tile's own array. The launch
of an empty group releases at its scope and makes the completion future and its reference, but no member; the future
resolves, with RESULT 0, at once where no counter waits, and otherwise as the counter reaches zero. -/
def Sys2Proof.Claims.GroupLaunch : Prop :=
  ∀ (s s' u : State) (d a b : BitVec 5) (c : BitVec 4) (x : Sets) (ctr : Option Nat),
    let w := s.g a
    let xyz := (s.g b).toNat
    let nx := xyz % 2 ^ 20
    let ny := xyz / 2 ^ 20 % 2 ^ 20
    let n := nx * ny * (xyz / 2 ^ 40 % 2 ^ 20)
    xyz < 2 ^ 60 → w.toNat < 2 ^ 15 → useScope s c = .ok x → groupCounter s (s.g (pair b)) = .ok (s', ctr) →
    (s'.groupRefused x.tileList (swHandler w) n = true → Does (.spawnG d a b c) s (s'.putG d 0)) ∧
    (s'.groupRefused x.tileList (swHandler w) n = false → needOwnBlock s' (swDetach w) = .ok u →
      let p := u.launch w (s.g (pair a)) c x ctr nx ny n
      Does (.spawnG d a b c) s (p.2.putG d p.1) ∧
      (n = 0 →
        let q := u.release x
        let waits := q.groupWaits ctr
        let g := q.placeGroup (q.groupFuture (swDetach w) (q.childOf w (s.g (pair a))).conf 0 c x ctr waits)
        let t := if swDetach w = true then g.2 else g.2.hold g.2.me g.1
        (waits = true → p = (g.1, t)) ∧ (waits = false → p = (g.1, t.closeEmpty g.1 (swDetach w))))) ∧
    (∀ (q : State) (g : Word) (f : Future), f.members = [] → f.gleft = 0 → f.fstat = .pending →
      let v := (q.modFuture g fun y => { y with released := true }).resolve g 0
      q.releaseGroup g f = (if f.detach = true then v.dropRef g else v).tryFree g)

/-- R71, R78, R327, R328: `fref` first records the reference with the issuer or with the fibre that gb names, once that fibre
has room for one more: in its last block, or in a free block of its home tile's slot store, which it takes; without room the
act waits. Then, to a live future below the limit of COUNT, it adds one unit; at the limit it waits, with the record in
place; to one that is not live it stops with FUTURE_STALE, and the record comes out again. `fdrop` by a holder ends one
unit. -/
def Sys2Proof.Claims.References : Prop :=
  ∀ (s u : State) (a b : BitVec 5) (y : Fibre),
    let fut := s.g a
    handleForm fut = true → hKind fut = 2 →
    (∀ holder, ((s.g b = 0 ∧ holder = s.me) ∨
        (s.g b ≠ 0 ∧ holder = s.g b ∧ handleForm holder = true ∧ hKind holder = 1)) →
      s.fibre? holder = some y → y.region = s.self.region → Confirmed s →
      (s.self.recording = none → s.roomForRef holder = none → Does (.fref a b) s (s.holdThread s.cur .retest)) ∧
      ((s.self.recording = none ∧ s.roomForRef holder = some u) ∨ (s.self.recording.isSome = true ∧ u = s) →
        let q := u.record holder fut
        (∀ f, s.liveFuture fut = some f →
          (f.count ≠ 2 ^ 24 - 1 → Does (.fref a b) s ((q.join holder fut).advance 4)) ∧
          (f.count = 2 ^ 24 - 1 → Does (.fref a b) s (q.holdThread q.cur .retest))) ∧
        (s.liveFuture fut = none →
          Does (.fref a b) s ((q.unrecord q.cur).stop ⟨.futureStale, 0, 0, none, none⟩)))) ∧
    (s.fibre? s.me = some y → y.refs.contains fut = true →
      Does (.fdrop a) s (((s.modSelf fun t =>
        { t with made := removeFirst (fun r => r = (s.me, fut)) t.made }).endRef s.me fut).advance 4))

/-- R70, R78, R329 to R331: `fconfirm` confirms a live future; `fput` to the activation's own future, while it runs,
resolves it with gb and sets `p7`, and otherwise writes 0 to `p7`; `fget` of a resolved future returns its result after
an acquire at `sc14` and sets `p7`, and of the activation's own unresolved future writes 0 to `p7`. -/
def Sys2Proof.Claims.Futures : Prop :=
  ∀ (s : State) (d a b : BitVec 5) (c : BitVec 4) (x : Sets) (f : Future),
    let fut := s.g a
    handleForm fut = true → hKind fut = 2 →
    (Confirmed s → s.liveFuture fut = some f → Does (.fconfirm a) s ((s.confirm fut).advance 4)) ∧
    (fut = futureHandle s.me → useScope s c = .ok x →
      (∀ g, (s.release x).future? fut = some g →
        (g.fstat = .running → Does (.fput a b c) s (((s.release x).resolve fut ((s.release x).g b)).putP 7 true)) ∧
        (g.fstat ≠ .running → Does (.fput a b c) s ((s.release x).putP 7 false)))) ∧
    (NotReclaimed s → s.self.sends = [] →
      (s.liveFuture fut = some f → s.future? fut = some f → f.fstat = .resolved →
        Does (.fget d a) s (((s.acquire setsDevice).setP 7 true).putG d f.result)) ∧
      (fut = futureHandle s.me → s.future? fut = some f → f.fstat ≠ .resolved → Does (.fget d a) s (s.putP 7 false)))

/-- R172: a release performs stores that are on their way, and writes no register of any thread, no fibre and no future:
what an instruction reads after its release is what it would have read before. -/
def Obligations.ReleaseKeepsRegisters : Prop :=
  ∀ (s : State) (x : Sets),
    (∀ y, (s.release x).thread y = s.thread y) ∧
    (∀ h, (s.release x).future? h = s.future? h ∧ (s.release x).fibre? h = s.fibre? h)

/-- R332: `fon` on a live future by a fibre that has no registered continuation, with a handler installed on the fibre's
tile, registers it; where the future has resolved the continuation receives its result. -/
def Sys2Proof.Claims.Continuations : Prop :=
  ∀ (s : State) (a b : BitVec 5) (f : Future) (y : Fibre),
    let fut := s.g a
    let h : BitVec 12 := (s.g b).setWidth 12
    NotReclaimed s → s.self.sends = [] → handleForm fut = true → hKind fut = 2 → (s.g b).toNat < 2 ^ 12 →
    s.installed s.self.region (hTile s.me) h = true → s.fibre? s.me = some y → y.cont = false →
    s.liveFuture fut = some f →
    let t := s.modFibre s.me fun f => { f with cont := true, conth := h, waitfut := fut, settled := none }
    ∀ g, t.liveFuture fut = some g →
      (g.fstat = .resolved → Does (.fon a b) s (((t.wakeWaiter fut s.me).modSelf fun t => { t with fons := true }).advance 4)) ∧
      (g.fstat ≠ .resolved → Does (.fon a b) s
        (((t.modFuture fut fun f => { f with waiters := f.waiters ++ [fibreHandle s.me] }).modSelf fun t =>
          { t with fons := true }).advance 4))

/-- Sends and decrements, and the flush of the send buffer (R66, R318, R319, R326). -/
def Obligations.BufferedSends : Prop :=
  Claims.Sends ∧ Claims.Flush

/-- Fibres and groups that an activation creates (R79 to R81, R315, R324, R325). -/
def Obligations.Launches : Prop :=
  Claims.Spawns ∧ Claims.GroupLaunch

/-- References, futures and continuations (R70, R71, R78, R327 to R332), and the end of an activation (R65, R322, R323). -/
def Obligations.FutureForms : Prop :=
  Claims.References ∧ Claims.Futures ∧ Claims.Continuations ∧ Claims.DoneAndKeep

/-! Vector instructions. -/

/-- The instruction of n bytes writes the vector register d under a mask with elements of a tag and nothing else: the
element j that the mask governs receives `f j`, the others keep their bits, and the tag is written (R234, R335). -/
def Sys2Proof.Claims.LaneWise (i : Instr) (s : State) (d : BitVec 5) (m : BitVec 3) (tag : BitVec 4) (n : Nat)
    (f : Nat → Nat) : Prop :=
  ∃ x : VWord, Does i s ((s.setV d x tag).advance n) ∧
    ∀ j, j < 2048 / tagWidth tag → elem (tagWidth tag) x j =
      if bit (s.m m) (j * tagWidth tag / 32) = true then f j % 2 ^ tagWidth tag else elem (tagWidth tag) (s.v d) j

/-- A tag is of a class that the arithmetic lane operations take: F, A, S or U (R334, R336). -/
def Sys2Proof.Claims.Arithmetic (tag : BitVec 4) : Prop :=
  tagClass tag = .f ∨ tagClass tag = .a ∨ tagClass tag = .s ∨ tagClass tag = .u

/-- THE FRAME of a write of a vector register: that register and its tag hold what was written, every other vector
register, every general register, predicate and mask is as before, the pc has moved on, and nothing else of the thread,
of its tile or of the module has changed, memory included. -/
def Sys2Proof.Claims.VectorWriteFrame : Prop :=
  ∀ (s : State) (d : BitVec 5) (x : VWord) (tag : BitVec 4) (n : Nat),
    let t := (s.setV d x tag).advance n
    (∀ r, t.v r = (if r = d then x else s.v r) ∧ t.vtag r = (if r = d then tag else s.vtag r)) ∧
    (∀ r, t.g r = s.g r) ∧ SameFlags s t ∧ t.pc = s.pc + BitVec.ofNat 64 n ∧ SameRest s.self t.self ∧
    SameElsewhere s t ∧ SameMemory s t

/-- THE FRAME of a write of a lane mask, as `vcmp` makes it (R341): that mask holds what was written unless it is `m0`, which
reads all ones; every other mask, every general register, predicate and vector register is as before, the pc has moved on,
and nothing else of the thread, of its tile or of the module has changed, memory included. -/
def Sys2Proof.Claims.MaskWriteFrame : Prop :=
  ∀ (s : State) (d : BitVec 3) (x : Word),
    let t := (s.setM d x).advance 4
    (∀ r, t.m r = if r = d ∧ d ≠ 0 then x else s.m r) ∧ (∀ r, t.g r = s.g r) ∧ (∀ r, t.p r = s.p r) ∧
    SameVectors s t ∧ t.pc = s.pc + 4 ∧ SameRest s.self t.self ∧ SameElsewhere s t ∧ SameMemory s t

/-- R255, R335 to R337: addition, subtraction, multiplication, maximum, minimum and fused multiply-add on the elements
of two registers whose tags agree and are of class F, A, S or U; the 16-bit forms take vd as the first source, under
`m0` or `m1`. -/
def Obligations.LaneArithmetic : Prop :=
  ∀ (s : State) (d a b : BitVec 5) (m : BitVec 3) (z : BitVec 1),
    let tag := s.vtag a
    let op (o : LaneOp) (x y : BitVec 5) (j : Nat) : Nat :=
      o.apply (s.vtag x) (elem (tagWidth (s.vtag x)) (s.v x) j) (elem (tagWidth (s.vtag x)) (s.v y) j)
        (elem (tagWidth (s.vtag x)) (s.v d) j)
    let short : BitVec 3 := if z = 1 then 1 else 0
    (Arithmetic tag → s.vtag b = tag →
      LaneWise (.vadd d a b m) s d m tag 4 (op .add a b) ∧
      LaneWise (.vsub d a b m) s d m tag 4 (op .sub a b) ∧
      LaneWise (.vmul d a b m) s d m tag 4 (op .mul a b) ∧
      LaneWise (.vmax d a b m) s d m tag 4 (op .max a b) ∧
      LaneWise (.vmin d a b m) s d m tag 4 (op .min a b) ∧
      (s.vtag d = tag → LaneWise (.vfma d a b m) s d m tag 4 (op .fma a b))) ∧
    (Arithmetic (s.vtag d) → s.vtag b = s.vtag d →
      LaneWise (.vadd16 d b z) s d short (s.vtag d) 2 (op .add d b) ∧
      LaneWise (.vsub16 d b z) s d short (s.vtag d) 2 (op .sub d b) ∧
      LaneWise (.vmul16 d b z) s d short (s.vtag d) 2 (op .mul d b) ∧
      LaneWise (.vmax16 d b z) s d short (s.vtag d) 2 (op .max d b) ∧
      LaneWise (.vmin16 d b z) s d short (s.vtag d) 2 (op .min d b))

/-- R255, R336: bitwise operations on two registers whose tags agree, shifts of class S, U or B by the element of the
second register, and R340: moves, magnitudes and negations. -/
def Obligations.LaneBitsAndShifts : Prop :=
  ∀ (s : State) (d a b : BitVec 5) (m : BitVec 3) (z : BitVec 1),
    let el (x : BitVec 5) (v : VWord) (j : Nat) : Nat := elem (tagWidth (s.vtag x)) v j
    let shifts (x : BitVec 5) : Prop := tagClass (s.vtag x) = .s ∨ tagClass (s.vtag x) = .u ∨ tagClass (s.vtag x) = .b
    let signed (x : BitVec 5) : Bool := decide (tagClass (s.vtag x) = .s)
    let signs (x : BitVec 5) : Prop := tagClass (s.vtag x) = .f ∨ tagClass (s.vtag x) = .a ∨ tagClass (s.vtag x) = .s
    let w (x : BitVec 5) : Nat := tagWidth (s.vtag x)
    let short : BitVec 3 := if z = 1 then 1 else 0
    (s.vtag b = s.vtag a →
      LaneWise (.vand d a b m) s d m (s.vtag a) 4 (el a (s.v a &&& s.v b)) ∧
      LaneWise (.vor d a b m) s d m (s.vtag a) 4 (el a (s.v a ||| s.v b)) ∧
      LaneWise (.vxor d a b m) s d m (s.vtag a) 4 (el a (s.v a ^^^ s.v b)) ∧
      (shifts a →
        LaneWise (.vshl d a b m) s d m (s.vtag a) 4 (fun j => laneShl (w a) (el a (s.v a) j) (el a (s.v b) j)) ∧
        LaneWise (.vshr d a b m) s d m (s.vtag a) 4
          (fun j => laneShr (signed a) (w a) (el a (s.v a) j) (el a (s.v b) j)))) ∧
    (s.vtag b = s.vtag d →
      LaneWise (.vand16 d b z) s d short (s.vtag d) 2 (el d (s.v d &&& s.v b)) ∧
      LaneWise (.vor16 d b z) s d short (s.vtag d) 2 (el d (s.v d ||| s.v b)) ∧
      LaneWise (.vxor16 d b z) s d short (s.vtag d) 2 (el d (s.v d ^^^ s.v b)) ∧
      (shifts d →
        LaneWise (.vshl16 d b z) s d short (s.vtag d) 2 (fun j => laneShl (w d) (el d (s.v d) j) (el d (s.v b) j)) ∧
        LaneWise (.vshr16 d b z) s d short (s.vtag d) 2
          (fun j => laneShr (signed d) (w d) (el d (s.v d) j) (el d (s.v b) j)))) ∧
    LaneWise (.vmov d a m) s d m (s.vtag a) 4 (el a (s.v a)) ∧
    LaneWise (.vmov16 d b z) s d short (s.vtag b) 2 (el b (s.v b)) ∧
    (signs a →
      LaneWise (.vabs d a m) s d m (s.vtag a) 4 (fun j => laneAbs (s.vtag a) (el a (s.v a) j)) ∧
      LaneWise (.vneg d a m) s d m (s.vtag a) 4 (fun j => laneNeg (s.vtag a) (el a (s.v a) j))) ∧
    (signs b →
      LaneWise (.vabs16 d b z) s d short (s.vtag b) 2 (fun j => laneAbs (s.vtag b) (el b (s.v b) j)) ∧
      LaneWise (.vneg16 d b z) s d short (s.vtag b) 2 (fun j => laneNeg (s.vtag b) (el b (s.v b) j)))

/-- R245, R255, R340: the functions on elements of a floating-point format of class F, correctly rounded in one of the
modes RNE, RTZ, RDN and RUP; the 16-bit forms round to the nearest, ties to even. -/
def Obligations.LaneFunctions : Prop :=
  ∀ (s : State) (d a : BitVec 5) (r m : BitVec 3) (z : BitVec 1) (mode : Mode) (fmt : Fmt),
    let w := tagWidth (s.vtag a)
    let fn (f : Val → Val × Bool) (k : Mode) (j : Nat) : Nat :=
      let q := f (fmt.value (elem w (s.v a) j))
      fmt.pack k q.1 q.2
    let short : BitVec 3 := if z = 1 then 1 else 0
    tagClass (s.vtag a) = .f → tagFmt (s.vtag a) = some fmt →
    (r.toNat < 4 → mode? r.toNat = some mode →
      LaneWise (.vexp2 d a r m) s d m (s.vtag a) 4 (fn Val.exp2 mode) ∧
      LaneWise (.vlog2 d a r m) s d m (s.vtag a) 4 (fn Val.log2 mode) ∧
      LaneWise (.vrcp d a r m) s d m (s.vtag a) 4 (fn Val.rcp mode) ∧
      LaneWise (.vrsqrt d a r m) s d m (s.vtag a) 4 (fn Val.rsqrt mode)) ∧
    LaneWise (.vexp216 d a z) s d short (s.vtag a) 2 (fn Val.exp2 .rne) ∧
    LaneWise (.vrcp16 d a z) s d short (s.vtag a) 2 (fn Val.rcp .rne) ∧
    LaneWise (.vrsqrt16 d a z) s d short (s.vtag a) 2 (fn Val.rsqrt .rne)

/-- R338, R339, R343, R344: `vsel` writes every element, from va where the mask bit is 1 and from vb elsewhere; `vperm`
writes the container of va that the index names, or 0 where it names none; `vbcast` writes the low bits of ga to every
element; `viota` writes j to element j; `vlane` reads and `vins` writes one element. -/
def Obligations.LaneMoves : Prop :=
  ∀ (s : State) (d a b : BitVec 5) (m : BitVec 3) (f : BitVec 4) (i : BitVec 5) (k : BitVec 4),
    let tag := s.vtag a
    let w := tagWidth tag
    let n := k.toNat * 32 + i.toNat
    (s.vtag b = tag → ∃ x, Does (.vsel d a b m) s ((s.setV d x tag).advance 4) ∧
      ∀ j, j < 2048 / w → elem w x j = if bit (s.m m) (j * w / 32) = true then elem w (s.v a) j else elem w (s.v b) j) ∧
    (s.vtag b = tagIndex → ∃ x, Does (.vperm d a b m) s ((s.setV d x tag).advance 4) ∧
      let c := if w = 64 then 64 else 32
      ∀ j, j < 2048 / c → elem c x j =
        if bit (s.m m) (j * c / 32) = true then
          if elem 32 (s.v b) j < 2048 / c then elem c (s.v a) (elem 32 (s.v b) j) else 0
        else elem c (s.v d) j) ∧
    (∃ x, Does (.vbcast d a f) s ((s.setV d x f).advance 4) ∧
      ∀ j, j < 2048 / tagWidth f → elem (tagWidth f) x j = scalarBits f (s.g a)) ∧
    ((tagClass f = .f ∨ tagClass f = .s ∨ tagClass f = .u) →
      ∃ x, Does (.viota d f) s ((s.setV d x f).advance 4) ∧
        ∀ j, j < 2048 / tagWidth f → elem (tagWidth f) x j = (match tagFmt f with
          | some fmt => fmt.pack .rne (Val.ofInt j)
          | none => j) % 2 ^ tagWidth f) ∧
    (n < 2048 / w → Does (.vlane d a i k) s (s.putG d (BitVec.ofNat 64 (elem w (s.v a) n)))) ∧
    (n < 2048 / tagWidth (s.vtag d) → ∃ x, Does (.vins d a i k) s ((s.setV d x (s.vtag d)).advance 4) ∧
      ∀ j, j < 2048 / tagWidth (s.vtag d) → elem (tagWidth (s.vtag d)) x j =
        if j = n then scalarBits (s.vtag d) (s.g a) else elem (tagWidth (s.vtag d)) (s.v d) j)

/-- R244, R341, R342: `vcmp` writes 1 to the mask bits that are active and whose elements all meet the condition; the
reductions combine the elements that the mask governs, with the identity in the place of the others, in the tree of
R244, and write element 0 and zeros above it. -/
def Obligations.ComparesAndReductions : Prop :=
  ∀ (s : State) (d a b : BitVec 5) (e m c : BitVec 3),
    let tag := s.vtag a
    let w := tagWidth tag
    Arithmetic tag →
    (s.vtag b = tag → ∃ x : Word, Does (.vcmp e a b m c) s ((s.setM e x).advance 4) ∧
      ∀ i, i < 64 → bit x i = (bit (s.m m) i && (governedBy w i).all fun j =>
        laneCompare c.toNat tag (elem w (s.v a) j) (elem w (s.v b) j))) ∧
    (let put (o : RedOp) : State :=
      let l := (List.range (2048 / w)).map fun j =>
        if bit (s.m m) (j * w / 32) = true then elem w (s.v a) j else o.identity tag
      (s.setV d (ofElems w [o.reduce tag l]) tag).advance 4
    Does (.vredAdd d a m) s (put .add) ∧ Does (.vredMax d a m) s (put .max) ∧ Does (.vredMin d a m) s (put .min))

/-- R246, R345 to R349: `vscale` multiplies by the E8M0 scale of each 32 elements; `vrope` rotates pairs; `vrng` writes
64 words of the generator with consecutive counters; `vcvt` converts every element of a tag, and only retags where the
target is RAW or the source is RAW with the format of the tag. -/
def Obligations.ScaleRotateConvert : Prop :=
  ∀ (s : State) (d a b : BitVec 5) (m : BitVec 3) (t : BitVec 4) (z : BitVec 2) (k : BitVec 3) (o : BitVec 1)
      (r : BitVec 5) (fmt : Fmt) (mode : Mode),
    let tag := s.vtag a
    let w := tagWidth tag
    (tagClass tag = .f → tagFmt tag = some fmt → s.vtag b = tagE8m0 →
      LaneWise (.vscale d a b m) s d m tag 4 (fun j => laneScale fmt (elem w (s.v a) j) (elem 8 (s.v b) (j / 32)))) ∧
    ((tag = 1 ∨ tag = 2) →
      let x := (s.g b).toNat
      LaneWise (.vrope d a b m) s d m tag 4 (fun j =>
        (rope (if tag = 1 then fp32 else bf16) (x / 2 ^ 8 % 2 ^ 8 + 1) (signedOf 24 (x / 2 ^ 16 % 2 ^ 24))
          (elems w (s.v a)))[j]?.getD 0)) ∧
    (∃ x, Does (.vrng d a b) s ((s.setV d x tagIndex).advance 4) ∧
      ∀ i, i < 64 → elem 32 x i = gen (s.g a).toNat (((s.g b).toNat + i) % 2 ^ 64) % 2 ^ 32) ∧
    (t ≠ tagMask → mode? k.toNat = some mode → (z = 0 ∨ tag = 0) → (tag ≠ tagMask ∨ t = 0) →
      (mode = .sr → s.vtag r = tagIndex ∨ s.vtag r = 0) →
      ((t = 0 ∨ (tag = 0 ∧ z = 0)) → Does (.vcvt d a t z k o r) s ((s.setV d (s.v a) t).advance 4)) ∧
      (t ≠ 0 → ¬(tag = 0 ∧ z = 0) →
        Does (.vcvt d a t z k o r) s
          ((s.setV d (convertReg tag z.toNat t mode (decide (o = 1)) (s.v a) (s.v r)) t).advance 4)))

/-- R295, R335, R350 to R354: the vector loads and stores. Every active address is judged before any element is
performed; a load fills the active bytes of vd and gives it its tag; a store writes the active elements of vd. `vld`
and `vst` need an address that is a multiple of 32 and take units of 4 bytes, or 8 for a tag of 64 bits; `vlds` takes
elements at a stride; `vgath` and `vscat` take the offsets of a register with tag INDEX; `vldt` takes the rows that have an
active element, each once, in the order in which the first ones come. That the part of a
vector store in one line goes on its way as one access (`joinStores`) is the model's choice (log 16). -/
def Obligations.VectorMemory : Prop :=
  ∀ (s s1 s2 : State) (d a b : BitVec 5) (f : BitVec 4) (m : BitVec 3) (l : List (ElemAccess × RangeEntry))
      (bs : List (Nat × List Byte)) (k : List (ElemAccess × RangeEntry)),
    let unit (tag : BitVec 4) : Nat := if tagWidth tag = 64 then 8 else 4
    let line (tag : BitVec 4) : List ElemAccess :=
      (activeUnits (tagWidth tag) (s.m m)).map fun i =>
        ⟨i * unit tag, s.g a + BitVec.ofNat 64 (i * unit tag), unit tag⟩
    let filled (q : State) : State :=
      (q.setV d (vofBytes (patchBytes (vbytes (q.v d)) (clearAcc48 f bs))) f).advance 4
    ((s.g a).toNat % 32 = 0 → judge false (line f) s = .ok (s1, l) → loadUnits l s1 = .ok (s2, bs, k) →
      Does (.vld d a f m) s (filled (consumeUnits k s2))) ∧
    ((s.g a).toNat % 32 = 0 → judge true (line (s.vtag d)) s = .ok (s1, l) →
      Does (.vst d a m) s
        (((joinStores (vbytes (s1.v d)) l).foldl (fun q p => storeSpan q p.1 p.2.1 p.2.2) s1).advance 4)) ∧
    (tagWidth f ≠ 4 →
      judge false (((List.range (2048 / tagWidth f)).filter fun j => governed (s.m m) (tagWidth f) j).map fun j =>
        ⟨j * (tagWidth f / 8), s.g a + BitVec.ofNat 64 j * s.g b, tagWidth f / 8⟩) s = .ok (s1, l) →
      loadUnits l s1 = .ok (s2, bs, k) → Does (.vlds d a b f m) s (filled (consumeUnits k s2))) ∧
    (s.vtag b = tagIndex → judge false (indexedUnits s a b m (tagWidth f)) s = .ok (s1, l) →
      loadUnits l s1 = .ok (s2, bs, k) → Does (.vgath d a b f m) s (filled (consumeUnits k s2))) ∧
    (s.vtag b = tagIndex → judge true (indexedUnits s a b m (tagWidth (s.vtag d))) s = .ok (s1, l) →
      Does (.vscat d a b m) s ((storeUnits (vbytes (s1.v d)) l s1).advance 4)) ∧
    ((s.g a).toNat % 32 = 0 → (s.g b).toNat % 32 = 0 →
      judge false ((activeRows (s.m m) (tagWidth f)).map fun r => ⟨r, s.g a + BitVec.ofNat 64 r * s.g b, 32⟩) s =
        .ok (s1, l) →
      loadUnits l s1 = .ok (s2, bs, k) →
      let q := consumeUnits k s2
      Does (.vldt d a b f m) s (q.putV d (q.m m) f
        ((transposeRows (tagWidth f) bs (elems (tagWidth f) (q.v d))).map fun x =>
          if f = tagAcc48 then x % 2 ^ 48 else x) 4)) ∧
    (∀ (mask : Word) (w r : Nat), (activeRows mask w).Nodup ∧
      (r ∈ activeRows mask w ↔ ∃ j, j < 2048 / w ∧ governed mask w j = true ∧ j % 8 = r))

/-- THE FRAMES of the writes of a general register, of a predicate, of a lane mask and of a vector register: that register
and the pc, and nothing else of the thread, of its tile or of the module. -/
def Obligations.WriteFrames : Prop :=
  Claims.RegisterWriteFrame ∧ Claims.PredicateWriteFrame ∧ Claims.MaskWriteFrame ∧ Claims.VectorWriteFrame

/-! Engine commands at issue. -/

/-- A command of a context may issue: the fibre is not to be reclaimed, and the scoreboard of the tile and the context
have room (R73, R114, R117). -/
def Sys2Proof.Claims.CommandIssues (s : State) (c : BitVec 2) : Prop := NotReclaimed s ∧ s.hasRoom s.cur c = true

/-- R114, R117, R180: a command that issues is entered last in the tile's scoreboard, and ISSUED of its context is one
more; the other contexts' counts are as before, and so are the general registers, predicates, lane masks, vector registers
and tile registers' shapes of the thread, with their tags, and its pc; and none of the thread's earlier stores is still on
its way. -/
def Obligations.CommandEntry : Prop :=
  ∀ (s : State) (c : Cmd),
    let t := s.enterCmd c
    (t.tile s.cur.tile).cmds = (s.tile s.cur.tile).cmds ++ [c] ∧
    (t.self.engine c.ctx).issued = (s.self.engine c.ctx).issued + 1 ∧
    (∀ x, x ≠ c.ctx → t.self.engine x = s.self.engine x) ∧
    (∀ r, t.g r = s.g r) ∧ SameFlags s t ∧ SameVectors s t ∧
    (∀ r, t.self.rttag r = s.self.rttag r ∧ t.self.rshape r = s.self.rshape r) ∧ t.pc = s.pc ∧
    (∀ a ∈ t.inflight, ¬(a.tile = s.cur.tile ∧ a.thread = s.cur.thread))

/-- R355 to R363: the tile and matrix commands issue where the carve-out provides their registers, their operands are
aligned, lie in the issuing tile's scratchpad and translate, and the tags and shapes are those that they take; `tld`
and `tld.t` set the tag and the shape of their register at issue. -/
def Sys2Proof.Claims.MatrixCommands : Prop :=
  ∀ (s q : State) (d a b k : BitVec 4) (acc : BitVec 2) (g v e : BitVec 5) (x : Span),
    let t := s.tile s.cur.tile
    CommandIssues s ctxMatrix →
    (∀ f : BitVec 4, f ≠ tagAcc48 → f ≠ tagMask → d.toNat < t.tregs.toNat → (s.g g).toNat % 128 = 0 →
      matrixOperand s (s.g g) 16384 .read = .ok (q, x) →
      let go (i : Instr) : State := ((q.enterCmd { q.newCmd i ctxMatrix with
        opa := s.g g, tags := [f], reads := ownIntervals q.cur.tile [x], writes := [q.treg d] }).modSelf fun t =>
          t.wtile d f (BitVec.ofNat 32 (127 + 1024 / tagWidth f * 2 ^ 8))).advance 4
      Does (.tld d g f) s (go (.tld d g f)) ∧ Does (.tldT d g f) s (go (.tldT d g f))) ∧
    (d.toNat < t.tregs.toNat → (s.g g).toNat % 128 = 0 → matrixOperand s (s.g g) 16384 .write = .ok (q, x) →
      (Confirmed q ∨ q.mayWrite x.entry = true) →
      Does (.tst d g) s ((q.enterCmd { q.newCmd (.tst d g) ctxMatrix with
        opa := s.g g, reads := [q.treg d], writes := ownIntervals q.cur.tile [x] }).advance 4)) ∧
    (acc.toNat < t.accs.toNat → a.toNat < t.tregs.toNat → b.toNat < t.tregs.toNat →
      (checkMma s a b none = .ok () →
        Does (.mma acc a b) s ((s.enterCmd { s.newCmd (.mma acc a b) ctxMatrix with
          tags := [s.self.rttag a, s.self.rttag b], writes := [s.acc acc], reads := [s.treg a, s.treg b] }).advance 4)) ∧
      (k.toNat < t.tregs.toNat → checkMma s a b (some k) = .ok () →
        Does (.mmaS acc a b k) s ((s.enterCmd { s.newCmd (.mmaS acc a b k) ctxMatrix with
          tags := [s.self.rttag a, s.self.rttag b], writes := [s.acc acc],
          reads := [s.treg a, s.treg b, s.treg k] }).advance 4))) ∧
    (acc.toNat < t.accs.toNat →
      Does (.azero acc) s ((s.enterCmd { s.newCmd (.azero acc) ctxMatrix with writes := [s.acc acc] }).advance 4) ∧
      ((s.g e).toNat < 2 ^ 9 →
        Does (.arow v acc e) s ((s.enterCmd { s.newCmd (.arow v acc e) ctxMatrix with
          opb := s.g e, reads := [s.acc acc], vdst := some v }).advance 4)) ∧
      ((s.g g).toNat % 128 = 0 → matrixOperand s (s.g g) 98304 .read = .ok (q, x) →
        Does (.ald acc g) s ((q.enterCmd { q.newCmd (.ald acc g) ctxMatrix with
          opa := s.g g, reads := ownIntervals q.cur.tile [x], writes := [q.acc acc] }).advance 4)) ∧
      ((s.g g).toNat % 128 = 0 → matrixOperand s (s.g g) 98304 .write = .ok (q, x) →
        (Confirmed q ∨ q.mayWrite x.entry = true) →
        Does (.ast acc g) s ((q.enterCmd { q.newCmd (.ast acc g) ctxMatrix with
          opa := s.g g, reads := [q.acc acc], writes := ownIntervals q.cur.tile [x] }).advance 4)))

/-- R361: what `mma` and `mma.s` check, in the terms of the tags and shapes of the tile registers: both sources carry a
tag that the form takes, and the same one unless one is E4M3 and the other E5M2; the scale register of `mma.s` is E8M0
with 128 columns; every register has 128 rows, and the two sources have as many columns. -/
def Sys2Proof.Claims.MultiplyChecks : Prop :=
  ∀ (s : State) (a b : BitVec 4) (k : Option (BitVec 4)),
    let x := s.self.rttag a
    let y := s.self.rttag b
    let rows (r : BitVec 4) : Nat := (s.self.rshape r).toNat % 2 ^ 8
    let cols (r : BitVec 4) : Nat := (s.self.rshape r).toNat / 2 ^ 8 % 2 ^ 9
    let takes : List (BitVec 4) := match k with
      | some _ => [4, 5, 6]
      | none => [2, 3, 4, 5, 6, 8, 9]
    (checkMma s a b k = .ok () ↔
      x ∈ takes ∧ y ∈ takes ∧ (x = y ∨ (x = 4 ∧ y = 5) ∨ (x = 5 ∧ y = 4)) ∧ rows a = 127 ∧ rows b = 127 ∧
      cols a = cols b ∧ ∀ r, k = some r → s.self.rttag r = 7 ∧ rows r = 127 ∧ cols r = 128)

/-- R78, R106, R116, R117, R119, R374, R375, R387 to R391, R394 to R396: the copy commands issue where their lengths are below
2^32, every byte of their operands translates, and no speculation holds them; a `cpy.t` enters every byte that it may write
as its footprint; the gather and the scatter take a descriptor of 64 bytes, and a `scat` of an unconfirmed fibre issues where
every piece that it would write may be written; `rmove` takes a range of the region that is neither SHARED nor moving
already, whose images R106 lets a copy read and write, enters both as its footprint, and writes 1 to `p7`, and writes 0
without a command where the range is SHARED or moving; `wptr` reads the word of a copy channel. -/
def Obligations.CopyCommands : Prop :=
  ∀ (s s1 s2 : State) (d a b : BitVec 5) (c : BitVec 4) (x : Sets) (src dst : List Span),
    let n := s.g b
    let open' := CommandIssues s ctxCopy
    (∀ h : BitVec 2, Does (.wptr d h) s (s.putG d ((s.tile s.cur.tile).channel h).word)) ∧
    (open' → n.toNat < 2 ^ 32 → operand s (s.g a) n.toNat .read = .ok (s1, src) →
      (operand s1 (s1.g d) n.toNat .write = .ok (s2, dst) → checkWrites s2 dst = .ok () →
        Does (.cpy d a b) s ((s2.enterCmd { s2.newCmd (.cpy d a b) ctxCopy with
          opd := s2.g d, opa := s2.g a, opb := n, reads := ownIntervals s2.cur.tile src,
          writes := ownIntervals s2.cur.tile dst }).advance 4)) ∧
      (let w := s.g (pair b)
       xformOk w = true → xKind w ≠ 5 → operand s1 (s1.g d) (outputLength w n.toNat) .write = .ok (s2, dst) →
        checkWrites s2 dst = .ok () →
        Does (.cpyT d a b) s ((s2.enterCmd { s2.newCmd (.cpyT d a b) ctxCopy with
          opd := s2.g d, opa := s2.g a, opb := n, opb1 := w, reads := ownIntervals s2.cur.tile src,
          writes := ownIntervals s2.cur.tile (s2.writesSeen (s2.g d) (outputBound w n.toNat)) }).advance 4)) ∧
      (useScope s c = .ok x → localOperand s1 (s1.g d) n.toNat .write = .ok (s2, dst) → Confirmed s2 →
        Does (.cpyMc d a b c) s ((s2.enterCmd { s2.newCmd (.cpyMc d a b c) ctxCopy with
          opd := s2.g d, opa := s2.g a, opb := n, sets := some x, reads := ownIntervals s2.cur.tile src,
          writes := ownIntervals s2.cur.tile dst }).advance 4)) ∧
      (∀ k : BitVec 2, (k ≠ 0 ∨ d = 0) →
        operand s1 (s1.g d) (if k = 0 then 0 else outputLength (k.setWidth 64) n.toNat) .write = .ok (s2, dst) →
        (∀ y ∈ dst, y.pa < hbmEnd) → Confirmed s2 →
        Does (.promo d a b k) s ((s2.enterCmd { s2.newCmd (.promo d a b k) ctxCopy with
          opd := s2.g d, opa := s2.g a, opb := n, opb1 := k.setWidth 64,
          reads := ownIntervals s2.cur.tile src }).advance 4)) ∧
      (Confirmed s1 → Does (.evict a b) s ((s1.enterCmd { s1.newCmd (.evict a b) ctxCopy with
        opa := s.g a, opb := n }).advance 4))) ∧
    (∀ (s3 : State) (desc : List Byte) (area list : List Span), open' → readDesc s (s.g a) = .ok (s1, desc) →
      gsForm desc = true →
      (localOperand s1 (s1.g d) (gsCount desc * gsElem desc) .write = .ok (s2, area) →
        localOperand s2 (gsIdx desc) (8 * gsCount desc) .read = .ok (s3, list) → checkWrites s3 area = .ok () →
        Does (.gath d a) s ((s3.enterCmd { s3.newCmd (.gath d a) ctxCopy with
          opd := s3.g d, opa := s3.g a, desc := desc, reads := ownIntervals s3.cur.tile list,
          writes := ownIntervals s3.cur.tile area }).advance 4)) ∧
      (localOperand s1 (s1.g d) (gsCount desc * gsElem desc) .read = .ok (s2, area) →
        localOperand s2 (gsIdx desc) (8 * gsCount desc) .read = .ok (s3, list) →
        (Confirmed s3 ∨ ∀ y ∈ s3.scatTargets desc (list.flatMap fun x => s3.peek x.pa x.len), s3.mayWrite y.entry = true) →
        Does (.scat d a) s ((s3.enterCmd { s3.newCmd (.scat d a) ctxCopy with
          opd := s3.g d, opa := s3.g a, desc := desc, reads := ownIntervals s3.cur.tile (area ++ list) }).advance 4))) ∧
    (∀ l : Leaf, open' → useScope s c = .ok x → (s.g a).toNat < 2 ^ 56 → s.leafAt s.self.region (s.g a).toNat = some l →
      l.entry.moveOk (s.g b) = true → s.moveAccess l.entry (s.g b) = .ok () → Confirmed s →
      (l.entry.shared = false → l.entry.forwarding = false →
        Does (.rmove a b c) s ((s.enterCmd { s.newCmd (.rmove a b c) ctxCopy with
          opa := s.g a, opb := s.g b, sets := some x, reads := moveIntervals s.cur.tile l.entry l.entry.offset,
          writes := moveIntervals s.cur.tile l.entry (s.g b) }).putP 7 true)) ∧
      ((l.entry.shared = true ∨ l.entry.forwarding = true) → Does (.rmove a b c) s (s.putP 7 false)))

/-- R375, R377, R378: a draw command issues where its descriptor is in form for it, its logit format is one that it
takes, its areas translate, its output lies in the issuing tile's scratchpad, and no speculation
holds it; `accept` in mode 2 reads a block at issue whose mask address is not 0. -/
def Obligations.DrawCommands : Prop :=
  ∀ (s s1 s2 s3 s4 : State) (d a : BitVec 5) (desc block : List Byte) (src dst : List Span),
    let ready (f : DrawForm) : Prop :=
      CommandIssues s ctxDraw ∧ readDesc s (s.g a) = .ok (s1, desc) ∧ dwForm f desc = true ∧
      (f = .rng ∨ logitTag (dwTag desc) = true) ∧
      (f.twoStage desc = true → dwXaddr desc ≠ 0 ∧ dwMaddr desc = 0 ∧ (dwXaddr desc).toNat % 64 = 0) ∧
      (f.residual desc = true → dwXaddr desc ≠ 0) ∧
      readAreas (f.areas desc) s1 = .ok (s2, src) ∧
      localOperand s2 (s2.g d) (f.outBytes desc) .write = .ok (s3, dst) ∧
      ((¬(f = .accept ∧ dwMode desc = 2) ∧ s4 = s3) ∨
        (f = .accept ∧ dwMode desc = 2 ∧ loadChecked s3 (dwXaddr desc) 64 64 = .ok (s4, block) ∧
          (wordAt block 3).toNat % 2 ^ 56 ≠ 0)) ∧
      checkWrites s4 dst = .ok ()
    let go (i : Instr) : State := (s4.enterCmd { s4.newCmd i ctxDraw with
      opa := s.g a, opd := s4.g d, desc := desc, reads := ownIntervals s4.cur.tile src,
      writes := ownIntervals s4.cur.tile dst }).advance 4
    (ready .rng → Does (.rng d a) s (go (.rng d a))) ∧
    (ready .topk → Does (.topk d a) s (go (.topk d a))) ∧
    (ready .gmask → Does (.gmask d a) s (go (.gmask d a))) ∧
    (ready .draw → Does (.draw d a) s (go (.draw d a))) ∧
    (ready .drawv → Does (.drawv d a) s (go (.drawv d a))) ∧
    (ready .accept → Does (.accept d a) s (go (.accept d a)))

/-- R235, R375, R386, R392, R393: the exchange commands issue where their scope may be used, their descriptor is in form and
names a format that they take, and their operands lie in the issuing tile's scratchpad and translate, and the fibre is
confirmed. A `coll` with the scope and SEQ of an unfinished one of its tile finishes cancelled alone as it issues. -/
def Obligations.ExchangeCommands : Prop :=
  ∀ (s s1 s2 s3 : State) (d a : BitVec 5) (c : BitVec 4) (x : Sets) (desc : List Byte) (src dst : List Span),
    CommandIssues s ctxExchange → useScope s c = .ok x → readDesc s (s.g a) = .ok (s1, desc) →
    (rtForm desc = true → logitTag (rtTag desc) = true → readAreas (rtAreas desc) s1 = .ok (s2, src) →
      localOperand s2 (s2.g d) (8 * rtTokens desc * rtRanks desc) .write = .ok (s3, dst) → Confirmed s3 →
      Does (.route d a c) s ((s3.enterCmd { s3.newCmd (.route d a c) ctxExchange with
        opa := s.g a, opd := s3.g d, opb1 := BitVec.ofNat 64 (nb s3.privileged), desc := desc, sets := some x,
        reads := ownIntervals s3.cur.tile src, writes := ownIntervals s3.cur.tile dst }).advance 4)) ∧
    (collForm desc = true → collFormat desc = true → localOperand s1 (collSrc desc) (collBytes desc) .read = .ok (s2, src) →
      localOperand s2 (collDst desc) (collOut desc x.tileList.length) .write = .ok (s3, dst) → Confirmed s3 →
      let new : Cmd := { s3.newCmd (.coll a c) ctxExchange with
        opa := s3.g a, desc := desc, sets := some x, reads := ownIntervals s3.cur.tile src,
        writes := ownIntervals s3.cur.tile dst }
      ((∀ e ∈ (s3.tile s3.cur.tile).cmds, new.isColl e = false) → Does (.coll a c) s ((s3.enterCmd new).advance 4)) ∧
      ((∃ e ∈ (s3.tile s3.cur.tile).cmds, new.isColl e = true) →
        Does (.coll a c) s (((s3.enterCmd new).finishCmd s3.cur.tile new false).advance 4))) ∧
    (∀ (s4 s5 s6 : State) (held fwd rcv l m : List Span), ringForm desc = true →
      localOperand s1 (ringHeld desc) (ringBytes desc) .write = .ok (s2, held) →
      localOperand s2 (ringHeld desc) (ringBytes desc) .read = .ok (s3, l) →
      localOperand s3 (ringFwd desc) (ringBytes desc) .read = .ok (s4, fwd) →
      localOperand s4 (ringRcv desc) (ringBytes desc) .write = .ok (s5, rcv) →
      localOperand s5 (ringRcv desc) (ringBytes desc) .read = .ok (s6, m) → Confirmed s6 →
      Does (.ring a c) s ((s6.enterCmd { s6.newCmd (.ring a c) ctxExchange with
        opa := s6.g a, desc := desc, sets := some x, reads := ownIntervals s6.cur.tile (held ++ fwd ++ rcv),
        writes := ownIntervals s6.cur.tile (held ++ rcv) }).advance 4))

/-! Contexts and attention. -/

/-- R131, R154, R170, R193, R195, R368 to R373: an append whose layer is in range, whose key and value translate, that the
context's home judges good, and whose accesses to the slab translate and reach RESIDENT blocks, is performed, with the sets
that its scope captured first where it waited before (that a poisoned metadata word of a later position counts as its bits
stand for VALID is the model's choice, log 63); an attention command over an open context takes its snapshot as it issues,
after an acquire of its scope; `attn.fin` issues over a row and an output of the tile (that its footprint is that of the
largest D is the model's choice, log 92). -/
def Obligations.AppendsAndAttention : Prop :=
  ∀ (s s1 s2 s3 s4 s5 : State) (d a b : BitVec 5) (c : BitVec 4) (x : Sets) (cx : Nat),
    let h := s.g a
    (∀ (key val : List Byte) (u : State × AppendSpans) (y : AppendSpans),
      let w := (s.g b).toNat
      h.toNat < 2 ^ 56 → (s.self.captured = some x ∨ (s.self.captured = none ∧ useScope s c = .ok x)) →
      openCtx s h .write = .ok (s1, cx) →
      w / 2 ^ 32 % 2 ^ 7 ≤ s1.clayers cx → w < 2 ^ 39 →
      loadChecked s1 (s1.g d) (s1.rowK cx) 32 = .ok (s2, key) →
      loadChecked s2 (s1.g (pair d)) (s1.rowV cx) 32 = .ok (s3, val) → checkSlab s1 cx = .ok () →
      judgeAppend s1 cx h (w % 2 ^ 32) x = .ok () →
      appendReady s1 cx (w % 2 ^ 32) (w / 2 ^ 32 % 2 ^ 7) = .ok u →
      appendReady s3 cx (w % 2 ^ 32) (w / 2 ^ 32 % 2 ^ 7) = .ok (s4, y) →
      Does (.kvapp d a b c) s
        ((s4.append cx (w % 2 ^ 32) ((s.g (pair b)).toNat % 2 ^ 32) y key val x).advance 4)) ∧
    (∀ (desc : List Byte) (q y z : Span),
      CommandIssues s ctxMatrix → h.toNat < 2 ^ 56 → useScope s c = .ok x → openCtx s h .read = .ok (s1, cx) →
      readDesc s1 (s.g b) = .ok (s2, desc) → atForm desc = true → atLayer desc ≤ s2.clayers cx →
      atHead desc ≤ s2.kvh cx → (atQaddr desc).toNat % 16 = 0 → (atSaddr desc).toNat % 16 = 0 →
      matrixOperand s2 (atQaddr desc) (atRows desc * 4 * s2.cdim cx) .read = .ok (s3, q) →
      matrixOperand s3 (atSaddr desc) (atRows desc * rowSize (s3.cdim cx)) .write = .ok (s4, y) →
      ((atInit desc = true ∧ s5 = s4) ∨ (atInit desc = false ∧
        matrixOperand s4 (atSaddr desc) (atRows desc * rowSize (s4.cdim cx)) .read = .ok (s5, z))) →
      (Confirmed s5 ∨ s5.mayWrite y.entry = true) → s5.fstart cx (s5.topFrame cx) ≤ atQpos desc →
      let r := (s5.acquire x).joinEpoch cx
      Does (.attn a b c) s ((r.enterCmd { r.newCmd (.attn a b c) ctxMatrix with
        opa := s.g b, opd := h, opb1 := BitVec.ofNat 64 cx, desc := desc, sets := some x,
        snapshot := some (r.snapshotOf cx),
        reads := ownIntervals r.cur.tile (if atInit desc = true then [q] else [q, y]),
        writes := ownIntervals r.cur.tile [y] }).advance 4)) ∧
    (∀ y z : Span,
      let wide (l : List (Nat × Nat)) (n : Nat) : List (Nat × Nat) := l.map fun i => (i.1, i.1 + n)
      CommandIssues s ctxMatrix → (s.g a).toNat % 16 = 0 → (s.g d).toNat % 16 = 0 →
      matrixOperand s (s.g a) 16 .read = .ok (s1, y) → matrixOperand s1 (s.g d) 64 .write = .ok (s2, z) →
      (Confirmed s2 ∨ s2.mayWrite z.entry = true) →
      Does (.attnFin d a) s ((s2.enterCmd { s2.newCmd (.attnFin d a) ctxMatrix with
        opa := s.g a, opd := s.g d, p7dst := true, reads := wide (ownIntervals s2.cur.tile [y]) (rowSize 256),
        writes := wide (ownIntervals s2.cur.tile [z]) 1024 }).advance 4))

/-- R187 to R190, R327, R364, R366, R367: binding a fibre to a context, where its reference blocks have room for a first
binding, and unbinding it; pushing a frame below the limit of 16 where every token that is reserved is valid; recording an
argument span and the end of the prologue of a top frame that is not shared; and the ten values of `finfo`. That `ctx.bind`
of the null handle is not held for an unconfirmed fibre, as no context is named, is the model's reading of R78 (log 31); that
FID of a new frame is PFID, as R189 gives it, and not zero, is its reading of R189 and R190 (log 95). -/
def Sys2Proof.Claims.FrameActs : Prop :=
  ∀ (s q u : State) (d a b : BitVec 5) (cx : Nat),
    let h := s.g a
    (h = 0 → Does (.ctxBind a) s ((s.acqrel14 fun s => s.unbind s.me).advance 4)) ∧
    (h ≠ 0 → h.toNat < 2 ^ 56 → openCtx s h .read = .ok (q, cx) → checkSlab q cx = .ok () →
      ((q.boundHandle ≠ 0 ∧ u = q) ∨ (q.boundHandle = 0 ∧ needBlock q q.me = .ok u)) →
      Does (.ctxBind a) s ((u.acqrel14 fun s => if s.boundHandle = h then s else s.bindTo h cx).advance 4)) ∧
    (h.toNat < 2 ^ 56 → openCtx s h .write = .ok (q, cx) → checkSlab q cx = .ok () →
      (q.cstate cx ≠ 2 → q.cstate cx ≠ 3 → q.cdepth cx < 16 → q.cvalid cx = q.ccursor cx →
        Does (.fpush a) s ((q.acqrel14 fun s => s.pushFrame cx).advance 4)) ∧
      (let k := q.topFrame cx
       let start := (s.g b).toNat
       let len := (s.g (pair b)).toNat
       q.fseal cx k = 0 → q.spanOk cx k start len = true →
        Does (.farg a b) s ((q.acqrel14 fun s =>
          (s.pokeNat (cx + 8 * frameWord k (2 + s.fnarg cx k)) 8 (start + len * 2 ^ 32)).setCx cx (frameWord k 1) 2 0
            (s.fnarg cx k + 1)).advance 4)) ∧
      (let k := q.topFrame cx
       let n := q.ccursor cx - q.fstart cx k
       q.fseal cx k = 0 → q.fproset cx k = 0 → n ≤ 65535 →
        Does (.fpro a) s ((q.acqrel14 fun s =>
          (s.setCx cx (frameWord k 0) 47 32 n).setCx cx (frameWord k 1) 4 4 1).advance 4))) ∧
    (∀ k : BitVec 4,
      (k.toNat < 7 → h.toNat < 2 ^ 56 → openCtx s h .read = .ok (q, cx) →
        Does (.finfo d a k) s ((q.acquire setsDevice).putG d (q.ctxInfo cx k.toNat))) ∧
      (7 ≤ k.toNat → k.toNat < 10 → a = 0 →
        Does (.finfo d a k) s ((s.acquire setsDevice).putG d (s.fibreInfo k.toNat))))

/-- R131, R154, R196, R197, R202: a pop of a top frame that is neither the first nor shared, with a result span of the frame,
no other reader, every reserved token valid, and every access to the slab translated and its block RESIDENT, moves the result
below the frame and publishes, as one read of the use-once lines of its old places (R156), poison and all (that poison stops no
move is the model's choice, log 96); a fork seals the frames and returns the child's handle, or the null handle where it is
refused, and waits where the store room must be compacted first, to be judged again afterwards (R157 names a compaction for
GROW; log 10). -/
def Sys2Proof.Claims.PopsAndForks : Prop :=
  ∀ (s q : State) (d a b : BitVec 5) (cx : Nat),
    let h := s.g a
    h.toNat < 2 ^ 56 → openCtx s h .write = .ok (q, cx) → checkSlab q cx = .ok () → q.cvalid cx = q.ccursor cx →
    q.cstate cx ≠ 2 →
    (∀ q1 q2 : State,
      let k := q.topFrame cx
      let rs := (s.g b).toNat
      let rl := (s.g (pair b)).toNat
      q.cdepth cx ≠ 1 → q.seald cx ≤ k → q.fseal cx k = 0 → q.fstart cx k ≤ rs → rs + rl ≤ q.ccursor cx →
      rl ≤ 2 ^ 20 → q.otherReaders cx = 0 →
      (let layers := List.range (q.clayers cx + 1)
       needSlab q [.read] ((List.range rl).flatMap fun i => q.tokenSpans cx (rs + i) layers) = .ok q1 ∧
       needSlab q1 [.write] ((List.range rl).flatMap fun i => q1.tokenSpans cx (q.fstart cx k + i) layers) = .ok q2) →
      Does (.fpop a b) s ((q2.acqrel14 fun s => (s.moveTokens cx (k - 1) rs (q.fstart cx k) rl).publishPop cx k
        rl).advance 4)) ∧
    (q.chain cx ≠ 15 →
      let p := ((q.release setsDevice).sealFrames cx).forkCtx cx h
      (∀ child t, p = .ok (child, t) → Does (.ffork d a) s ((t.acquire setsDevice).putG d child)) ∧
      (∀ t, p = .error t → Does (.ffork d a) s (t.holdThread t.cur .retest)))

/-- The tile and matrix commands at issue (R355 to R363). -/
def Obligations.MatrixForms : Prop :=
  Claims.MatrixCommands ∧ Claims.MultiplyChecks

/-- The forms over contexts and their frames (R187 to R190, R196, R197, R202, R364 to R367). That
an unconfirmed fibre that binds the null handle is not held is log 31, that a fork which needs a compaction is held and
tested again is log 10, and what a fork refuses beyond R202 is log 43 and log 83. -/
def Obligations.ContextForms : Prop :=
  Claims.FrameActs ∧ Claims.PopsAndForks

/-! Ranges. -/

/-- R135, R138, R143, R397 to R402, R404: `rprobe` never faults: where an entry covers the address it returns its probe
word and writes 1 to `p7`, and otherwise it returns 0 and writes 0. `rsplit` and `rmerge` act between a release and an
acquire at `sc14` and say in `p7` whether they changed the tree, and wait where the room that they need takes a compaction;
`rinv` drops the entries that cover the address over the tiles of its scope, and completes when no access that one of them
translated is under way;
`rcompact` asks a die that has no compaction under way for a run of 2^k blocks. -/
def Sys2Proof.Claims.RangeActs : Prop :=
  ∀ (s : State) (d a b : BitVec 5) (c : BitVec 4) (x : Sets),
    (2 ^ 56 ≤ (s.g a).toNat → Does (.rprobe d a) s ((s.setP 7 false).putG d 0)) ∧
    ((s.g a).toNat < 2 ^ 56 →
      (∀ q e, s.lookup s.cur.tile s.self.region (s.g a).toNat = .ok (q, e) →
        Does (.rprobe d a) s ((q.setP 7 true).putG d (q.probeWord e (s.g a).toNat))) ∧
      (∀ k q, s.lookup s.cur.tile s.self.region (s.g a).toNat = .error (k, q) →
        Does (.rprobe d a) s ((q.setP 7 false).putG d 0))) ∧
    (Confirmed s →
      let q := s.release setsDevice
      let va := (s.g a).toNat
      let split := q.splitRange q.self.region va
      let merge := q.mergeRanges q.self.region va
      (∀ t, split = .ok t → Does (.rsplit a) s ((t.acquire setsDevice).putP 7 true)) ∧
      (split = .error none → Does (.rsplit a) s
        (((if q.canSplit q.self.region va = true then q.refuseNode else q).acquire setsDevice).putP 7 false)) ∧
      (∀ t, split = .error (some t) → Does (.rsplit a) s (t.holdThread t.cur .retest)) ∧
      (∀ t, merge = .ok t → Does (.rmerge a) s ((t.acquire setsDevice).putP 7 true)) ∧
      (merge = .error none → Does (.rmerge a) s
        (((if q.canMerge q.self.region va = true then q.refuseNode else q).acquire setsDevice).putP 7 false)) ∧
      (∀ t, merge = .error (some t) → Does (.rmerge a) s (t.holdThread t.cur .retest)) ∧
      ((s.self.captured = some x ∨ (s.self.captured = none ∧ useScope s c = .ok x)) →
        let tree := s.treeOf s.self.region
        let r := s.release x
        let u := r.dropThose tree x s.cur.tile fun e => e.covers va
        (r.pagesBusy tree x (fun e => e.covers va) = false → Does (.rinv a c) s ((u.acquire x).advance 4)) ∧
        (r.pagesBusy tree x (fun e => e.covers va) = true → Does (.rinv a c) s
          ((u.modSelf fun t => { t with captured := some x }).holdThread u.cur .retest))) ∧
      (Privileged s → (s.g a).toNat < 4 → (s.g b).toNat ≤ 16 →
        let die : BitVec 2 := (s.g a).setWidth 2
        ((s.die die).compact = none → Does (.rcompact a b) s
          ((s.modDie die fun y => { y with compact := some ((s.g b).setWidth 5) }).putP 7 true)) ∧
        ((s.die die).compact ≠ none → Does (.rcompact a b) s (s.putP 7 false))))

/-- R404: a confirmed fibre in a system handler that asks with `rcompact` for a run of 2^k blocks of die u(ga) starts the
compaction and writes 1 to `p7`, or writes 0 to `p7` where one is already running on that die; a die above 3 and a k above 16 stop
with RESERVED_FIELD. -/
def Obligations.CompactionRequest : Prop :=
  ∀ (s : State) (a b : BitVec 5), Confirmed s → Privileged s →
    ((s.g a).toNat ≤ 3 → (s.g b).toNat ≤ 16 →
      let die : BitVec 2 := (s.g a).setWidth 2
      ((s.die die).compact = none → Does (.rcompact a b) s
        ((s.modDie die fun y => { y with compact := some ((s.g b).setWidth 5) }).putP 7 true)) ∧
      ((s.die die).compact ≠ none → Does (.rcompact a b) s (s.putP 7 false))) ∧
    (3 < (s.g a).toNat ∨ 16 < (s.g b).toNat → Does (.rcompact a b) s (s.stop ⟨.reservedField, 0, 0, none, none⟩))

/-- R129, R132, R401: `rset` of an image in form, which overlaps no other entry than the one that it replaces or removes,
acts between a release and an acquire at `sc14` and says in `p7` whether it did, or waits where the room that it needs takes
a compaction; an image out of form stops it with RESERVED_FIELD and one that overlaps another with RANGE_OVERLAP. R397: `pin` and `unpin` of no byte, or
through an entry that is not TIERED, write 1 to `p7` and change nothing else but the tile's table; through a TIERED
entry they write whether every block could be counted. That the low bits of an image and the order of its VBASE and
LIMIT are judged as RESERVED_FIELD is the model's reading (log 20), and so is the judgement of a removal for overlap (log 21). -/
def Sys2Proof.Claims.RangeSetAndPin : Prop :=
  ∀ (s s1 : State) (a b : BitVec 5) (bs : List Byte) (e : RangeEntry),
    Confirmed s →
    (let q := s.release setsDevice
     let f := entryOfBytes bs
     loadChecked q (q.g a) 64 64 = .ok (s1, bs) →
      ((rsetForm bs = false ∨ f.allowed = false) → Does (.rset a) s (s1.stop ⟨.reservedField, 0, 0, none, none⟩)) ∧
      (rsetForm bs = true → f.allowed = true →
        (s1.overlapsOther s1.self.region f = true → Does (.rset a) s (s1.stop ⟨.rangeOverlap, 0, 0, none, none⟩)) ∧
        (s1.overlapsOther s1.self.region f = false →
          (∀ t, s1.rsetAct s1.self.region f = .ok t → Does (.rset a) s ((t.acquire setsDevice).putP 7 true)) ∧
          (s1.rsetAct s1.self.region f = .error none → Does (.rset a) s
            (((if s1.canSet s1.self.region f = true then s1.refuseNode else s1).acquire setsDevice).putP 7 false)) ∧
          (∀ t, s1.rsetAct s1.self.region f = .error (some t) → Does (.rset a) s (t.holdThread t.cur .retest))))) ∧
    (s.g b = 0 → Does (.pin a b) s (s.putP 7 true) ∧ Does (.unpin a b) s (s.putP 7 true)) ∧
    (s.g b ≠ 0 → (s.g b).toNat < 2 ^ 32 →
      s.translate s.cur.tile s.self.region (s.lineage s.me) (s.g a) (s.g b).toNat .read = .ok (s1, e) → Confirmed s1 →
      (e.tiered = false → Does (.pin a b) s (s1.putP 7 true) ∧ Does (.unpin a b) s (s1.putP 7 true)) ∧
      (e.tiered = true →
        let l := blocksOf (s.g a).toNat (s.g b).toNat
        let p := s1.pinBlocks true s1.self.region e [] l
        let u := s1.pinBlocks false s1.self.region e [] l
        Does (.pin a b) s (p.1.putP 7 p.2) ∧ Does (.unpin a b) s (u.1.putP 7 u.2)))

/-! System forms, and how an activation stops. -/

/-- R408: the system registers by number, for a privileged activation. CYC, TIME, ID, WHERE, NISTAT and CARVE read as
they are, each die's SRCTL and SRSTAT by the die's number, HOSTSIG and RGNCTL as 0. A number that the table does not
list stops with SYSREG_INVALID. -/
def Sys2Proof.Claims.SystemReads : Prop :=
  ∀ (s : State) (d n m : BitVec 5), Privileged s →
    let k := n.toNat * 32 + m.toNat
    (k = 0 → Does (.sysr d n m) s (s.putG d s.cyc)) ∧
    (k = 1 → Does (.sysr d n m) s (s.putG d s.time)) ∧
    (k = 2 → Does (.sysr d n m) s (s.putG d s.hub.idWord)) ∧
    (k = 3 → Does (.sysr d n m) s (s.putG d (BitVec.ofNat 64
      (s.cur.tile.toNat + s.cur.thread.toNat * 2 ^ 10 + s.self.region.toNat * 2 ^ 13)))) ∧
    (k = 4 → Does (.sysr d n m) s (s.putG d (s.tile s.cur.tile).nistat)) ∧
    (k = 5 → Does (.sysr d n m) s (s.putG d (s.tile s.cur.tile).carveWord)) ∧
    (∀ i : BitVec 2, k = 8 + i.toNat → Does (.sysr d n m) s (s.putG d (s.die i).srctl)) ∧
    (∀ i : BitVec 2, k = 12 + i.toNat → Does (.sysr d n m) s (s.putG d (s.die i).srstat)) ∧
    (k = 16 ∨ k = 17 → Does (.sysr d n m) s (s.putG d 0)) ∧
    (k = 6 ∨ k = 7 ∨ 17 < k → Does (.sysr d n m) s (s.stop ⟨.sysregInvalid, 0, 0, none, none⟩))

/-- R159, R408: a write of SRCTL sets a die's reserve and NOLEND; a write of HOSTSIG raises the vector; a write of
RGNCTL freezes or thaws a region below the issuer and says in `p7` whether it names one. A value with a reserved bit, a
vector below 2 and an act above 1 stop with RESERVED_FIELD, and a number that no writable register has with SYSREG_INVALID.
R409: `halt` suspends its
thread after it and asks for a freeze of its region's group. -/
def Sys2Proof.Claims.SystemWrites : Prop :=
  ∀ (s : State) (d n m : BitVec 5), Privileged s →
    let k := n.toNat * 32 + m.toNat
    let x := (s.g d).toNat
    let reserved : Prop := Does (.sysw d n m) s (s.stop ⟨.reservedField, 0, 0, none, none⟩)
    (∀ i : BitVec 2, k = 8 + i.toNat →
      (x < 2 ^ 23 → Does (.sysw d n m) s ((s.modDie i fun y =>
        { y with reserve := BitVec.ofNat 22 x, nolend := decide (2 ^ 22 ≤ x) }).advance 4)) ∧ (2 ^ 23 ≤ x → reserved)) ∧
    (k = 16 → (x < 2 ∨ 16 ≤ x) → reserved) ∧
    (k = 17 → 2 ^ 17 ≤ x → reserved) ∧
    (k = 16 → 2 ≤ x → x < 16 → Does (.sysw d n m) s ((s.raise (BitVec.ofNat 4 x)).advance 4)) ∧
    (k = 17 → x < 2 ^ 17 →
      let r := BitVec.ofNat 16 x
      let q := (s.setP 7 (s.rgnctlOk s.self.region r)).advance 4
      Does (.sysw d n m) s (if x < 2 ^ 16 then q.rgnctlFreeze s.self.region r else q.rgnctlThaw s.self.region r)) ∧
    (k < 8 ∨ (12 ≤ k ∧ k < 16) ∨ 17 < k → Does (.sysw d n m) s (s.stop ⟨.sysregInvalid, 0, 0, none, none⟩)) ∧
    Does .halt s (((s.advance 4).modSelf fun t => { t with suspended := true }).askFreeze s.self.region)

/-- R104, R105, R410: a write of CARVE within the limits, on a tile that is quiescent, zeroes the tile's whole array and
clears its tile registers' tags and shapes; on a tile that is not quiescent it stops with CARVE_BUSY, and a value beyond the
limits, or that leaves fewer than 64 banks of scratchpad, with RESERVED_FIELD. R226, R411: a pair image in form is written
to the watch pair of its home, and any other stops with RESERVED_FIELD. -/
def Sys2Proof.Claims.CarveAndWatch : Prop :=
  ∀ (s s1 : State) (a b : BitVec 5) (bs : List Byte), Privileged s →
    (let x := (s.g a).toNat
     let tregs : Nat := x % 2 ^ 5
     let accs : Nat := x / 2 ^ 5 % 2 ^ 3
     let lzb : Nat := x / 2 ^ 8 % 2 ^ 6
     let limits := tregs ≤ 16 ∧ accs ≤ 4 ∧ 2 ≤ lzb ∧ lzb ≤ 32 ∧ x / 2 ^ 14 % 2 ^ 2 = 0 ∧ x < 2 ^ 25 ∧
       16 * tregs + 96 * accs + lzb + 64 ≤ 384
     let quiet := (s.tile s.cur.tile).quiescent (some s.cur.thread)
     (¬limits → Does (.carve a) s (s.stop ⟨.reservedField, 0, 0, none, none⟩)) ∧
     (limits → quiet = true →
       Does (.carve a) s ((s.writeCarve s.cur.tile (BitVec.ofNat 5 tregs) (BitVec.ofNat 3 accs) (BitVec.ofNat 6 lzb)).advance 4)) ∧
     (limits → quiet = false → Does (.carve a) s (s.stop ⟨.carveBusy, 0, 0, none, none⟩))) ∧
    (loadChecked s (s.g a) 16 16 = .ok (s1, bs) →
      let w0 := (wordAt bs 0).toNat
      let w1 := (wordAt bs 1).toNat
      let y := (s1.g b).toNat
      let r : BitVec 16 := BitVec.ofNat 16 (w1 / 2 ^ 16)
      let named : Option Home :=
        if y / 2 ^ 2 % 2 = 0 then some (.tile (y / 2 ^ 3 % 2 ^ 10))
        else if y / 2 ^ 3 % 2 ^ 10 < 64 then some (.cmem (y / 2 ^ 3 % 2 ^ 10)) else none
      let form := y < 2 ^ 13 ∧ w0 < 2 ^ 52 ∧ w1 / 2 ^ 8 % 2 ^ 8 = 0 ∧ w1 < 2 ^ 33 ∧ 3 ≤ w1 % 2 ^ 4 ∧ w1 % 2 ^ 4 ≤ 12 ∧
        w0 % 2 ^ (w1 % 2 ^ 4) = 0 ∧ named.isSome = true ∧ home? w0 = named ∧ (s1.region? r).isSome = true ∧
        s1.atOrBelow s1.self.region r = true
      (form → ∀ i : Fin 4, i.val = y % 4 → Does (.wpset a b) s ((s1.setPairs w0 ((s1.pairs w0).set i
        ⟨BitVec.ofNat 52 w0, BitVec.ofNat 4 w1, bitAt (wordAt bs 1) 4, bitAt (wordAt bs 1) 5, bitAt (wordAt bs 1) 6,
          bitAt (wordAt bs 1) 7, r, bitAt (wordAt bs 1) 32⟩)).advance 4)) ∧
      (¬form → Does (.wpset a b) s (s1.stop ⟨.reservedField, 0, 0, none, none⟩)))

/-- R214, R407: `eret` by a privileged activation with a disposition of 0 to 3, over a fibre of its region or of one
below it whose fault is pending, settles the fault and writes 1 to `p7`; over any other handle it writes 0 and settles
nothing; a disposition above 3 stops it with RESERVED_FIELD. R229, R412: `sstep` of a suspended activation of a frozen
region at or below the issuer's makes the step the next thing that happens, and the issuer waits for its end; of any other
thread it writes 0 to `p7`; a reserved bit stops it with RESERVED_FIELD. The step waits while its instruction waits for a
register or for room; once it has been made its end is due, which in turn waits while a command that the step has issued
runs, or its `pause` counts (the agenda in which they stand is the model's own, log 16). -/
def Sys2Proof.Claims.SettleAndStep : Prop :=
  ∀ (s : State) (a b : BitVec 5), Privileged s →
    let h := s.g a
    let d := (s.g b).toNat
    let settles := handleForm h = true ∧ hKind h = 1 ∧ ∃ f, s.fibre? h = some f ∧
      s.atOrBelow s.self.region f.region = true ∧ f.fault.isSome = true
    (4 ≤ d → Does (.eret a b) s (s.stop ⟨.reservedField, 0, 0, none, none⟩)) ∧
    (d < 4 → settles → d ≠ 1 → Does (.eret a b) s ((s.putP 7 true).dispose h d)) ∧
    (settles → d = 1 → Does (.eret a b) s (((s.putP 7 true).drainFibre h).dispose h 1)) ∧
    (d < 4 → ¬settles → Does (.eret a b) s (s.putP 7 false)) ∧
    (h.toNat < 2 ^ 13 →
      let y : ThreadId := ⟨BitVec.ofNat 10 h.toNat, BitVec.ofNat 3 (h.toNat / 2 ^ 10)⟩
      (s.steppable s.self.region y = true →
        let q := (s.putP 7 true).modSelf fun t => { t with hold := .stepping y }
        Does (.sstep a) s { q with agenda := .step y.tile y.thread :: q.agenda }) ∧
      (s.steppable s.self.region y = false → Does (.sstep a) s (s.putP 7 false))) ∧
    (2 ^ 13 ≤ h.toNat → Does (.sstep a) s (s.stop ⟨.reservedField, 0, 0, none, none⟩)) ∧
    (∀ (t : BitVec 10) (k : BitVec 3) (r : List Act) (q : State), q.powered = true → q.agenda = r →
      (q.stepWaits ⟨t, k⟩ = true → r ≠ [] →
        step { q with agenda := .step t k :: r } = .next { q with agenda := r ++ [.step t k] }) ∧
      (q.stepWaits ⟨t, k⟩ = false → step { q with agenda := .step t k :: r } =
        andThen (q.singleStep ⟨t, k⟩) fun u => { u with agenda := .stepDone t k :: u.agenda }) ∧
      (q.stepOpen ⟨t, k⟩ = true → r ≠ [] →
        step { q with agenda := .stepDone t k :: r } = .next { q with agenda := r ++ [.stepDone t k] }) ∧
      (q.stepOpen ⟨t, k⟩ = false → step { q with agenda := .stepDone t k :: r } = .next (q.stepEnds ⟨t, k⟩)) ∧
      (∀ c ∈ (q.tile t).cmds, c.thr = k → c.icnt = (q.thread ⟨t, k⟩).icnt → (q.thread ⟨t, k⟩).suspended = true →
        q.stepOpen ⟨t, k⟩ = true))

/-- R229, R406: `trap` stops its activation with TRAP, whose fate is S, and `bkpt` with BREAKPOINT, whose fate is D: the
thread is suspended behind the instruction, a debug record goes out, and a freeze of the group is asked for; in a system
handler both stop with DOUBLE_FAULT. In a single step the stop is held pending. -/
def Sys2Proof.Claims.TrapAndBreakpoint : Prop :=
  ∀ s : State,
    let t := s.self
    let q := s.actsFor (some t.eff)
    let system := q.isSystem t.region s.cur.tile t.handler
    (t.suspended = false →
      Does .trap s (s.takeFault s.cur .trap 0 0) ∧ Does .bkpt s (s.takeFault s.cur .breakpoint 0 0) ∧
      (system = false → s.takeFault s.cur .breakpoint 0 0 = ((((q.modThread s.cur fun t =>
        { t with suspended := true, pc := t.pc + 4, hold := .free, counted := false }).sendDebug (some s.cur.tile)
          (q.faultRec s.cur .breakpoint .d 0 0)).askFreeze t.region).actsFor s.acting)) ∧
      (system = true → s.takeFault s.cur .trap 0 0 = s.takeFault s.cur .doubleFault 0 0 ∧
        s.takeFault s.cur .breakpoint 0 0 = s.takeFault s.cur .doubleFault 0 0)) ∧
    (t.suspended = true →
      Does .trap s (s.holdStop s.cur ⟨.trap, 0, 0, none, none⟩) ∧
      Does .bkpt s (s.holdStop s.cur ⟨.breakpoint, 0, 0, none, none⟩))

/-- TAKING A STOP (R58, R99, R210 to R217), under the effective values of the stopped activation; what acts afterwards is
what acted before, so that the values of now hold for the next choice of a thread (R58, R93, R420). The record of the stop
holds the cause, the place, the fate, the region, the message id, the fibre, the pc, the instruction's bits, the address,
INFO and the cycle. Fate S: the record is kept as the thread's last record, the activation is aborted, and the fibre waits
for a disposition. Fate W: the same, but that a fibre which is to be reclaimed is reclaimed. Fate D: the thread is suspended
behind the instruction, a debug record goes out, and a freeze of the group is asked for. Fate F: the record is kept, the
activation is aborted, the fault stays with the fibre, a debug record goes out, and a freeze is asked for. Fate P: the fibre
parks. Fate K, which KV_RETRY over a context has in a region with a regeneration handler (R207): KVRETRY rises by 1, the
record is kept and goes to no one, and the fibre parks until the regeneration ends, or is made ready at once where it has
ended; where the message of the regeneration became a dead letter, and in any other region, KV_RETRY has fate S. In a system
handler every other cause than one of fate P is DOUBLE_FAULT (R215), whose INFO is 0 (R213). The model's choices are that
fate F leaves the fault with the fibre (log 90), and that the region of a KV_RETRY is the activation's (log 91). -/
def Sys2Proof.Claims.TakingAStop : Prop :=
  ∀ (s : State) (x : ThreadId) (c : Cause) (addr info : Word),
    let t := s.thread x
    let q := s.actsFor (some t.eff)
    let system := q.isSystem t.region x.tile t.handler
    let rec' (c : Cause) (fa : Fate) : FaultRec := q.faultRec x c fa addr info
    let pending (fa : Fate) : State :=
      (((q.keepRecord x (rec' c fa)).abort x true).pendFault t.fibre (rec' c fa)).actsFor s.acting
    (system = false →
      (causeFate c = .s → s.takeFault x c addr info = pending .s) ∧
      (causeFate c = .w → s.takeFault x c addr info =
        if (q.fibre? t.fibre).any (·.rclm) = true then (q.reclaimRunning x).actsFor s.acting else pending .w) ∧
      (causeFate c = .d → s.takeFault x c addr info =
        ((((q.modThread x fun t => { t with suspended := true, pc := t.pc + 4, hold := .free, counted := false }).sendDebug
          (some x.tile) (rec' c .d)).askFreeze t.region).actsFor s.acting)) ∧
      (causeFate c = .f → s.takeFault x c addr info =
        (((((q.keepRecord x (rec' c .f)).abort x true).modFibre t.fibre fun y =>
          if y.rclm = true then y else { y with fault := some (rec' c .f) }).sendDebug (some x.tile)
            (rec' c .f)).askFreeze t.region).actsFor s.acting) ∧
      (causeFate c = .k → s.takeFault x c addr info = pending .s)) ∧
    (∀ (cx : Nat) (i : Word),
      let u := q.setCx cx 10 31 0 (q.cx cx 10 31 0 + 1)
      let r := u.faultRec x .kvRetry .k addr 0
      let v := ((u.keepRecord x r).parkFibre x (.regeneration cx)).modFibre t.fibre fun y =>
        if y.rclm = true then y else { y with kvFault := some r }
      let k := (u.regen? t.region).isSome = true ∧ u.isSystem t.region x.tile t.handler = false ∧ t.regenFate cx ≠ .lettered
      let stopped := s.takeStop x ⟨.kvRetry, addr, i, some (.regeneration cx), none⟩
      (k → t.regenFate cx = .waiting → v.rgpend cx = 1 → stopped = v.actsFor s.acting) ∧
      (k → (t.regenFate cx ≠ .waiting ∨ v.rgpend cx ≠ 1) → stopped = (v.unpark t.fibre).actsFor s.acting) ∧
      (¬k → stopped = (u.takeFate x none .kvRetry addr 0).actsFor s.acting)) ∧
    (causeFate c = .p → s.takeFault x c addr info =
      (q.parkFibre x (if c = .specHold then .speculation else .residency [])).actsFor s.acting) ∧
    (system = true → causeFate c ≠ .p →
      let d := q.faultRec x .doubleFault .f addr 0
      s.takeFault x c addr info =
        (((((q.keepRecord x d).abort x true).modFibre t.fibre fun y =>
          if y.rclm = true then y else { y with fault := some d }).sendDebug (some x.tile) d).askFreeze t.region).actsFor
            s.acting) ∧
    (∀ fa, rec' c fa = ⟨causeCode c, x.tile, x.thread, fateCode fa, t.region, false, t.msgid, t.fibre, t.pc, t.insn, addr,
      info, s.cyc⟩)

/-- R259 step 4, R420: in an activation that is not one of the region's system handler, a privileged form stops with
PRIVILEGED and has none of its effect. -/
def Obligations.PrivilegeStops : Prop :=
  ∀ (s : State) (d a b n m : BitVec 5), s.privileged = false →
    let t := s.stop ⟨.privileged, 0, 0, none, none⟩
    Does (.eret a b) s t ∧ Does (.sysr d n m) s t ∧ Does (.sysw d n m) s t ∧ Does .halt s t ∧ Does (.carve a) s t ∧
    Does (.wpset a b) s t ∧ Does (.sstep a) s t ∧ Does (.rcompact a b) s t

/-- The forms over ranges (R129, R132, R135, R138, R143, R397 to R402, R404). What `rset` judges as
RESERVED_FIELD beyond the list of R129 is log 20, and that a removal is judged for overlap is log 21. That an act
which waits for a compaction is held and judged again is log 10, and what `rmerge` asks of TIERED ranges beyond R135 is
log 82. -/
def Obligations.RangeForms : Prop :=
  Claims.RangeActs ∧ Claims.RangeSetAndPin

/-- The system registers (R159, R408), `halt` (R409), `carve` (R104, R105, R410), `wpset` (R226, R411), `eret` (R214,
R407) and `sstep` (R229, R412). -/
def Obligations.SystemForms : Prop :=
  Claims.SystemReads ∧ Claims.SystemWrites ∧ Claims.CarveAndWatch ∧ Claims.SettleAndStep

/-- How an activation stops (R210 to R217, R406). -/
def Obligations.Stops : Prop :=
  Claims.TrapAndBreakpoint ∧ Claims.TakingAStop

/-! Events: resets, bring-up and the host. -/

/-- R34, R50: power-on, each host reset and the mailbox command RESET leave the module as it is after reset, with step 1
of bring-up running: TIME is 0, STAT is 0 but for its step, and of the hub only the flash and the security counter survive;
no tile, store room, home, region, message or move holds anything. The bytes of memory and their poison stay until bring-up
zeroes them, and the cellar keeps its own: what a reset keeps is the model's reading (log 35). The agenda, the counter of
free values and the next identity are the model's own and go on (log 16). -/
def Sys2Proof.Claims.Resets : Prop :=
  ∀ s : State,
    Does .powerOn s s.restart ∧ Does .pcieConventionalReset s s.restart ∧ Does .functionLevelReset s s.restart ∧
    (s.hub.mbxPending.isSome = true → s.hub.freezing = none → s.hub.mbxCode = 8 → s.hub.mbxLen = 0 →
      Does .reset s s.restart) ∧
    s.restart.time = 0 ∧ s.restart.hub.stat = 4 ∧ s.restart.tiles = [] ∧ s.restart.regions = [] ∧
    s.restart.hub.slotA = s.hub.slotA ∧ s.restart.hub.slotB = s.hub.slotB ∧ s.restart.hub.activeB = s.hub.activeB ∧
    s.restart.hub.counter = s.hub.counter ∧
    s.restart.mem = s.mem ∧ s.restart.cellar = s.cellar ∧ s.restart.poison = s.poison ∧
    s.restart.dies = Vector.replicate 4 Die.reset ∧ s.restart.cmems = [] ∧ s.restart.net = [] ∧ s.restart.decs = [] ∧
    s.restart.inflight = [] ∧ s.restart.moves = [] ∧ s.restart.blocks = [] ∧ s.restart.forward = [] ∧
    { s.restart with
        agenda := [], draws := 0, uids := 0, mem := [], cellar := [], poison := [],
        hub := { s.restart.hub with phase := 0, slotA := [], slotB := [], activeB := false, counter := 0 } } = State.reset

/-- R31 to R33, R35 to R37, R60: a step of bring-up that runs succeeds, and the next one runs, or fails, and FAIL is set
with its number in FAILSTEP; vector 1 is raised in both cases. An image is accepted where its key and signature are good and
its security version is not below the fused counter. Step 2 starts the slot that the boot ROM accepts, the active one first
and then slot B (log 35), and what it then runs is that slot's image; step 7 verifies its link firmware and finds the drives (the rounding of a drive's
capacity is the model's reading, log 66); steps 8 and 9 zero HBM and the arrays; READY is set at the end of step 10, when
the slots of the tiles have been placed, whose places are open (log 47). -/
def Sys2Proof.Claims.BringUp : Prop :=
  ∀ (s : State) (ok : Bool),
    (∀ n, s.hub.inStep n = true →
      (s.stepEnd n true).hub.phase = n + 1 ∧ (s.stepEnd n false).hub.fail = true ∧
      (s.stepEnd n false).hub.failstep = n ∧ (s.stepEnd n ok).hub.msix[1] = s.hub.msix[1] + 1 ∧
      (s.stepEnd n ok).hub.ready = s.hub.ready) ∧
    (∀ k image, s.hub.accepts k image = true ↔
      Config.imageAccepted k image = true ∧ s.hub.counter ≤ Config.imageVersion image) ∧
    (s.hub.inStep 1 = true → Does (.fuseLoad ok) s (s.stepEnd 1 ok)) ∧
    (s.hub.inStep 2 = true →
      (∀ b, s.hub.bootSlot = some b → Does .atticKernelVerify s
        ((s.modHub fun h =>
          { h with attic := true, runsB := b, runImage := h.slot b, mbxBusy := false }).stepEnd 2 true)) ∧
      (s.hub.bootSlot = none → Does .atticKernelVerify s (s.stepEnd 2 false))) ∧
    (s.hub.inStep 3 = true → Does (.clockCalibration ok) s (s.stepEnd 3 ok)) ∧
    (s.hub.inStep 4 = true → Does (.sramRepair ok) s (s.stepEnd 4 ok)) ∧
    (s.hub.inStep 5 = true → Does (.linkCalibration ok) s (s.stepEnd 5 ok)) ∧
    (s.hub.inStep 6 = true → Does (.hbmTraining ok) s (s.stepEnd 6 ok)) ∧
    (∀ (d : BitVec 16) (n : Nat), s.hub.inStep 7 = true →
      (s.hub.accepts 1 s.hub.runImage = true →
        Does (.portEqualisation true d n) s ((s.modHub fun h =>
          { h with driveup := d, drives := (List.range 16).filter fun i => d.getLsbD i,
                   cellarBytes := ((List.range 16).filter fun i => d.getLsbD i).length * (n / 131072 * 131072) }).stepEnd
            7 true)) ∧
      (s.hub.accepts 1 s.hub.runImage = false →
        Does (.portEqualisation ok d n) s (s.stepEnd 7 false)) ∧
      Does (.portEqualisation false d n) s (s.stepEnd 7 false)) ∧
    (s.hub.inStep 8 = true →
      (∃ t, Does (.hbmZeroing true) s t ∧ t.hub.phase = 9 ∧ (∀ a, a < hbmEnd → readByte t.mem a = 0) ∧
        ∀ a, hbmEnd ≤ a → readByte t.mem a = readByte s.mem a) ∧
      Does (.hbmZeroing false) s (s.stepEnd 8 false)) ∧
    (s.hub.inStep 9 = true →
      (∃ t, Does (.sramZeroing true) s t ∧ t.hub.phase = 10 ∧
        (∀ a, arrayBase ≤ a → a < arrayEnd → readByte t.mem a = 0) ∧
        ∀ a, a < arrayBase ∨ arrayEnd ≤ a → readByte t.mem a = readByte s.mem a) ∧
      Does (.sramZeroing false) s (s.stepEnd 9 false)) ∧
    (s.hub.inStep 10 = true →
      (s.hub.accepts 2 s.hub.runImage = true →
        Does .bootImageLoad s
          (({ s with slotStores := placedSlots }.modHub fun h => { h with ready := true }).stepEnd 10 true)) ∧
      (s.hub.accepts 2 s.hub.runImage = false →
        Does .bootImageLoad s (s.stepEnd 10 false)))

/-- R27, R29, R36, R53, R55, R56: a lost link and the stop temperature ask every region to freeze and set FAIL, with
FAILSTEP 0xF and 0xE, and vector 1 is raised (that a later reason stands in the place of an earlier one is the model's
choice, log 72). A region that is asked to freeze is to stop, unless it is frozen; where a THAW waits for the cut of a stop
to close, it stops again after it (the model's reading, log 23).
The compute dies lose power after the stop temperature; that they keep it until every region is frozen is
the model's reading of R56 (log 42). A port and a drive that fail leave LINKUP and DRIVEUP; a domain that forms gives
the device its number, which is not 255, its ports and its routes. The time master is the device of the lowest number: it
has no offset and no rate to adjust, and its TSYNC is 1 as soon as the domain forms; that of another device falls until it
has been synchronised to a master that is new to it (log 67), and with TSYNC the gang slots that are armed (R55). In a
domain the first synchronisation of a device that is not the time master steps TIME forward, and TIME never decreases
(log 67); the clock falls and rises by 100 MHz between 600 and 1,200. -/
def Obligations.LinksAndClock : Prop :=
  ∀ s : State,
    (s.hub.phase ≠ 0 →
      Does .linkLost s (s.failWith 0xF) ∧
      Does .stopTemperature s ((s.failWith 0xE).modHub fun h => { h with hot := true })) ∧
    (∀ n, (s.failWith n).hub.fail = true ∧ (s.failWith n).hub.failstep = n ∧
      (s.hub.fail = false → (s.failWith n).hub.msix[1] = s.hub.msix[1] + 1)) ∧
    (∀ (r : BitVec 16) (x : Region) (n : BitVec 4), s.region? r = some x →
      (s.askFreeze r).region? r = some x.freeze ∧ (s.failWith n).region? r = some x.freeze) ∧
    (∀ x : Region, (x.frozen = true → x.freeze = x) ∧
      (x.frozen = false → (x.stopping = false ∨ x.thawing = false) →
        x.freeze = { x with stopping := true, thawing := false, again := false }) ∧
      (x.frozen = false → x.stopping = true → x.thawing = true → x.freeze = { x with again := true })) ∧
    (s.powered = true ↔ s.hub.hot = false ∨ ∃ x ∈ s.regions, x.2.frozen = false) ∧
    (s.hub.master = true ↔ ∀ r ∈ s.hub.routes, s.hub.devnum.toNat ≤ r.device.toNat) ∧
    (∀ p : BitVec 4, s.hub.linkup.getLsbD p.toNat = true →
      ∃ t, Does (.portFailure p) s t ∧ t.hub.msix[1] = s.hub.msix[1] + 1 ∧
        ∀ i, t.hub.linkup.getLsbD i = (s.hub.linkup.getLsbD i && decide (i ≠ p.toNat))) ∧
    (∀ p : BitVec 4, s.hub.ready = true → s.hub.driveup.getLsbD p.toNat = true →
      ∃ t, Does (.driveFailure p) s t ∧ t.hub.msix[1] = s.hub.msix[1] + 1 ∧
        ∀ i, t.hub.driveup.getLsbD i = (s.hub.driveup.getLsbD i && decide (i ≠ p.toNat))) ∧
    (∀ (n : BitVec 8) (l : BitVec 16) (r : List Route), s.hub.ready = true →
      let joined : Hub := { s.hub with devnum := n, linkup := l, routes := r }
      let known : Prop := s.hub.devnum ≠ 0xFF ∧ s.hub.master = false ∧ joined.masterNumber = s.hub.masterNumber ∧
        s.hub.tsync = true
      (n ≠ 0xFF →
        (joined.master = true → Does (.linkDomainFormation n l r) s
          ({ s with ppm := 0 }.modStat fun h => { h with devnum := n, linkup := l, routes := r, tsync := true })) ∧
        (joined.master = false → known → Does (.linkDomainFormation n l r) s
          (s.modStat fun h => { h with devnum := n, linkup := l, routes := r, tsync := true })) ∧
        (joined.master = false → ¬known → Does (.linkDomainFormation n l r) s
          (s.modStat fun h => { h with devnum := n, linkup := l, routes := r, tsync := false,
                                       gangs := h.gangs.map Gang.unsync }))) ∧
      (n = 0xFF → Does (.linkDomainFormation n l r) s s)) ∧
    (∀ h : Hub, h.masterNumber ≤ h.devnum.toNat ∧ (∀ r ∈ h.routes, h.masterNumber ≤ r.device.toNat) ∧
      (h.masterNumber = h.devnum.toNat ∨ ∃ r ∈ h.routes, h.masterNumber = r.device.toNat)) ∧
    (∀ (k : BitVec 64) (p : Int) (b : Bool), s.hub.devnum ≠ 0xFF →
      let q : State :=
        { s with time := if s.synced = false ∧ s.hub.master = false ∧ s.time.toNat + k.toNat < 2 ^ 64 then s.time + k
                   else s.time
                 ppm := if s.hub.master = true then 0 else p
                 synced := s.synced || !s.hub.master }
      let sync := b || s.hub.master
      Does (.timeSync k p b) s (q.fireDue.modStat fun h =>
        { h with tsync := sync, gangs := if sync = true then h.gangs else h.gangs.map Gang.unsync }) ∧
      s.time.toNat ≤ q.time.toNat) ∧
    Does .thermalThrottle s { s with clockMHz := max 600 (s.clockMHz - 100) } ∧
    Does .thermalRecovery s { s with clockMHz := min 1200 (s.clockMHz + 100) }

/-- R40, R41, R44 to R47, R150, R151, R408: window writes before READY are discarded flit by flit; a write that is not
aligned to flits, or whose header is bad, counts in HMDROP; a whole flit goes to its slot where the hub buffer has room
for what it completes, and waits where it has none; a write of several flits offers them in address order; a message whose
flits have not come in time is discarded (exactly 2^20 ticks are in time: the model's choice, log 67). A register write
that does not touch MBXDB is done byte by byte, and raises vector 1 where it changes STAT: EARLY and HMERR are cleared by
ones and kept by zeros; GANGTICKn and the staging slots take bytes while their slot is not armed, and ignore them while
it is; the request buffer takes its bytes; and every other offset ignores the write (an ARM or a CANCEL of GANGCTLn is an event
of its own). A write over MBXDB rings the doorbell. An aligned read of 8 bytes reads one word at once, and what the map does not list reads as zero. MBXDB
and the message window take writes only, and no rule gives a read of them: that both read as zero is the model's choice
(log 77). Of host ranges that overlap, the first that covers and permits an access answers it (the model's choice, log 88). A host access to a range that the host may use is performed at its homes, where R106 lets a range reach, and from
then on the host holds the lines, reads and writes alike (the model's choice, log 78). A signal raises its vector. -/
def Sys2Proof.Claims.HostActs : Prop :=
  ∀ s : State,
    (∀ (o : BitVec 16) (data : List (BitVec 8)), data ≠ [] →
      (s.hub.ready = false →
        Does (.hostMessage o data) s (s.modStat fun h =>
          { h with hmdrop := h.hmdrop + BitVec.ofNat 64 ((o.toNat + data.length - 1) / 64 + 1 - o.toNat / 64),
                   early := true })) ∧
      (s.hub.takes = true →
        ((o.toNat % 64 ≠ 0 ∨ data.length % 64 ≠ 0) → Does (.hostMessage o data) s s.hmError) ∧
        (o.toNat % 64 = 0 → data.length = 64 →
          Does (.hostMessage o data) s (s.offer [(o.toNat / 64, data)])) ∧
        (o.toNat % 64 = 0 → data.length % 64 = 0 → ∃ flits : List (Nat × List Byte),
          Does (.hostMessage o data) s (s.offer flits) ∧ flits.length = data.length / 64 ∧
            (flits.map (·.2)).flatten = data ∧
            ∀ i : Nat, ∀ f, flits[i]? = some f → f.1 = o.toNat / 64 + i ∧ f.2.length = 64))) ∧
    (∀ (n : Nat) (f : List Byte), n < 1024 → s.hub.stalled = [] →
      (s.hubRoom (s.completes n f) = true →
        s.offer [(n, f)] = (s.flit n f).modHub fun h => { h with stalled := [] }) ∧
      (s.hubRoom (s.completes n f) = false → s.offer [(n, f)] = s.modHub fun h => { h with stalled := [(n, f)] })) ∧
    (∀ (n : Nat) (f : List Byte), (∀ a ∈ s.hub.assemblies, a.slot ≠ n) →
      (headerOk n f = false → s.flit n f = s.hmError) ∧
      (headerOk n f = true → flitLen f ≤ 40 → s.flit n f = s.inject f (f.drop 24)) ∧
      (headerOk n f = true → 40 < flitLen f → s.flit n f =
        s.modHub fun h => { h with assemblies := h.assemblies ++ [⟨n, f, f.drop 24, s.time.toNat⟩] })) ∧
    (∀ (n : BitVec 10) (a : Assembly), s.hub.assemblies.find? (fun a => decide (a.slot = n.toNat)) = some a →
      let dropped := (s.modHub fun h => { h with assemblies := h.assemblies.filter fun x => x.slot ≠ n.toNat }).hmError
      (a.since + 2 ^ 20 < s.time.toNat → Does (.hostMessageTimeout n) s dropped ∧
        ∀ f, s.flit n.toNat f = dropped.headerFlit n.toNat f) ∧
      (s.time.toNat ≤ a.since + 2 ^ 20 → Does (.hostMessageTimeout n) s s)) ∧
    (∀ (o : BitVec 17) (data : List (BitVec 8)), o.toNat + data.length ≤ 0x1000 ∨ 0x1008 ≤ o.toNat →
      Does (.registerWrite o data) s
        (s.modStat fun h => (data.zipIdx).foldl (fun h x => h.writeByte (o.toNat + x.2) x.1) h)) ∧
    (∀ (h : Hub) (x : BitVec 8),
      h.writeByte 2 x = { h with early := h.early && !(x.getLsbD 1), hmerr := h.hmerr && !(x.getLsbD 2) } ∧
      (h.stat.getLsbD 17 = h.early ∧ h.stat.getLsbD 18 = h.hmerr) ∧
      (∀ n : BitVec 3, ∀ i : Nat,
        let g := h.gang n
        (i < 8 →
          (g.state = 1 → h.writeByte (0x240 + 8 * n.toNat + i) x = h) ∧
          (g.state ≠ 1 → h.writeByte (0x240 + 8 * n.toNat + i) x =
            h.setGang n { g with tick := BitVec.ofNat 64 (setBits g.tick.toNat (8 * i + 7) (8 * i) x.toNat) })) ∧
        (i < 64 →
          (g.state = 1 → h.writeByte (0x6000 + 64 * n.toNat + i) x = h) ∧
          (g.state ≠ 1 → h.writeByte (0x6000 + 64 * n.toNat + i) x =
            h.setGang n { g with staged := bufferBytes g.staged i [x] }))) ∧
      (∀ a : Nat, 0x2000 ≤ a → a < 0x3000 →
        h.writeByte a x = { h with request := bufferBytes h.request (a - 0x2000) [x] }) ∧
      (∀ a : Nat, a ≠ 2 → (a < 0x240 ∨ 0x280 ≤ a) → (a < 0x2000 ∨ 0x3000 ≤ a) → (a < 0x6000 ∨ 0x6200 ≤ a) →
        h.writeByte a x = h)) ∧
    (∀ data : List (BitVec 8), data.length = 8 →
      Does (.registerWrite 0x1000 data) s
        (s.modHub fun h => h.doorbell (BitVec.ofNat 16 (leNat (data.take 2))))) ∧
    (s.barWord 0 = s.hub.stat ∧ s.barWord 8 = s.hub.idWord ∧ s.barWord 0x10 = s.hub.hmdrop ∧
      s.barWord 0x100 = s.time ∧ s.barWord 0x1000 = 0 ∧ s.barWord 0x1008 = s.hub.mbxStat) ∧
    (∀ n : BitVec 3, let g := s.hub.gang n
      s.barWord (0x200 + 8 * n.toNat) = BitVec.ofNat 64 (g.state.toNat * 2 ^ 2 + g.cause.toNat * 2 ^ 4) ∧
      s.barWord (0x240 + 8 * n.toNat) = g.tick ∧
      ∀ i < 8, s.barWord (0x6000 + 64 * n.toNat + 8 * i) =
        BitVec.ofNat 64 (leNat ((g.flit.drop (8 * i)).take 8))) ∧
    (∀ n, n % 8 = 0 → s.barRead n 8 = leBytes 8 (s.barWord n).toNat ∧
      (0x18 ≤ n ∧ n < 0x100 ∨ 0x108 ≤ n ∧ n < 0x200 ∨ 0x280 ≤ n ∧ n < 0x1000 ∨ 0x1010 ≤ n ∧ n < 0x2000 ∨
        0x3000 ≤ n ∧ n < 0x4000 ∨ 0x6200 ≤ n ∧ n < 0x10000 ∨ 0x20000 ≤ n → s.barWord n = 0) ∧
      (0x10000 ≤ n ∧ n < 0x20000 → s.barWord n = 0)) ∧
    (∀ (o : BitVec 64) (n : Nat) (bs : List (BitVec 8)) (e : RangeEntry),
      let pa := s.forwarded o.toNat (e.phys o.toNat)
      (home? pa).isSome = true →
      (s.hub.hostRange o.toNat bs.length true = some e →
        (s.arrayCheck pa bs.length .write = .ok () →
          Does (.hostHdmAccess o n (some bs)) s (((s.normalise pa bs.length).poke pa bs).hostTakes pa bs.length)) ∧
        (∀ k, s.arrayCheck pa bs.length .write = .error k → Does (.hostHdmAccess o n (some bs)) s (s.hdmRefused true))) ∧
      (s.hub.hostRange o.toNat n false = some e →
        (s.arrayCheck pa n .read = .ok () →
          Does (.hostHdmAccess o n none) s ((((s.touch pa n false).consumeOnce pa n).hostTakes pa n).modHub fun h =>
            { h with hostRead := if poisoned s.poison pa n = true then none else some (s.peek pa n) })) ∧
        (∀ k, s.arrayCheck pa n .read = .error k → Does (.hostHdmAccess o n none) s (s.hdmRefused false)))) ∧
    (∀ (q : State) (pa n : Nat), 0 < n → (q.hostTakes pa n).hostHolds pa n = true) ∧
    (∀ v : BitVec 4, 2 ≤ v.toNat → Does (.hostSignal v) s (s.raise v))

/-- R54, R55: an ARM of a slot that is not armed, so a fired or a refused one too, arms it where the module is at READY,
TSYNC is 1, its flit is good, and its tick lies at least 2,000 ticks ahead; otherwise it is refused with a cause. An ARM of
an armed slot has no effect. An armed slot can be cancelled until its tick, and at the tick or after it, or not armed, a
CANCEL is ignored. At its tick an armed slot fires; a module that has failed then takes no message (R27, R56; log 40).
Where TSYNC falls an armed slot is refused with NOSYNC. -/
def Sys2Proof.Claims.GangActs : Prop :=
  ∀ (s : State) (n : BitVec 3),
    let g := s.hub.gang n
    let put (x : Gang) : State := s.modHub fun h => h.setGang n x
    (g.state ≠ 1 →
      Does (.gangCancel n) s s ∧
      (s.hub.ready = false → Does (.gangArm n) s (put { g with state := 3, cause := 4 })) ∧
      (s.hub.ready = true → s.hub.tsync = false → Does (.gangArm n) s (put { g with state := 3, cause := 2 })) ∧
      (s.hub.ready = true → s.hub.tsync = true → g.flitOk = false →
        Does (.gangArm n) s (put { g with state := 3, cause := 3 })) ∧
      (s.hub.ready = true → s.hub.tsync = true → g.flitOk = true → g.tick.toNat < s.time.toNat + 2000 →
        Does (.gangArm n) s (put { g with state := 3, cause := 1 })) ∧
      (s.hub.ready = true → s.hub.tsync = true → g.flitOk = true → s.time.toNat + 2000 ≤ g.tick.toNat →
        Does (.gangArm n) s (put { g with state := 1, cause := 0 }))) ∧
    (g.state = 1 →
      Does (.gangArm n) s s ∧
      (s.time.toNat < g.tick.toNat → Does (.gangCancel n) s (put { g with state := 0, cause := 0 })) ∧
      (g.tick.toNat ≤ s.time.toNat →
        Does (.gangCancel n) s s ∧
        (s.hub.takes = true → Does (.gangFire n) s ((put { g with state := 2, cause := 0 }).offer [(1024, g.flit)])) ∧
        (s.hub.takes = false → Does (.gangFire n) s (put { g with state := 2, cause := 0 })))) ∧
    (∀ x : Gang, x.unsync = if x.state = 1 then { x with state := 3, cause := 2 } else x)

/-- R33, R34, R38, R39, R49 to R52: a command that the mailbox has to process, with its code and an argument length that
fits, does what its row says and is answered. A length that does not fit and a value beyond a limit are answered BADARG, and a
region that is not loaded NOREGION. A command that waits for READY,
and a code that is not assigned, are answered NOTREADY before it, and such a code BADCMD at READY (the model's reading,
log 39). That FWSTAGE answers OK at every offset and that the counter never passes 64 are the model's choice (log 69); that
a THAW after the stop temperature waits unanswered is its reading of R52 and R56 (log 70); that ATTEST names the slot that
is active now is its choice (log 77); that a THAW of a region whose stop is still under way is remembered until its cut
closes, that one of a region that is switched out waits until it is switched in, and that a FREEZE or a THAW whose region is
unloaded meanwhile is answered NOREGION are its reading (log 23). An answer clears BUSY, sets DONE and STATUS, and raises vector 0. -/
def Obligations.MailboxCommands : Prop :=
  ∀ s : State,
    (∀ c bs, (s.answer c bs).hub.mbxBusy = false ∧ (s.answer c bs).hub.mbxDone = true ∧
      (s.answer c bs).hub.mbxStatus = c ∧ (s.answer c bs).hub.msix[0] = s.hub.msix[0] + 1) ∧
    (s.hub.mbxPending.isSome = true → s.hub.freezing = none →
      let code := s.hub.mbxCode
      let len := s.hub.mbxLen
      (code = 1 → len = 0 →
        Does .ident s (s.answer 0 (Config.identReport s.hub.slotA s.hub.slotB s.hub.activeB))) ∧
      (code = 2 → len = 64 → Does .attest s
        (s.answer 0 (s.hub.reportBody ++ leBytes 4627 (Config.signature s.hub.reportBody).toNat))) ∧
      (code = 0 ∨ 9 < code → Does .mailboxBadcmd s (s.answer (if s.hub.ready = true then 1 else 4) [])) ∧
      (s.hub.ready = false →
        (code = 3 → Does .readback s (s.answer 4 [])) ∧ (code = 4 → Does .freeze s (s.answer 4 [])) ∧
        (code = 5 → Does .thaw s (s.answer 4 [])) ∧ (code = 6 → Does .fwstage s (s.answer 4 [])) ∧
        (code = 7 → Does .fwcommit s (s.answer 4 [])) ∧ (code = 9 → Does .links s (s.answer 4 []))) ∧
      (code = 1 → len ≠ 0 → Does .ident s (s.answer 2 [])) ∧ (code = 2 → len ≠ 64 → Does .attest s (s.answer 2 [])) ∧
      (code = 8 → len ≠ 0 → Does .reset s (s.answer 2 [])) ∧
      (s.hub.ready = true →
        (code = 3 → (len ≠ 40 ∨ s.readback (s.hub.mbxArg 0) (s.hub.mbxArg 1) (s.hub.mbxArg 2) (s.hub.mbxArg 3)
          (s.hub.mbxArg 4) = none) → Does .readback s (s.answer 2 [])) ∧
        (len ≠ 8 →
          (code = 4 → Does .freeze s (s.answer 2 [])) ∧ (code = 5 → Does .thaw s (s.answer 2 [])) ∧
          (code = 7 → Does .fwcommit s (s.answer 2 []))) ∧
        (code = 6 → (len < 8 ∨ 4088 < len) → Does .fwstage s (s.answer 2 [])) ∧
        (code = 7 → 1 < s.hub.mbxArg 0 → Does .fwcommit s (s.answer 2 [])) ∧
        (code = 9 → len ≠ 0 → Does .links s (s.answer 2 [])) ∧
        (len = 8 → (2 ^ 16 ≤ s.hub.mbxArg 0 ∨ s.region? (BitVec.ofNat 16 (s.hub.mbxArg 0)) = none) →
          (code = 4 → Does .freeze s (s.answer 5 [])) ∧ (code = 5 → Does .thaw s (s.answer 5 []))) ∧
        (code = 9 → len = 0 → Does .links s
          (s.answer 0 (Config.linksReport s.hub.devnum s.hub.linkup (s.hub.routes.map fun r => (r.device, r.port))))) ∧
        (∀ bs, code = 3 → len = 40 →
          s.readback (s.hub.mbxArg 0) (s.hub.mbxArg 1) (s.hub.mbxArg 2) (s.hub.mbxArg 3) (s.hub.mbxArg 4) = some bs →
          Does .readback s (s.answer 0 bs)) ∧
        (code = 6 → 8 ≤ len → len ≤ 4088 → Does .fwstage s
          ((s.modHub fun h => h.stage (h.mbxArg 0) (h.mbxBytes 8 (h.mbxLen - 8))).answer 0 [])) ∧
        (code = 7 → len = 8 → s.hub.mbxArg 0 ≤ 1 →
          let image := s.hub.slot (!s.hub.activeB)
          (s.hub.accepts 3 image = true → Does .fwcommit s ((s.modHub fun h =>
            { h with activeB := !h.activeB,
                     counter := if h.mbxArg 0 = 1 then min 64 (max h.counter (Config.imageVersion image))
                       else h.counter }).answer 0 [])) ∧
          (s.hub.accepts 3 image = false → Does .fwcommit s (s.answer 3 []))) ∧
        (∀ (r : BitVec 16) (x : Region), len = 8 → s.hub.mbxArg 0 = r.toNat → s.region? r = some x →
          (code = 4 →
            (x.frozen = true → Does .freeze s (s.answer 0 [])) ∧
            (x.frozen = false → Does .freeze s ((s.askFreeze r).waitFor r false))) ∧
          (∀ b, s.waitFor r b = s.modHub fun h => { h with freezing := some r, mbxThaw := b }) ∧
          (code = 5 → s.hub.hot = true → Does .thaw s (s.waitFor r true)) ∧
          (code = 5 → x.saved.isSome = true → s.hub.hot = false → Does .thaw s
            ((s.modRegion r fun y => { y with thawing := true }).waitFor r true)) ∧
          (code = 5 → x.saved = none → s.hub.hot = false →
            (x.frozen = true → Does .thaw s ((s.thaw r).answer 0 [])) ∧
            (x.frozen = false → x.stopping = true → Does .thaw s ((s.thaw r).waitFor r true)) ∧
            (x.frozen = false → x.stopping = false → Does .thaw s (s.answer 0 [])))))) ∧
    (∀ r : BitVec 16,
      (s.hub.freezing = some r → s.answerGone r = (s.modHub fun h => { h with freezing := none }).answer 5 []) ∧
      (s.hub.freezing ≠ some r → s.answerGone r = s))

/-! Events: regions, fibres and messages. -/

/-- R57, R223: a load that the loader accepts gives the module the region; one whose RCB is refused loads nothing and is
answered NOREGION (that an RCB of a region number already loaded is among them is the model's choice, log 76); one that is
refused for another reason loads nothing either, and its answer, which no rule gives, is open (log 43), while a store room
that has refused it an allocation counts that (R159) and notes that it has asked its neighbours (R158); one that needs a
compaction first starts it (R143; log 10); an unload starts, and frees the region once it has come to rest; a frozen region can be switched out,
after which its tiles hold nothing of it, its scope copies included, and switched in again once each of its tiles can
take it. -/
def Sys2Proof.Claims.RegionMoves : Prop :=
  ∀ s : State,
    (∀ q : LoadRequest,
      (∀ t, s.loadRegion q = .ok t → Does (.regionLoad q) s (t.loadAnswer (some 0))) ∧
      (s.loadRegion q = .error .noRegion → Does (.regionLoad q) s (s.loadAnswer (some 5))) ∧
      (s.loadRegion q = .error .refused → Does (.regionLoad q) s (s.loadAnswer (some (Config.loadRefusal q.rcb)))) ∧
      (∀ d, s.loadRegion q = .error (.noRoom d false) → Does (.regionLoad q) s
        ((s.modDie d fun y => { y with refused := y.refused + 1 }).loadAnswer (some (Config.loadRefusal q.rcb)))) ∧
      (∀ d, s.loadRegion q = .error (.noRoom d true) → Does (.regionLoad q) s
        (((s.refusedBatch d).modDie d fun y => { y with refused := y.refused + 1 }).loadAnswer
          (some (Config.loadRefusal q.rcb)))) ∧
      (∀ d k, s.loadRegion q = .error (.later d k) → Does (.regionLoad q) s
        ((s.modDie d fun y => if y.compact.isSome = true then y else
          { y with compact := some (BitVec.ofNat 5 k) }).loadAnswer none))) ∧
    (∀ (r : BitVec 16) (x : Region), s.region? r = some x →
      (x.saved = none → x.unloading = false → Does (.regionUnload r) s (s.startUnload r)) ∧
      (x.saved = none → x.unloading = true → s.quiet r = true → Does (.regionUnload r) s (s.dropRegion r)) ∧
      (x.saved = none → x.unloading = false → x.frozen = true →
        Does (.regionSwitchOut r) s ((s.regionTiles r).foldl (fun q y => q.clearTile r y.tile)
          (s.modRegion r fun y => { y with saved := some ((s.regionTiles r).map (s.saveTile r)), scopes := [] }))) ∧
      (∀ l, x.saved = some l →
        (∀ v ∈ l, ∀ k, (k = match x.tiles.find? (fun y => decide (y.tile = v.tile)) with
          | some y => y.kept
          | none => 0) → s.canTake r k v = true) →
        Does (.regionSwitchIn r) s
          ((((l.foldl (fun q v => q.restoreTile r v) s).modRegion r fun y => { y with saved := none }).readTable
            r).thawWaiting r)))

/-- R84 to R94, R98, R184, R311: the choice of a tile starts; a queue above its limit spills and one below its limit
refills; an idle tile takes half of what its victim holds, at most eight entries, and asks no more for 256 cycles where it
finds none; an activation beyond its budget stops with WATCHDOG, or BAR_TIMEOUT in `bar.wait`; a waiter is woken, and a
pause ends. The model's own are the choice among equals (log 55), the candidates for a free thread 7 (log 37), the cycle
before which a tile does not steal again (log 45), and ADDR 0 in the record of BAR_TIMEOUT (log 53). What a stop of its
region's group keeps in its place is neither spilled, stolen nor refilled (R220, R223). -/
def Obligations.SchedulerEvents : Prop :=
  ∀ (s : State) (t : BitVec 10) (h : BitVec 3),
    (let q := s.dropStale t
     ∀ (c : Candidate) (k : BitVec 3), q.choice t = some (c, k) →
      (∀ m, c.work = .message m → Does (.threadDispatch t) s (q.startMessage ⟨t, k⟩ m)) ∧
      (∀ e, c.work = .entry e → Does (.threadDispatch t) s (q.startEntry ⟨t, k⟩ e))) ∧
    (56 < (s.tile t).ready.length → Does (.queueSpill (.tile t)) s (s.spillTile t)) ∧
    ((s.tile t).ready.length < 8 → (s.tile t).backlog = [] → Does (.queueRefill (.tile t)) s (s.refillTile t)) ∧
    ((s.tile t).ready.length < 8 → (s.tile t).backlog ≠ [] → Does (.queueRefill (.tile t)) s (s.refillBacklog t)) ∧
    (∀ c : BitVec 6,
      (448 < (s.cmem c.toNat).queue.length → Does (.queueSpill (.cluster c)) s (s.spillCluster c.toNat)) ∧
      ((s.cmem c.toNat).queue.length < 64 → Does (.queueRefill (.cluster c)) s (s.refillCluster c.toNat))) ∧
    (s.maySteal t = true →
      (∀ v, s.victim t = some v →
        let p := takeBlock (spillsFirst s.cyc) (fun e => !s.pinned e && s.entryFits t e)
          (min 8 ((s.stealable v t).length / 2)) (s.tile v).ready
        Does (.steal t) s ((s.modTile v fun x => { x with ready := p.2 }).bringIn t p.1)) ∧
      (∀ l, (l ≠ [] → (s.bringIn t l).tile t = { s.tile t with ready := (s.tile t).ready ++ l, stealAt := 0 })) ∧
      (s.victim t = none → (∀ d ∈ neighbours (dieOf t), (s.die d).queue.any (s.entryFits t) = false) →
        Does (.steal t) s (s.modTile t fun x => { x with stealAt := s.cyc.toNat + 256 }))) ∧
    (let x := s.thread ⟨t, h⟩
     (x.active = true → x.suspended = false → 2 ^ x.eff.wdog ≤ x.wdUsed.toNat →
      Does (.watchdog t h) s (match x.barScope with
        | some c => s.takeFault ⟨t, h⟩ .barTimeout 0 (c.setWidth 64)
        | none => s.takeFault ⟨t, h⟩ .watchdog 0 0)) ∧
     (∀ a, x.hold = .barrier a → Does (.barrierWake t h) s (s.modThread ⟨t, h⟩ fun y => { y with hold := .retest })) ∧
     (∀ c, x.hold = .pause c → x.counted = false → c ≤ s.cyc.toNat →
      Does (.pauseExpiry t h) s (s.modThread ⟨t, h⟩ fun y => { y with hold := .free }))) ∧
    (∀ (e : ReadyEntry) (f : Fibre) (x : Region), s.fibre? e.handle = some f → s.region? f.region = some x →
      (x.stopping = true ∨ x.frozen = true) →
      s.entryFits t e = false ∧ (e ∈ (s.tile t).ready → e ∈ ((s.spillTile t).tile t).ready) ∧
      (e ∈ (s.cmem (clusterOf t)).queue → e ∈ ((s.spillCluster (clusterOf t)).cmem (clusterOf t)).queue))

/-- R30, R67, R83, R121, R150, R160, R161, R220, R321: a store on its way that no earlier one of its thread to that home
precedes is performed, once the host holds its line no longer: where it does, the hub sends BISnp, the host answers, and the
store is performed by a later event (log 78). A message that nothing before it on its pair holds back leaves for its device, becomes a dead letter, adds its
values, or lands; a decrement that nothing precedes is applied at its home. On a tile that a stop of the region has reached
(R220) a sum-into message is held in the inbound queue of its class and a decrement beside the queues, and neither takes
effect there: that both are held so is the model's reading (log 25), and so are the reason of a dead letter where two would
do (log 38) and what a held message holds back (log 37). -/
def Sys2Proof.Claims.ArrivalEvents : Prop :=
  ∀ (s : State) (n : Nat),
    (∀ a, s.inflight[n]? = some a → s.behind n a = false →
      let pa := s.forwarded a.va a.pa
      (s.hostHolds pa a.data.length = false →
        let q : State := { s with inflight := s.inflight.eraseIdx n }
        Does (.accessPerformedAtHome n) s ((q.dropForwarded a.tile a.va a.pa).performStore
          ⟨a.tile, a.thread, a.icnt, a.msgid, a.fibre⟩ .wr a.va a.pa a.data)) ∧
      (s.hostHolds pa a.data.length = true → ∃ t, Does (.accessPerformedAtHome n) s t ∧
        t.hostHolds pa a.data.length = false ∧ { t with hostLines := s.hostLines } = s)) ∧
    (∀ m, s.net[n]? = some m → (∀ x ∈ s.net, s.holdsBack x m = false) → (∀ d ∈ s.decs, s.decBefore d m = false) →
      (s.leaves' m = true → Does (.messageArrival n) s (({ s with net := s.net.eraseIdx n }).depart m)) ∧
      (s.leaves' m = false →
        (∀ why, s.undelivered m = some why → Does (.messageArrival n) s ((s.takeMessage n m).bury why m)) ∧
        (s.undelivered m = none → s.away m.region = false →
          (m.sums = true → s.heldAt (dTile m.dest) m.region = false →
            Does (.messageArrival n) s ((s.takeMessage n m).sumInto m)) ∧
          (m.sums = true → s.heldAt (dTile m.dest) m.region = true → s.blocked m = false →
            Does (.messageArrival n) s ((s.takeMessage n m).holdSum m)) ∧
          (m.sums = false → s.blocked m = false → Does (.messageArrival n) s ((s.takeMessage n m).land m))))) ∧
    (∀ d, s.decs[n]? = some d →
      (∀ m ∈ s.net, ¬(m.uid < d.uid ∧ m.source = d.src.toNat ∧ dTile m.dest = hTile d.handle ∧ s.leaves' m = false)) →
      (∀ x ∈ s.decs, ¬(x.uid < d.uid ∧ x.src = d.src ∧ hTile x.handle = hTile d.handle)) →
      s.away d.region = false →
      (s.heldAt (hTile d.handle) d.region = false → Does (.decrementArrival n) s
        ((({ s with decs := s.decs.eraseIdx n }).received (hTile d.handle) d.region d.colour).decrement d)) ∧
      (s.heldAt (hTile d.handle) d.region = true → Does (.decrementArrival n) s
        { s.received (hTile d.handle) d.region d.colour with
          decs := s.decs.eraseIdx n, heldDecs := s.heldDecs ++ [d] }))

/-- R69, R74, R75, R169, R188, R401, R415: a fibre that is to be reclaimed, runs no activation and receives no record of a
reference is reclaimed; a range that waits for its owner's commands is released once they have finished, no move of it is
under way, and, where it is removed, none of its blocks is pinned, FETCHING or EVICTING, as R401 asks of a removal (that pins
count no longer once the region unloads is the model's choice, log 80); so are the ranges of a freed context's slab, when its
owner's commands have finished (log 74). Neither happens while the region is frozen and stays loaded (log 46). The slot of a
future stays taken while a command that the reclamation has cancelled has not stopped (R75). A retiring scope entry with
nothing in flight becomes free on every tile and at its home. -/
def Sys2Proof.Claims.Endings : Prop :=
  ∀ s : State,
    (∀ (h : Word) (f : Fibre),
      s.reclaims.find? (fun y => decide (hTile y = hTile h) && decide (hSlot y = hSlot h)) = some h →
      s.fibre? h = some f → f.runsOn = none → s.still f.region = false → s.recordsFor h = false →
      Does (.fibreReclaim (hTile h) (hSlot h)) s
        ((({ s with reclaims := removeFirst (fun x => decide (x = h)) s.reclaims }).drainFibre h).reclaimFibre h)) ∧
    (∀ (n : Nat) (r : Release), s.releases[n]? = some r → s.commandsOf r.owner = false → s.still r.region = false →
      let leaves : List Leaf := match r.freed with
        | some c => (s.leaves (s.ctxRegion c)).filter fun l => s.inSlab c l.entry.vbase
        | none => (s.leaves r.region).filter fun l =>
          decide (l.entry.vbase = r.vbase) && l.entry.priv && decide (l.entry.owner = r.owner)
      let q : State := { s with releases := s.releases.eraseIdx n }
      let removed : Prop := r.freed.isSome = true ∨ (r.slab = false ∧ (r.heir = 0 ∨ s.fibre? r.heir = none))
      let pinned (e : RangeEntry) : Prop :=
        e.tiered = true ∧ ∃ va ∈ blocksOf e.vbase (e.limit - e.vbase), s.blockPinned r.region e va = true
      let held (e : RangeEntry) : Prop := ∃ x, s.region? r.region = some x ∧
        (s.blocksMove r.region e = true ∨ (x.unloading = false ∧ pinned e))
      let busy (l : Leaf) : Prop := l.entry.forwarding = true ∨
        s.pagesBusy (s.treeOf r.region) setsDevice l.entry.overlaps = true ∨ (removed ∧ held l.entry)
      ((∃ l ∈ leaves, busy l) → Does (.rangeRelease n) s s) ∧
      ((∀ l ∈ leaves, ¬busy l) → Does (.rangeRelease n) s (State.tryFree (match r.freed with
          | some c => q.freeSlab r.region c
          | none => leaves.foldl (fun q l => q.releaseRange r l) q) (futureHandle r.owner)))) ∧
    (∀ (h : Word) (y : BitVec 10 × Nat) (c : Cmd), (s.tile y.1).cmds[y.2]? = some c → c.cancelled = true →
      c.fibre = fibreHandle h → s.tryFree h = s) ∧
    (∀ (r : BitVec 16) (c : BitVec 4),
      let x := s.scopeCopy r c
      x.state = 2 → s.scopeInFlight r c x.gen = false →
      let y : ScopeCopy := { x with state := 0 }
      Does (.scopeDrain r c) s ((s.setScopeCopy r c y).pokeNat (s.scopeEntry r c) 8 y.word0))

/-! Events: engines, memory and freezing. -/

/-- How a running command reads and writes an operand that lies in one piece (R20, R131, R140, R376, R425): the bytes that
it reads are those at the homes, each with the mark of its check-code unit, and those that it writes stand at the homes, and
no other byte of memory changes. Stores of its tile to the same place that are on their way are performed first. The bytes of
a tile's own array, registers included, are read and written in the same way. -/
def Sys2Proof.Claims.OperandBytes : Prop :=
  ∀ (s u : State) (t : BitVec 10) (c : Cmd) (va : Word) (n : Nat) (x : Span) (bs : List EByte),
    let q := u.drainStep t x.pa x.len
    let pa := q.spanAt x
    (s.cmdSpan t c va.toNat n .read = .ok (u, x) → x.len = n → 0 < n → (home? pa).isSome = true →
      ∃ v l, readAll t c va n s = .ok (v, l) ∧ l.length = n ∧
        ∀ k (h : k < l.length), l[k] = (readByte q.mem (pa + k), poisoned q.poison (pa + k) 1)) ∧
    (s.cmdSpan t c va.toNat bs.length .write = .ok (u, x) → x.len = bs.length → bs ≠ [] →
      u.cmdWrites c x.entry = true → (home? (u.spanAt x)).isSome = true →
      ∃ v, writeAll t c va bs s = .ok v ∧ (∀ k (h : k < bs.length), readByte v.mem (pa + k) = bs[k].1) ∧
        SameOutside q v pa bs.length) ∧
    (let own := tileBase t.toNat + n
     (∀ k (h : k < bs.length), readByte (s.setRegBytes t n bs).mem (own + k) = bs[k].1) ∧
     SameOutside s (s.setRegBytes t n bs) own bs.length ∧
     ∀ m k, k < m → (s.regBytes t n m)[k]? = some (readByte s.mem (own + k), poisoned s.poison (own + k) 1))

/-- R359 to R363, R371 to R373: what the tile, matrix and attention commands write, in the terms of `OperandBytes`. `tld`
copies its rows to its tile register, and `tld.t` writes element k of memory row r to place r of register row k; `tst`, `ald`
and `ast` copy whole registers and accumulators; `mma` and `mma.s` write every element (i, j) of the accumulator, of 6 bytes,
as the old one and the groups of row i of ta and row j of tb give it; `arow` writes a vector register. `attn` writes row i of
its state rows as the row that has visited the tokens; `attn.fin` writes the finished outputs and says in `p7` whether the
row had seen a token. -/
def Sys2Proof.Claims.TileBytes : Prop :=
  ∀ (s a u v : State) (t : BitVec 10) (c : Cmd) (bs : List EByte) (all : Bool),
    let treg (q : State) (d : BitVec 4) : Nat := (q.tile t).tregOff c.thr d.toNat
    let acc (q : State) (d : BitVec 2) : Nat := (q.tile t).accOff c.thr d.toNat
    (ready t c .read c.opa 16384 s = .ok a → readSome t c c.opa 16384 a = .ok (u, bs, all) →
      (∀ d g f, c.insn = .tld d g f → runEffect t c s = .ok (u.setRegBytes t (treg u d) bs, all)) ∧
      (∀ d g f, c.insn = .tldT d g f → c.tags = [f] →
        let w := tileWidth f
        runEffect t c s = .ok (u.setRegBytes t (treg u d)
          (eJoin w (transposed w (eElems w bs) (eElems w (u.regBytes t (treg u d) 16384)))), all))) ∧
    (∀ (w r k : Nat) (new old : List EElem), new.length = 128 * (1024 / w) → old.length = new.length → r < 128 →
      k < 1024 / w → (transposed w new old)[r * (1024 / w) + k]? = new[k * 128 + r]?) ∧
    (∀ d g, c.insn = .tst d g → ready t c .write c.opa 16384 s = .ok a →
      runEffect t c s = (writeAll t c c.opa (a.regBytes t (treg a d) 16384) a).map fun q => (q, true)) ∧
    (∀ d g, c.insn = .ald d g → ready t c .read c.opa 98304 s = .ok a →
      readSome t c c.opa 98304 a = .ok (u, bs, all) → runEffect t c s = .ok (u.setRegBytes t (acc u d) bs, all)) ∧
    (∀ d g, c.insn = .ast d g → ready t c .write c.opa 98304 s = .ok a →
      runEffect t c s = (writeAll t c c.opa (a.regBytes t (acc a d) 98304) a).map fun q => (q, true)) ∧
    (∀ (d : BitVec 2) (ra rb : BitVec 4) (k : Option (BitVec 4)) (ta tb : BitVec 4), c.tags = [ta, tb] →
      (k = none ∧ c.insn = .mma d ra rb ∨ ∃ y, k = some y ∧ c.insn = .mmaS d ra rb y) →
      let groups (r : BitVec 4) (tag : BitVec 4) (i : Nat) : List (List Val) :=
        chunks (groupSize tag) ((eElems (tagWidth tag) (s.regBytes t (treg s r + 128 * i) 128)).map fun x => mmaVal tag x.1)
      let scale (y : BitVec 4) (p : Nat) : Nat := (readByte s.mem (tileBase t.toNat + treg s y + p)).toNat
      let scales (i j : Nat) : List (Nat × Nat) := match k with
        | some y => (List.range (min (1024 / tagWidth ta / 32) (1024 / tagWidth tb / 32))).map fun g =>
          (scale y (i * (1024 / tagWidth ta / 32) + g), scale y (1024 + j * (1024 / tagWidth tb / 32) + g))
        | none => []
      ∃ new, runEffect t c s = .ok (s.setRegBytes t (acc s d) new, true) ∧ new.length = 98304 ∧
        ∀ i j e, i < 128 → j < 128 → e < 6 →
          (new[6 * (128 * i + j) + e]?).map (·.1) =
            (leBytes 6 (mmaElem (ta = 8 || ta = 9) (readNat s.mem (tileBase t.toNat + acc s d + 6 * (128 * i + j)) 6)
              (groups ra ta i) (groups rb tb j) (scales i j)))[e]?) ∧
    (∀ (d : BitVec 5) (g : BitVec 2) (b : BitVec 5), c.insn = .arow d g b →
      let at' := tileBase t.toNat + acc s g + 6 * (128 * (c.opb.toNat % 128) + 32 * (c.opb.toNat / 128 % 4))
      (poisoned s.poison at' 192 = false → c.owned = true → ∃ x,
        runEffect t c s = .ok (s.modThread ⟨t, c.thr⟩ fun y => y.wv d x tagAcc48, true) ∧
        ∀ e, e < 32 → elem 64 x e = readNat s.mem (at' + 6 * e) 6) ∧
      (poisoned s.poison at' 192 = true → ∃ q, runEffect t c s = .ok (q, false) ∧ q.mem = s.mem)) ∧
    (∀ (dim n i : Nat) (toks : List Token) (q old : List EByte),
      let row := atSaddr c.desc + BitVec.ofNat 64 (rowSize dim * i)
      readAll t c (atQaddr c.desc + BitVec.ofNat 64 (4 * dim * i)) (4 * dim) s = .ok (a, q) →
      ((atInit c.desc = true ∧ u = a ∧ old = []) ∨
        (atInit c.desc = false ∧ readAll t c row (rowSize dim) a = .ok (u, old) ∧ rowD old = dim)) →
      let start := if atInit c.desc = true then Row.empty dim else rowOf old
      let out := visit ((eWords q).map fun x => f32 x.1) (atQpos c.desc + i) (atTau c.desc) toks start
      attnRows t c dim toks (n + 1) i s = (writeAll t c row (out.bytes dim (q.any (·.2) || old.any (·.2))) u).bind
        fun w => attnRows t c dim toks n (i + 1) w) ∧
    (∀ (g b : BitVec 5) (sc : BitVec 4) (x : Snapshot) (q w : State) (n : Nat) (toks : List Token) (bad : Bool),
      c.insn = .attn g b sc → c.snapshot = some x →
      let cx := c.opb1.toNat
      let dim := s.cdim cx
      ready t c .read (atQaddr c.desc) (atRows c.desc * 4 * dim) s = .ok a →
      ready t c .write (atSaddr c.desc) (atRows c.desc * rowSize dim) a = .ok q →
      ((atInit c.desc = true ∧ u = q ∧ n = atRows c.desc) ∨
        (atInit c.desc = false ∧ rowsPerformed t c dim (atRows c.desc) 0 q = .ok (u, n))) →
      let top := if n = 0 then 0 else min (min (atHi c.desc) x.valid) (atQpos c.desc + n)
      slabTokens t c cx x (top - atLo c.desc) (atLo c.desc) u = .ok (w, toks, bad) →
      runEffect t c s = attnRows t c dim toks (atRows c.desc) 0 (w.metPoison t c cx toks bad)) ∧
    (∀ (d g : BitVec 5) (q w z : State) (head rest : List EByte), c.insn = .attnFin d g →
      let dim := rowD head
      ready t c .read c.opa 16 s = .ok a → readAll t c c.opa 16 a = .ok (u, head) →
      ((head.drop 8).take 4).any (·.2) = false → 16 ≤ dim → dim ≤ 256 → dim % 16 = 0 →
      ready t c .read c.opa (16 + 4 * dim) u = .ok v → ready t c .write c.opd (4 * dim) v = .ok q →
      localPart t c .read (c.opa + 16) (4 * dim) q = (w, 4 * dim) →
      readAll t c (c.opa + 16) (4 * dim) w = .ok (z, rest) →
      let r := rowOf (head ++ rest)
      let bad := (head.take 8).any (·.2)
      c.owned = true → runEffect t c s =
        (writeLocal t c ((r.finish.zip (eWords rest)).flatMap fun p => eBytes 4 (p.1, bad || p.2.2)) z).map
          fun y => (y.modThread ⟨t, c.thr⟩ fun p => p.wp 7 (!bad && !r.emptySum), true))

/-- R119, R387 to R391, R395, R425: what the copy commands write. `cpy` reads each beat whole and writes it at the same offset
of its destination, beats of 64 bytes in rising order; `cpy.t` and the decoding `promo` write what their input decodes to;
`cpy.mc` writes a beat at the same offset of each tile that can hold the whole destination; `gath` copies element i of its
list to place i of its area and `scat` place i to element i, in rising order. -/
def Sys2Proof.Claims.CopyBytes : Prop :=
  ∀ (s a b u v : State) (t : BitVec 10) (c : Cmd) (bs : List EByte) (p n : Nat),
    (ready t c .read (c.opa + BitVec.ofNat 64 p) n s = .ok a →
      (ready t c .write (c.opd + BitVec.ofNat 64 p) n a = .ok b →
        readAll t c (c.opa + BitVec.ofNat 64 p) n b = .ok (u, bs) →
        copyBeat t c p n s = (writeAll t c (c.opd + BitVec.ofNat 64 p) bs u).map fun q => q.reached t c (p + n)) ∧
      (readAll t c (c.opa + BitVec.ofNat 64 p) n a = .ok (u, bs) →
        (∀ l, cmdPieces t c .write n u (c.opd + BitVec.ofNat 64 p).toNat n = (v, l, true) →
          let off := windowOffset t c.opd + p
          let old := (v.cmdNow t c).trailAt off
          let w := (v.targets t c).foldl (fun q i => q.deliver t c i off old bs) v
          multicastBeat t c p n s = .ok ((w.setTrail t c (off + n) (old ++ bs.map (·.2))).reached t c (p + n))) ∧
        (∀ l, cmdPieces t c .write n u (c.opd + BitVec.ofNat 64 p).toNat n = (v, l, false) →
          multicastBeat t c p n s = .error (.cancel v)))) ∧
    (∀ (i : BitVec 10) (off : Nat) (old : List Bool),
      (∀ k (h : k < bs.length), readByte (s.deliver t c i off old bs).mem (tileBase i.toNat + off + k) = bs[k].1) ∧
      SameOutside s (s.deliver t c i off old bs) (tileBase i.toNat + off) bs.length) ∧
    (∀ out : List EByte, ready t c .write (c.opd + BitVec.ofNat 64 p) n s = .ok a →
      decodedBeat t c out p n s =
        (writeAll t c (c.opd + BitVec.ofNat 64 p) ((out.drop p).take n) a).map (fun q => q.reached t c (p + n)) ∧
      promoBeat t c out p n s = (oncePieces t c n a (c.opd + BitVec.ofNat 64 p).toNat ((out.drop p).take n)).map
        (fun q => q.reached t c (p + n))) ∧
    (∀ (f : Nat → Nat → State → Except EStop State) (stop k : Nat),
      (stop ≤ p → beats f stop k p s = .ok s) ∧
      (p < stop → f p (min 64 (stop - p)) s = .ok a →
        beats f stop (k + 1) p s = beats f stop k (p + min 64 (stop - p)) a)) ∧
    (c.cancelled = false →
      let len := c.opb.toNat
      (∀ d g e, c.insn = .cpy d g e → runEffect t c s =
        (beats (copyBeat t c) len (len / 64 + 2) c.progress s).map fun q => (q.reached t c len, true)) ∧
      (∀ d g e z x, c.insn = .cpyMc d g e z → c.sets = some x → runEffect t c s =
        (beats (multicastBeat t c) len (len / 64 + 2) c.progress s).map fun q =>
          let q := q.reached t c len
          (q, decide (len = 0 ∨ (q.targets t c).length = x.tileList.length))) ∧
      (∀ d g e out why all, c.insn = .cpyT d g e → decoded t c s = .ok (b, out, why, all) → runEffect t c s =
        (beats (decodedBeat t c out) out.length (out.length / 64 + 2) c.progress b).bind fun q =>
          decodedEnd t c why all (q.reached t c out.length)) ∧
      (∀ d g e k out why all, c.insn = .promo d g e k → c.opb1 ≠ 0 → decoded t c s = .ok (b, out, why, all) →
        runEffect t c s = (promoBeats t c out out.length (out.length / 128 + 2) c.progress b).bind fun q =>
          decodedEnd t c why all q)) ∧
    (∀ all, (s.cmdNow t c).output = none → ready t c .read c.opa c.opb.toNat s = .ok a →
      readSome t c c.opa c.opb.toNat a = .ok (u, bs, all) → ∃ q,
      decoded t c s = .ok (q, (transform c.opb1 bs).1, (transform c.opb1 bs).2, all) ∧ q.mem = u.mem) ∧
    (∀ e : GsElem,
      let m := gsElem c.desc
      let place := c.opd + BitVec.ofNat 64 (e.index * m)
      (gsPerforms t c .read e s = (a, true) → readAll t c e.addr m a = .ok (u, bs) →
        gathOne t c e s = (writeAll t c place (if e.bad = true then bs.map fun x => (x.1, true) else bs) u).map
          fun q => (q, true)) ∧
      (gsPerforms t c .read e s = (a, false) → gathOne t c e s = .ok (a, false)) ∧
      (gsPerforms t c .write e s = (a, true) → e.bad = false → readAll t c place m a = .ok (u, bs) →
        scatOne t c e s = (writeAll t c e.addr bs u).map fun q => (q, true)) ∧
      (∀ ok, gsPerforms t c .write e s = (a, ok) → (ok = false ∨ e.bad = true) → scatOne t c e s = .ok (a, false))) ∧
    (readAll t c (gsIdx c.desc) (8 * gsCount c.desc) s = .ok (a, bs) →
      let es := (chunks 8 bs).zipIdx.map fun x =>
        GsElem.mk x.2 (gsBase c.desc + BitVec.ofNat 64 (leNat (x.1.map (·.1)))) (x.1.any (·.2))
      (∀ d g, c.insn = .gath d g → gsReady t c .read es a = .ok b →
        runEffect t c s = gsEach (gathOne t c) es b) ∧
      (∀ d g, c.insn = .scat d g → gsReady t c .write es a = .ok b →
        runEffect t c s = gsEach (scatOne t c) es b))

/-- R378 to R386, R252: what the draw commands and `route` write. `rng` writes the words of its generator in order. `topk`
writes the size of the filtered set, the sum of its weights, and each member with its weight; `draw`, `drawv` and `accept`
write their status word, and the two-stage ones and `accept` a second word. `gmask` writes each logit whose mask bit is 1 and
the negative infinity of its format elsewhere. `route` writes for each token its K records, and sends its messages after it.
An empty set stops the activation with DRAW_EMPTY_SET. Of several clusters that include a draft token the one of the lowest
index is its own (log 85), and where a score is plus infinity top-p keeps the whole list (log 94): both are the model's
choices. -/
def Sys2Proof.Claims.DrawBytes : Prop :=
  ∀ (s a b u : State) (t : BitVec 10) (c : Cmd),
    let d := c.desc
    let put (l : List Byte) (bad : Bool) (q : State) : Effect :=
      (writeAll t c c.opd (l.map fun x => (x, bad)) q).map fun v => (v, true)
    let drawn (f : Reader → Drawn) : Prop := runEffect t c s = (f ⟨s, false⟩).bind fun x => put x.2 x.1.bad x.1.s
    (∀ g e, c.insn = .rng g e →
      runEffect t c s = put ((List.range (dwN d)).flatMap fun i => leBytes 4 (dwGen d i)) false s) ∧
    (∀ g e, c.insn = .topk g e → drawn (topkOut t c)) ∧
    (∀ g e, c.insn = .draw g e → drawn (drawOut t c)) ∧
    (∀ g e, c.insn = .drawv g e → drawn (twoOut t c false false)) ∧
    (∀ g e, c.insn = .accept g e →
      (dwMode d = 0 → drawn (twoOut t c true false)) ∧ (dwMode d = 1 → drawn (residualOut t c)) ∧
      (dwMode d = 2 → drawn (twoOut t c false true))) ∧
    (∀ (r q : Reader) (cs : List Cand), r.flat t c (dwLaddr d) = .ok (q, cs) →
      let ms := filterSet (dwTau d) (dwTopk d) (dwTopp d) cs
      (ms = [] → topkOut t c r = .error (.fault .drawEmptySet q.s) ∧ drawOut t c r = .error (.fault .drawEmptySet q.s)) ∧
      (ms ≠ [] →
        topkOut t c r = .ok (q, leBytes 4 ms.length ++ leBytes 4 (sum32 ((weights ms).map (·.2))) ++
          ms.flatMap fun x => leBytes 4 x.index ++ leBytes 4 x.weight) ∧
        drawOut t c r = .ok (q, leBytes 8 ((drawFrom (weights ms) (dwGen d 0)).1 % 2 ^ 32 +
          (if (drawFrom (weights ms) (dwGen d 0)).2 = true then 2 ^ 35 else 0) + min ms.length 4095 * 2 ^ 36)))) ∧
    (∀ (k : Block2) (h : List Val) (ks : List Cluster) (cset ms : List Member) (bonus : Bool) (r q : Reader),
      (cset = [] → drawTwo t c k h ks cset bonus r = .error (.fault .drawEmptySet r.s)) ∧
      (let j := (drawFrom (weights cset) (dwGen d 0)).1
       let x := ks[j]?.getD ⟨0, 0, 0⟩
       cset ≠ [] → tokenSet t c k h x r = .ok (q, ms) →
        (ms = [] → drawTwo t c k h ks cset bonus r = .error (.fault .drawEmptySet q.s)) ∧
        (ms ≠ [] →
          let y := drawFrom (weights ms) (dwGen d 1)
          drawTwo t c k h ks cset bonus r =
            .ok (q, status (x.first + y.1) false false bonus y.2 ms.length ++ leBytes 8 (j % 2 ^ 20))))) ∧
    (∀ g e (bs mask : List EByte) (ninf : Nat), c.insn = .gmask g e →
      let w := tagWidth (dwTag d) / 8
      let n := dwN d
      ready t c .read (dwLaddr d) (n * w) s = .ok a →
      ((dwMaddr d = 0 ∧ b = a) ∨ (dwMaddr d ≠ 0 ∧ ready t c .read (dwMaddr d) ((n + 7) / 8) a = .ok b)) →
      readAll t c (dwLaddr d) (n * w) b = .ok (u, bs) →
      (∀ x : State, ((dwMaddr d = 0 ∧ x = u ∧ mask = []) ∨
          (dwMaddr d ≠ 0 ∧ readAll t c (dwMaddr d) ((n + 7) / 8) u = .ok (x, mask))) →
        (∃ f, tagFmt (dwTag d) = some f ∧ ninf = f.pack .rne (.inf true)) →
        let out := (chunks w bs).zipIdx.flatMap fun y =>
          let m := mask[y.2 / 8]?.getD (0, false)
          let on : Bool := dwMaddr d = 0 || m.1.getLsbD (y.2 % 8)
          (leBytes w (if on = true then leNat (y.1.map (·.1)) else ninf)).map fun z =>
            (z, y.1.any (·.2) || (decide (dwMaddr d ≠ 0) && m.2))
        runEffect t c s = (writeAll t c c.opd out x).map fun v => (v, true))) ∧
    (∀ g e z (q w x : State) (ls xs ds : List EByte), c.insn = .route g e z →
      let nl := logitBytes (rtTag d) (rtTokens d * rtExperts d)
      let nx := rtTokens d * rtRow d
      ready t c .read (rtLaddr d) nl s = .ok a → ready t c .read (rtXaddr d) nx a = .ok b →
      ready t c .read (rtDaddr d) (8 * rtExperts d) b = .ok u →
      readAll t c (rtLaddr d) nl u = .ok (q, ls) → readAll t c (rtXaddr d) nx q = .ok (w, xs) →
      readAll t c (rtDaddr d) (8 * rtExperts d) w = .ok (x, ds) →
      let rowl := nl / rtTokens d
      let all := (List.range (rtTokens d)).map fun n =>
        rtToken (fun p => x.destOkFor c.region (c.opb1 = 1) p) d n ((ls.drop (rowl * n)).take rowl)
          ((xs.drop (rtRow d * n)).take (rtRow d)) (eElems 64 ds)
      runEffect t c s = (writeAll t c c.opd (all.flatMap (·.1)) x).map fun y => ((all.flatMap (·.2.1)).foldl
        (fun q m => q.sendMessage t c.region m.dest m.arg 0 m.payload c.sets) y, all.all (·.2.2)))

/-- R208, R209, R392, R393: what `coll` and `ring` write. The parts of a `coll` that agree read their inputs in the order of
ranks, and each writes the result; element by element it folds them in that order, joins them (OP 3), or is the root's
(OP 4). A `ring` sends its rows at FWD to the next member, where they stand at RCV, a row with a poisoned byte poisoned whole,
and merges the rows that have arrived at RCV into those that it holds at HELD. That all members of a `coll` write in one step
is the model's reading (log 22). -/
def Sys2Proof.Claims.ExchangeBytes : Prop :=
  ∀ (s a u : State) (t : BitVec 10) (c : Cmd),
    (∀ (parts : List (BitVec 10 × Cmd)) (xs : List (List EByte)), c.members.contains t = true →
      s.firstColl t c = true → s.collParts c c.members = some parts →
      ((∀ i ∈ c.members, (s.cut i c.region).stopped = false) ∨ ∃ p ∈ parts, s.inStep p.1 p.2 = true) →
      collAgrees c c.members parts = true →
      collRead parts s = .ok (a, xs) →
      let root := (rankOf c.members (BitVec.ofNat 10 (collRoot c.desc))).getD 0
      finishColl t c s = collWrite (collResult c.desc root xs) parts (a.countAll c.region c.members)) ∧
    (∀ (i : BitVec 10) (e : Cmd) (r : List (BitVec 10 × Cmd)) (out : List EByte),
      writeAll i e (collDst e.desc) out s = .ok u →
      collWrite out ((i, e) :: r) s = collWrite out r (u.finishCmd i e true)) ∧
    (∀ (d : List Byte) (root : Nat) (xs : List (List EByte)) (x : List EByte) (r : List (List EByte)),
      (collOp d = 3 → collResult d root xs = xs.flatten) ∧
      (collOp d = 4 → collResult d root xs = xs[root]?.getD []) ∧
      (collOp d < 3 → xs = x :: r → collResult d root xs = eJoin (tagWidth (collTag d))
        (r.foldl (fun p y => collFold d p (eElems (tagWidth (collTag d)) y)) (eElems (tagWidth (collTag d)) x)))) ∧
    (∀ (members : List (BitVec 10)) (i : BitVec 10) (e : Cmd) (bs : List EByte), nextMember members t = some i →
      s.ringPart c i = some e → readAll t c (ringFwd c.desc) (ringBytes c.desc) s = .ok (a, bs) →
      let q := (a.countTransfer c.region t i).modCmd t c fun x => { x with emitted := true }
      writeAll i e (ringRcv e.desc) (smearRows (ringDim c.desc) bs) q = .ok u →
      ringSend t c members s = .ok ((u.dropWritten t i e (ringRcv e.desc) (ringBytes c.desc)).modCmd i e
        fun x => { x with progress := 1 })) ∧
    (∀ rcv held : List EByte, readAll t c (ringRcv c.desc) (ringBytes c.desc) s = .ok (a, rcv) →
      readAll t c (ringHeld c.desc) (ringBytes c.desc) a = .ok (u, held) →
      let n := rowSize (ringDim c.desc)
      ringMerge t c s = (writeAll t c (ringHeld c.desc)
        (List.zipWith (mergeBytes (ringDim c.desc)) (chunks n held) (chunks n rcv)).flatten u).map
          fun v => v.modCmd t c fun x => { x with progress := 2 })

/-- R75, R114, R116, R117, R119: a command that may start runs, one of a copy channel with the channel's word its own; one that
was cancelled before it started finishes cancelled; and a command that runs finishes with its effect, waits, or finishes
cancelled: of a reclaimed issuer, a command that does not stream takes no further effect (the model's reading, log 28), and a
stream that ends cancelled for any reason sets STOP (its reading, log 27). A running `rmove` ends with its move, `evict` when
no block is left that it waits for, and `coll` and `ring` as their exchange gives (log 22). R362: the effect of `azero` is
that every byte of the accumulator is zero, and no other byte of memory changes. What the other commands write is
`OperandBytes`, `TileBytes`, `CopyBytes`, `DrawBytes` and `ExchangeBytes`. -/
def Sys2Proof.Claims.EngineEvents : Prop :=
  ∀ (s : State) (t : BitVec 10) (n : Nat) (c : Cmd), (s.tile t).cmds[n]? = some c →
    (let q := s.asCommand c
     let d := q.footprint t c
     (q.scoreboard t).startable n d = true → usesChannel c.insn = false →
      Does (.engineCommandStart t n) s ((startEffect t { d with running := true }
        (q.modCmd t { d with running := true } fun _ => { d with running := true })).actsFor none)) ∧
    (let q := s.asCommand c
     let d := q.footprint t c
     (q.scoreboard t).startable n d = true → usesChannel c.insn = true →
      Does (.engineCommandStart t n) s ((startEffect t { d with running := true }
        ((q.modCmd t { d with running := true } fun _ => { d with running := true }).modTile t fun x =>
          x.setChannel (channelOf d.thr) ⟨d.opd.setWidth 56, d.thr, true, false, false, some d.thr⟩)).actsFor none)) ∧
    (c.running = false → c.cancelled = true → Does (.engineCommandFinish t n) s (s.finishCmd t c false)) ∧
    (∀ (q : State) (ok : Bool), c.running = true → (c.cancelled = false ∨ streams c.insn = true) →
      (match c.insn with
        | .rmove _ _ _ => False
        | .evict _ _ => False
        | .coll _ _ => False
        | .ring _ _ => False
        | _ => True) →
      (runEffect t c (s.asCommand c) = .ok (q, ok) →
        Does (.engineCommandFinish t n) s ((q.finishCmd t c ok).actsFor none)) ∧
      (runEffect t c (s.asCommand c) = .error (.wait q) → Does (.engineCommandFinish t n) s (q.actsFor none)) ∧
      (runEffect t c (s.asCommand c) = .error (.cancel q) → Does (.engineCommandFinish t n) s
        (((if usesChannel c.insn = true then q.stopChannel t c else q).finishCmd t c false).actsFor none))) ∧
    (let q := s.asCommand c
     c.running = true →
      (∀ a b e, c.insn = .rmove a b e → Does (.engineCommandFinish t n) s (q.actsFor none)) ∧
      (∀ a b, c.insn = .evict a b → c.cancelled = false →
        (c.blocks = [] → Does (.engineCommandFinish t n) s ((q.finishCmd t c (!c.skipped)).actsFor none)) ∧
        (c.blocks ≠ [] → Does (.engineCommandFinish t n) s (q.actsFor none))) ∧
      (∀ a e u, c.insn = .coll a e → c.cancelled = false → (finishColl t c q = .ok u ∨ finishColl t c q = .error (.wait u)) →
        Does (.engineCommandFinish t n) s (u.actsFor none)) ∧
      (∀ a e u, c.insn = .ring a e → c.cancelled = false →
        ((finishRing t c q = .ok u ∨ finishRing t c q = .error (.wait u)) →
          Does (.engineCommandFinish t n) s (u.actsFor none)) ∧
        (finishRing t c q = .error (.cancel u) →
          Does (.engineCommandFinish t n) s ((u.finishCmd t c false).actsFor none))) ∧
      (c.cancelled = true → streams c.insn = false → (∀ a b e, c.insn ≠ .rmove a b e) →
        Does (.engineCommandFinish t n) s ((q.finishCmd t c false).actsFor none))) ∧
    (∀ (d : BitVec 2), c.insn = .azero d →
      let pa := tileBase t.toNat + (s.tile t).accOff c.thr d.toNat
      ∃ q, runEffect t c s = .ok (q, true) ∧ (∀ k, k < 98304 → readByte q.mem (pa + k) = 0) ∧
        SameOutside s q pa 98304)

/-- R128, R134, R139, R140, R143, R149, R153, R157, R158: a walk leaves what its look-up leaves; a move begins on its channel,
does its next step where the homes have room for its records, and ends when the accesses that its entries translated are
over; a step that is not the last leaves FBASE up to 64 KiB further in the leaf and GEN, modulo 2^24, 1 higher (that GEN rises
at each step is the model's reading, log 19); a step of an `rmove` waits until its blocks are RESIDENT, and that the hardware
mover copies a block in any state is the model's reading (log 79); records of finished steps are removed; a compaction starts its next moves, or is
over where a run is free or no move helps, and the requests that wait for it are judged again (when they are is the model's
choice, log 10); a store room below its reserve asks for a batch; a free batch
returns; a block that is being fetched becomes RESIDENT with the bytes of its backing copy, and one that is being written
back leaves the fast tier, or leaves its backing copy poisoned where that fails (that a cellar copy with a poisoned line is
poisoned as a whole is the model's reading, log 11). -/
def Sys2Proof.Claims.MemoryEvents : Prop :=
  ∀ s : State,
    (∀ (t : BitVec 10) (r : BitVec 16) (va : BitVec 64) (q : State) (e : RangeEntry), va.toNat < 2 ^ 56 →
      (s.lookup t r va.toNat = .ok (q, e) → Does (.tableWalk t r va) s q) ∧
      (∀ k, s.lookup t r va.toNat = .error (k, q) → Does (.tableWalk t r va) s q)) ∧
    (∀ (n : Nat) (m : Move), s.moves[n]? = some m →
      (∀ l, s.moveLeaf m = some l → s.moveTurn n m = true →
        (m.started = false → Does (.moveStep n) s (s.beginMove n m)) ∧
        (m.started = true → m.limit ≤ m.fbase → Does (.moveStep n) s (s.tryFinish n m l)) ∧
        (m.started = true → m.fbase < m.limit →
          (∀ c ∈ lineHomes (imageOf m.oldOff m.fbase) (min 65536 (m.limit - m.fbase)), (s.cmem c).forward.length < 64) →
          (m.hard = true ∨ s.residency m.region l.entry m.fbase (min 65536 (m.limit - m.fbase)) = .ok ()) →
          Does (.moveStep n) s (s.stepMove n m l)) ∧
        (∀ u bs, m.started = true → m.fbase < m.limit → m.hard = false →
          s.residency m.region l.entry m.fbase (min 65536 (m.limit - m.fbase)) = .error (u, bs) →
          Does (.moveStep n) s u) ∧
        (let hi := min (m.fbase + 65536) m.limit
         let q := s.stepMove n m l
         hi < m.limit → m.limit ≤ 2 ^ 56 →
          readNat q.mem (l.addr + 40) 8 = hi ∧
          readNat q.mem (l.addr + 24) 8 / 2 ^ 16 % 2 ^ 24 = (l.entry.gen.toNat + 1) % 2 ^ 24)) ∧
      Does (.forwardRecordRemoval n) s (s.dropRecords fun f => s.recordDone m f)) ∧
    (∀ (d : BitVec 2) (k : BitVec 5), (s.die d).compact = some k → s.compacting d = false →
      ((s.die d).hasRun k.toNat = true ∨ s.nextShift d = none → Does (.compaction d k) s
        (s.modDie d fun x => { x with compact := none }).resumeGrowths) ∧
      (∀ f new l, (s.die d).hasRun k.toNat = false → s.nextShift d = some (f, new, l) → Does (.compaction d k) s
        ((s.modDie d fun x =>
          { x with freeRuns := removeFirst (fun y => decide (y = f)) x.freeRuns ++ splitRun f.first new.order f.order,
                   allocated := x.allocated ++ [new] }).startMoves l))) ∧
    (∀ d : BitVec 2, (s.die d).free < (s.die d).reserve.toNat → Does (.borrow d) s (s.askBatch d)) ∧
    (∀ (d : BitVec 2) (n : Nat) (b : Batch), (s.die d).borrowed[n]? = some b →
      (s.die d).freeRuns.contains ⟨b.base, 6⟩ = true → (s.die d).reserve.toNat + 64 ≤ (s.die d).free →
      Does (.batchReturn d n) s ((s.modDie d fun y =>
        { y with borrowed := y.borrowed.eraseIdx n,
                 freeRuns := removeFirst (fun z => decide (z = ⟨b.base, 6⟩)) y.freeRuns }).modDie b.peer fun y =>
          { y with lent := removeFirst (fun z => decide (z = ⟨d, b.base⟩)) y.lent,
                   freeRuns := mergeRun y.freeRuns 10 ⟨b.base, 6⟩ })) ∧
    (∀ (a : BitVec 52) (b : Block) (ok : Bool) (bad : List Nat), mfind s.blocks a.toNat = some b →
      (b.state = .fetching → b.evictPending = false →
        Does (.blockFetchComplete a ok bad) s
          ((((s.badLines b ok bad).foldl (fun q i => q.mark (a.toNat + 128 * i) 128)
            ((if b.btier = 1 then s.answered (s.copyAt b) 65536 else s).poke a.toNat (s.backingBytes b))).putBlock a.toNat
              { b with state := .resident, dirty := false, evictPending := false }).unparkResident)) ∧
      (b.state = .evicting →
        ((ok = true ∧ (b.btier = 2 → s.hub.driveWorks b.backing = true)) → Does (.writeBackComplete a ok) s
          (((s.writeBack a.toNat b).setBacking b (s.backingPoison a.toNat b)).reachNonres a.toNat b)) ∧
        ((ok = false ∨ b.btier = 2 ∧ s.hub.driveWorks b.backing = false) → Does (.writeBackComplete a ok) s
          ((s.setBacking b true).reachNonres a.toNat b))))

/-- R50, R212, R218 to R222, R408: a stop that reaches a tile first takes the stop of an activation whose budget has run out,
and then suspends its threads of the region, and the tile has stopped when its commands have finished and its stores have
been performed; the cut of a group of regions closes once every tile of each has stopped and the sums of the old colour
agree: they all freeze, a mailbox FREEZE of one of them is answered, and a thaw asked for before takes place; a freeze or a
thaw that a system handler asked for through RGNCTL takes place. That a FREEZE which comes after such a thaw is answered by
the next cut is the model's reading (log 23). -/
def Sys2Proof.Claims.FreezeEvents : Prop :=
  ∀ (s : State) (r q : BitVec 16) (t : BitVec 10) (x : Region), s.region? r = some x →
    (x.stopping = true → (s.tilesOf r).contains t = true → (s.cut t r).stopped = false →
      let u := (s.lastFaults t r).modTile t fun y => { y with threads := y.threads.map (Thread.stopFor r) }
      (u.drained t r = true → Does (.tileStop t r) s (u.modCut t r fun c =>
        { c with stopped := true, colour := !c.colour, stopcyc := s.cyc })) ∧
      (u.drained t r = false → Does (.tileStop t r) s u)) ∧
    (s.drained t r = true ↔ (∀ c ∈ (s.tile t).cmds, c.region ≠ r ∨ s.awaitsPartner t c = true) ∧
      ∀ a ∈ s.inflight, ¬(a.tile = t ∧ a.region = r)) ∧
    (let group := (s.group r).filter fun k => match s.region? k with
       | some y => y.stopping
       | none => false
     x.stopping = true → s.cutCloses group = true →
      let f := group.foldl (fun u k => u.freezeRegion k) s
      ∀ u, (f.hub.freezing = none ∧ u = f ∨
          (∃ k, f.hub.freezing = some k ∧
            (f.hub.mbxThaw = true ∨ group.contains k = false ∨ f.lastFreeze k = false) ∧ u = f) ∨
          ∃ k, f.hub.freezing = some k ∧ f.hub.mbxThaw = false ∧ group.contains k = true ∧ f.lastFreeze k = true ∧
            u = (f.modHub fun h => { h with freezing := none }).answer 0 []) →
        ∀ y, u.region? r = some y →
          (y.thawing = false → Does (.cutClose r) s u) ∧ (y.thawing = true → Does (.cutClose r) s (u.thaw r))) ∧
    (s.rgnctlOk q r = true →
      Does (.rgnctlFreeze q r) s (s.askFreeze r) ∧ Does (.rgnctlThaw q r) s (s.thaw r))

/-- R26, R112, R146, R149, R254, R259: a fetch that stops, and bits that are no instruction, stop the activation with
their cause. An error in an L1 line makes the line invalid; any other poisons the unit of HBM, of a cluster memory or of
an array. A host that does not answer loses the stores that are on their way to a line, and where there is none, the next
access that reads the line reads poison (which of the two an unanswered access is, is the model's reading, log 14). -/
def Obligations.ErrorEvents : Prop :=
  ∀ s : State,
    (s.self.active = true →
      (∀ q c a w, s.fetch s.cur = .stop q c a w → c ≠ .partialResidency →
        Does (.fetchStop c a (BitVec.ofNat 32 w)) s ((q.setInsn (BitVec.ofNat 32 w)).stop ⟨c, a, 0, none, none⟩)) ∧
      (∀ q w e, s.fetch s.cur = .word q w → decodeWord w = .error e →
        Does (.notAnInstruction (badCause e) (BitVec.ofNat 32 w)) s
          ((q.setInsn (BitVec.ofNat 32 w)).stop ⟨badCause e, 0, 0, none, none⟩))) ∧
    (∀ (a : BitVec 52) (h : Home), home? a.toNat = some h →
      (∀ t, Does (.uncorrectableError (.l1 t a)) s (s.dropLine t a.toNat)) ∧
      (h ≠ .host → Does (.uncorrectableError (.home a)) s (s.mark a.toNat 1)) ∧
      (h = .host →
        let line := a.toNat / 128 * 128
        ((∃ y ∈ s.inflight, y.pa / 128 * 128 = line) → Does (.hostAccessTimeout a) s
          { s with inflight := s.inflight.filter fun y => !decide (y.pa / 128 * 128 = line) }) ∧
        ((∀ y ∈ s.inflight, y.pa / 128 * 128 ≠ line) → poisoned s.poison line 128 = false →
          Does (.hostAccessTimeout a) s { s.mark line 1 with unanswered := s.unanswered ++ [line] })))

/-- Resets and bring-up (R31 to R36, R50). What a reset keeps, and that slot B is tried after slot A, is the model's reading
(log 35); where the slots of the tiles lie at READY is open (log 47). -/
def Obligations.ResetAndBringUp : Prop :=
  Claims.Resets ∧ Claims.BringUp

/-- What the host does through BAR0 and its windows (R40 to R47, R54, R55, R150, R151). That a gang
slot of a failed module fires without a message is log 40, that MBXDB and the message window read as 0 is log 77, and that the host holds each line that it accesses is log 78. -/
def Obligations.HostEvents : Prop :=
  Claims.HostActs ∧ Claims.GangActs

/-- Regions come and go, freeze and run again (R57, R218 to R223, R408). That a load refused for another reason loads nothing
and is answered with `Config.loadRefusal` is log 43. That a thaw asked for before the cut closes is remembered, that the
whole group thaws and that a THAW waits for a switch-in is log 23. -/
def Obligations.RegionEvents : Prop :=
  Claims.RegionMoves ∧ Claims.FreezeEvents

/-- What arrives at tiles and homes, and what ends there (R30, R67, R74, R75, R83, R121, R160, R161, R169,
R220, R321, R415). What is the
model's own in them is log 25, 37, 38, 46, 74, 78 and 80. -/
def Obligations.Arrivals : Prop :=
  Claims.ArrivalEvents ∧ Claims.Endings

/-- Engine commands that start and finish (R75, R114, R116, R117), and the events of the memory system
(R119, R140, R141). The GEN of a range that moves is log 19, and when a request that waits for room is judged again is
log 10. STOP on any stream that ends cancelled is log 27, no further effect of a cancelled command without a channel log 28,
the poison of a write-back log 11, and a `coll` in one step log 22. -/
def Obligations.EngineAndMemoryEvents : Prop :=
  Claims.OperandBytes ∧ Claims.TileBytes ∧ Claims.CopyBytes ∧ Claims.DrawBytes ∧ Claims.ExchangeBytes ∧ Claims.EngineEvents ∧ Claims.MemoryEvents
end

