-- ==== Sys2Proof/Laws/Sparse.lean ====
section
/-! SUPPORT. Sparse tables and memory: reading after writing, and the canonical form. -/

namespace Sys2Proof.Machine

@[simp] theorem mget_mset {α : Type} (d a : α) (l : List (Nat × α)) (k j : Nat) :
    mget d (mset l k a) j = if k = j then a else mget d l j := by
  induction l with
  | nil => rfl
  | cons x l ih =>
    obtain ⟨i, b⟩ := x
    unfold mset
    split
    · simp [mget]
    · split
      · subst i; simp only [mget]; split <;> simp
      · simp only [mget, ih]
        split
        · rw [if_neg]; omega
        · rfl

@[simp] theorem mfind_mset {α : Type} (a : α) (l : List (Nat × α)) (k j : Nat) :
    mfind (mset l k a) j = if k = j then some a else mfind l j := by
  induction l with
  | nil => rfl
  | cons x l ih =>
    obtain ⟨i, b⟩ := x
    unfold mset
    split
    · simp [mfind]
    · split
      · subst i; simp only [mfind]; split <;> simp
      · simp only [mfind, ih]
        split
        · rw [if_neg]; omega
        · rfl

@[simp] theorem mget_mdel {α : Type} (d : α) (l : List (Nat × α)) (k j : Nat) :
    mget d (mdel l k) j = if k = j then d else mget d l j := by
  induction l with
  | nil => simp [mdel, mget]
  | cons x l ih =>
    obtain ⟨i, b⟩ := x
    unfold mdel
    split
    · subst i; simp only [mget, ih]; split <;> simp_all
    · simp only [mget, ih]
      split
      · rw [if_neg]; omega
      · rfl

@[simp] theorem mfind_mdel {α : Type} (l : List (Nat × α)) (k j : Nat) :
    mfind (mdel l k) j = if k = j then none else mfind l j := by
  induction l with
  | nil => simp [mdel, mfind]
  | cons x l ih =>
    obtain ⟨i, b⟩ := x
    unfold mdel
    split
    · subst i; simp only [mfind, ih]; split <;> simp_all
    · simp only [mfind, ih]
      split
      · rw [if_neg]; omega
      · rfl

/-! Bytes of memory. -/

@[simp] theorem readByte_writeByte (m : List Host.Cell) (a j : Nat) (b : Byte) :
    readByte (writeByte m a b) j = if a = j then b else readByte m j := by
  unfold writeByte readByte
  split
  · simp_all
  · simp

theorem readByte_writeBytes (bs : List Byte) (m : List Host.Cell) (a j : Nat) :
    readByte (writeBytes m a bs) j =
      if a ≤ j then (match bs[j - a]? with
        | some b => b
        | none => readByte m j) else readByte m j := by
  induction bs generalizing m a with
  | nil => simp [writeBytes]
  | cons b bs ih =>
    simp only [writeBytes, ih, readByte_writeByte]
    by_cases h : a + 1 ≤ j
    · have h1 : a ≤ j := by omega
      have h2 : j - a = (j - (a + 1)) + 1 := by omega
      have h3 : a ≠ j := by omega
      simp [h, h1, h2, h3]
    · by_cases h1 : a = j
      · subst h1; simp [show ¬ a + 1 ≤ a by omega]
      · have h2 : ¬ a ≤ j := by omega
        simp [h, h1, h2]

/-- A byte inside the bytes that are written reads as written. -/
theorem readByte_writeBytes_in (bs : List Byte) (m : List Host.Cell) (a i : Nat) (h : i < bs.length) :
    readByte (writeBytes m a bs) (a + i) = bs[i] := by
  simp [readByte_writeBytes, List.getElem?_eq_getElem h]

/-- A byte outside the bytes that are written reads as before. -/
theorem readByte_writeBytes_out (bs : List Byte) (m : List Host.Cell) (a j : Nat) (h : j < a ∨ a + bs.length ≤ j) :
    readByte (writeBytes m a bs) j = readByte m j := by
  rw [readByte_writeBytes]
  split
  · have : bs[j - a]? = none := List.getElem?_eq_none (by omega)
    rw [this]
  · rfl

@[simp] theorem readByte_zeroBytes (m : List Host.Cell) (lo hi j : Nat) :
    readByte (zeroBytes m lo hi) j = if lo ≤ j ∧ j < hi then 0 else readByte m j := by
  unfold zeroBytes readByte
  induction m with
  | nil => simp [mget, unlistedByte]
  | cons x m ih =>
    obtain ⟨i, b⟩ := x
    simp only [List.filter_cons]
    by_cases h : i < lo ∨ hi ≤ i
    · rw [if_pos (by simpa using h)]
      simp only [mget, ih]
      by_cases hj : i = j
      · subst hj
        have h' : ¬(lo ≤ i ∧ i < hi) := by omega
        simp [h']
      · simp [hj]
    · rw [if_neg (by simpa using h)]
      rw [ih]
      by_cases hj : i = j
      · subst hj
        have h' : lo ≤ i ∧ i < hi := by omega
        simp [h']
      · simp [mget, hj]

/-! The canonical form of memory. -/

theorem mset_bound {α : Type} (l : List (Nat × α)) (k : Nat) (a : α) (n : Nat) (hn : n < k)
    (h : ∀ x ∈ l, n < x.1) : ∀ x ∈ mset l k a, n < x.1 := by
  induction l with
  | nil => simpa [mset] using hn
  | cons y l ih =>
    obtain ⟨i, b⟩ := y
    unfold mset
    split
    · intro x hx
      rcases List.mem_cons.1 hx with rfl | hx
      · exact hn
      · exact h x hx
    · split
      · intro x hx
        rcases List.mem_cons.1 hx with rfl | hx
        · exact hn
        · exact h x (List.mem_cons_of_mem _ hx)
      · intro x hx
        rcases List.mem_cons.1 hx with rfl | hx
        · exact h _ (List.mem_cons_self ..)
        · exact ih (fun z hz => h z (List.mem_cons_of_mem _ hz)) x hx

theorem mset_sorted {α : Type} (l : List (Nat × α)) (k : Nat) (a : α) (h : l.Pairwise fun x y => x.1 < y.1) :
    (mset l k a).Pairwise fun x y => x.1 < y.1 := by
  induction l with
  | nil => simp [mset]
  | cons y l ih =>
    obtain ⟨i, b⟩ := y
    rw [List.pairwise_cons] at h
    unfold mset
    split
    · rename_i hk
      refine List.pairwise_cons.2 ⟨?_, List.pairwise_cons.2 h⟩
      intro x hx
      rcases List.mem_cons.1 hx with rfl | hx
      · exact hk
      · exact Nat.lt_trans hk (h.1 x hx)
    · split
      · rename_i hk
        subst hk
        exact List.pairwise_cons.2 h
      · exact List.pairwise_cons.2 ⟨mset_bound l k a i (by omega) h.1, ih h.2⟩

theorem mem_mset {α : Type} (l : List (Nat × α)) (k : Nat) (a : α) (x : Nat × α) (h : x ∈ mset l k a) :
    x = (k, a) ∨ x ∈ l := by
  induction l with
  | nil => simpa [mset] using h
  | cons y l ih =>
    obtain ⟨i, b⟩ := y
    unfold mset at h
    split at h
    · rcases List.mem_cons.1 h with rfl | h
      · exact .inl rfl
      · exact .inr h
    · split at h
      · rcases List.mem_cons.1 h with rfl | h
        · exact .inl rfl
        · exact .inr (List.mem_cons_of_mem _ h)
      · rcases List.mem_cons.1 h with rfl | h
        · exact .inr (List.mem_cons_self ..)
        · rcases ih h with h | h
          · exact .inl h
          · exact .inr (List.mem_cons_of_mem _ h)

theorem mdel_sublist {α : Type} (l : List (Nat × α)) (k : Nat) : (mdel l k).Sublist l := by
  induction l with
  | nil => exact List.Sublist.refl _
  | cons y l ih =>
    obtain ⟨i, b⟩ := y
    unfold mdel
    split
    · exact ih.cons _
    · exact ih.cons_cons _

theorem Memory.wf_sublist {m n : List Host.Cell} (h : m.Sublist n) (hn : Memory.wf n) : Memory.wf m :=
  ⟨hn.1.sublist h, fun c hc => hn.2 c (h.subset hc)⟩

theorem Memory.wf_nil : Memory.wf [] := by simp [Memory.wf]

theorem Memory.wf_writeByte {m : List Host.Cell} (h : Memory.wf m) (a : Nat) (b : Byte) : Memory.wf (writeByte m a b) := by
  unfold writeByte
  split
  · exact Memory.wf_sublist (mdel_sublist m a) h
  · rename_i hb
    refine ⟨mset_sorted m a b h.1, fun c hc => ?_⟩
    rcases mem_mset m a b c hc with rfl | hc
    · exact hb
    · exact h.2 c hc

theorem Memory.wf_writeBytes {m : List Host.Cell} (h : Memory.wf m) (a : Nat) (bs : List Byte) :
    Memory.wf (writeBytes m a bs) := by
  induction bs generalizing m a with
  | nil => exact h
  | cons b bs ih => exact ih (Memory.wf_writeByte h a b) (a + 1)

theorem Memory.wf_zeroBytes {m : List Host.Cell} (h : Memory.wf m) (lo hi : Nat) : Memory.wf (zeroBytes m lo hi) :=
  Memory.wf_sublist (List.filter_sublist) h

end Sys2Proof.Machine
end

