-- ==== Sys2Proof/Laws/State.lean ====
section
/-! SUPPORT. What the updates of the state leave unchanged: one lemma for each field of State that an update does not
touch, and what each update of a part of the state leaves in that part. -/

namespace Sys2Proof.Machine

/-! `setTile`. -/

@[simp] theorem State.setTile_agenda (s : State) (i : BitVec 10) (x : Tile) : (s.setTile i x).agenda = s.agenda := rfl
@[simp] theorem State.setTile_cur (s : State) (i : BitVec 10) (x : Tile) : (s.setTile i x).cur = s.cur := rfl
@[simp] theorem State.setTile_draws (s : State) (i : BitVec 10) (x : Tile) : (s.setTile i x).draws = s.draws := rfl
@[simp] theorem State.setTile_uids (s : State) (i : BitVec 10) (x : Tile) : (s.setTile i x).uids = s.uids := rfl
@[simp] theorem State.setTile_cyc (s : State) (i : BitVec 10) (x : Tile) : (s.setTile i x).cyc = s.cyc := rfl
@[simp] theorem State.setTile_time (s : State) (i : BitVec 10) (x : Tile) : (s.setTile i x).time = s.time := rfl
@[simp] theorem State.setTile_timeFrac (s : State) (i : BitVec 10) (x : Tile) : (s.setTile i x).timeFrac = s.timeFrac := rfl
@[simp] theorem State.setTile_clockMHz (s : State) (i : BitVec 10) (x : Tile) : (s.setTile i x).clockMHz = s.clockMHz := rfl
@[simp] theorem State.setTile_ppm (s : State) (i : BitVec 10) (x : Tile) : (s.setTile i x).ppm = s.ppm := rfl
@[simp] theorem State.setTile_synced (s : State) (i : BitVec 10) (x : Tile) : (s.setTile i x).synced = s.synced := rfl
@[simp] theorem State.setTile_hub (s : State) (i : BitVec 10) (x : Tile) : (s.setTile i x).hub = s.hub := rfl
@[simp] theorem State.setTile_mem (s : State) (i : BitVec 10) (x : Tile) : (s.setTile i x).mem = s.mem := rfl
@[simp] theorem State.setTile_cellar (s : State) (i : BitVec 10) (x : Tile) : (s.setTile i x).cellar = s.cellar := rfl
@[simp] theorem State.setTile_poison (s : State) (i : BitVec 10) (x : Tile) : (s.setTile i x).poison = s.poison := rfl
@[simp] theorem State.setTile_cmems (s : State) (i : BitVec 10) (x : Tile) : (s.setTile i x).cmems = s.cmems := rfl
@[simp] theorem State.setTile_dies (s : State) (i : BitVec 10) (x : Tile) : (s.setTile i x).dies = s.dies := rfl
@[simp] theorem State.setTile_regions (s : State) (i : BitVec 10) (x : Tile) : (s.setTile i x).regions = s.regions := rfl
@[simp] theorem State.setTile_blocks (s : State) (i : BitVec 10) (x : Tile) : (s.setTile i x).blocks = s.blocks := rfl
@[simp] theorem State.setTile_moves (s : State) (i : BitVec 10) (x : Tile) : (s.setTile i x).moves = s.moves := rfl
@[simp] theorem State.setTile_inflight (s : State) (i : BitVec 10) (x : Tile) : (s.setTile i x).inflight = s.inflight := rfl
@[simp] theorem State.setTile_net (s : State) (i : BitVec 10) (x : Tile) : (s.setTile i x).net = s.net := rfl
@[simp] theorem State.setTile_decs (s : State) (i : BitVec 10) (x : Tile) : (s.setTile i x).decs = s.decs := rfl
@[simp] theorem State.setTile_outbox (s : State) (i : BitVec 10) (x : Tile) : (s.setTile i x).outbox = s.outbox := rfl
@[simp] theorem State.setTile_reclaims (s : State) (i : BitVec 10) (x : Tile) : (s.setTile i x).reclaims = s.reclaims := rfl
@[simp] theorem State.setTile_releases (s : State) (i : BitVec 10) (x : Tile) : (s.setTile i x).releases = s.releases := rfl
@[simp] theorem State.setTile_acting (s : State) (i : BitVec 10) (x : Tile) : (s.setTile i x).acting = s.acting := rfl
@[simp] theorem State.setTile_unanswered (s : State) (i : BitVec 10) (x : Tile) : (s.setTile i x).unanswered = s.unanswered := rfl
@[simp] theorem State.setTile_hostLines (s : State) (i : BitVec 10) (x : Tile) : (s.setTile i x).hostLines = s.hostLines := rfl
@[simp] theorem State.setTile_forward (s : State) (i : BitVec 10) (x : Tile) : (s.setTile i x).forward = s.forward := rfl
@[simp] theorem State.setTile_heldDecs (s : State) (i : BitVec 10) (x : Tile) : (s.setTile i x).heldDecs = s.heldDecs := rfl
@[simp] theorem State.setTile_badBacking (s : State) (i : BitVec 10) (x : Tile) : (s.setTile i x).badBacking = s.badBacking := rfl
@[simp] theorem State.setTile_slotStores (s : State) (i : BitVec 10) (x : Tile) : (s.setTile i x).slotStores = s.slotStores := rfl

/-! `modTile`. -/

@[simp] theorem State.modTile_agenda (s : State) (i : BitVec 10) (f : Tile → Tile) : (s.modTile i f).agenda = s.agenda := rfl
@[simp] theorem State.modTile_cur (s : State) (i : BitVec 10) (f : Tile → Tile) : (s.modTile i f).cur = s.cur := rfl
@[simp] theorem State.modTile_draws (s : State) (i : BitVec 10) (f : Tile → Tile) : (s.modTile i f).draws = s.draws := rfl
@[simp] theorem State.modTile_uids (s : State) (i : BitVec 10) (f : Tile → Tile) : (s.modTile i f).uids = s.uids := rfl
@[simp] theorem State.modTile_cyc (s : State) (i : BitVec 10) (f : Tile → Tile) : (s.modTile i f).cyc = s.cyc := rfl
@[simp] theorem State.modTile_time (s : State) (i : BitVec 10) (f : Tile → Tile) : (s.modTile i f).time = s.time := rfl
@[simp] theorem State.modTile_timeFrac (s : State) (i : BitVec 10) (f : Tile → Tile) : (s.modTile i f).timeFrac = s.timeFrac := rfl
@[simp] theorem State.modTile_clockMHz (s : State) (i : BitVec 10) (f : Tile → Tile) : (s.modTile i f).clockMHz = s.clockMHz := rfl
@[simp] theorem State.modTile_ppm (s : State) (i : BitVec 10) (f : Tile → Tile) : (s.modTile i f).ppm = s.ppm := rfl
@[simp] theorem State.modTile_synced (s : State) (i : BitVec 10) (f : Tile → Tile) : (s.modTile i f).synced = s.synced := rfl
@[simp] theorem State.modTile_hub (s : State) (i : BitVec 10) (f : Tile → Tile) : (s.modTile i f).hub = s.hub := rfl
@[simp] theorem State.modTile_mem (s : State) (i : BitVec 10) (f : Tile → Tile) : (s.modTile i f).mem = s.mem := rfl
@[simp] theorem State.modTile_cellar (s : State) (i : BitVec 10) (f : Tile → Tile) : (s.modTile i f).cellar = s.cellar := rfl
@[simp] theorem State.modTile_poison (s : State) (i : BitVec 10) (f : Tile → Tile) : (s.modTile i f).poison = s.poison := rfl
@[simp] theorem State.modTile_cmems (s : State) (i : BitVec 10) (f : Tile → Tile) : (s.modTile i f).cmems = s.cmems := rfl
@[simp] theorem State.modTile_dies (s : State) (i : BitVec 10) (f : Tile → Tile) : (s.modTile i f).dies = s.dies := rfl
@[simp] theorem State.modTile_regions (s : State) (i : BitVec 10) (f : Tile → Tile) : (s.modTile i f).regions = s.regions := rfl
@[simp] theorem State.modTile_blocks (s : State) (i : BitVec 10) (f : Tile → Tile) : (s.modTile i f).blocks = s.blocks := rfl
@[simp] theorem State.modTile_moves (s : State) (i : BitVec 10) (f : Tile → Tile) : (s.modTile i f).moves = s.moves := rfl
@[simp] theorem State.modTile_inflight (s : State) (i : BitVec 10) (f : Tile → Tile) : (s.modTile i f).inflight = s.inflight := rfl
@[simp] theorem State.modTile_net (s : State) (i : BitVec 10) (f : Tile → Tile) : (s.modTile i f).net = s.net := rfl
@[simp] theorem State.modTile_decs (s : State) (i : BitVec 10) (f : Tile → Tile) : (s.modTile i f).decs = s.decs := rfl
@[simp] theorem State.modTile_outbox (s : State) (i : BitVec 10) (f : Tile → Tile) : (s.modTile i f).outbox = s.outbox := rfl
@[simp] theorem State.modTile_reclaims (s : State) (i : BitVec 10) (f : Tile → Tile) : (s.modTile i f).reclaims = s.reclaims := rfl
@[simp] theorem State.modTile_releases (s : State) (i : BitVec 10) (f : Tile → Tile) : (s.modTile i f).releases = s.releases := rfl
@[simp] theorem State.modTile_acting (s : State) (i : BitVec 10) (f : Tile → Tile) : (s.modTile i f).acting = s.acting := rfl
@[simp] theorem State.modTile_unanswered (s : State) (i : BitVec 10) (f : Tile → Tile) : (s.modTile i f).unanswered = s.unanswered := rfl
@[simp] theorem State.modTile_hostLines (s : State) (i : BitVec 10) (f : Tile → Tile) : (s.modTile i f).hostLines = s.hostLines := rfl
@[simp] theorem State.modTile_forward (s : State) (i : BitVec 10) (f : Tile → Tile) : (s.modTile i f).forward = s.forward := rfl
@[simp] theorem State.modTile_heldDecs (s : State) (i : BitVec 10) (f : Tile → Tile) : (s.modTile i f).heldDecs = s.heldDecs := rfl
@[simp] theorem State.modTile_badBacking (s : State) (i : BitVec 10) (f : Tile → Tile) : (s.modTile i f).badBacking = s.badBacking := rfl
@[simp] theorem State.modTile_slotStores (s : State) (i : BitVec 10) (f : Tile → Tile) : (s.modTile i f).slotStores = s.slotStores := rfl

/-! `modThread`. -/

@[simp] theorem State.modThread_agenda (s : State) (x : ThreadId) (f : Thread → Thread) : (s.modThread x f).agenda = s.agenda := rfl
@[simp] theorem State.modThread_cur (s : State) (x : ThreadId) (f : Thread → Thread) : (s.modThread x f).cur = s.cur := rfl
@[simp] theorem State.modThread_draws (s : State) (x : ThreadId) (f : Thread → Thread) : (s.modThread x f).draws = s.draws := rfl
@[simp] theorem State.modThread_uids (s : State) (x : ThreadId) (f : Thread → Thread) : (s.modThread x f).uids = s.uids := rfl
@[simp] theorem State.modThread_cyc (s : State) (x : ThreadId) (f : Thread → Thread) : (s.modThread x f).cyc = s.cyc := rfl
@[simp] theorem State.modThread_time (s : State) (x : ThreadId) (f : Thread → Thread) : (s.modThread x f).time = s.time := rfl
@[simp] theorem State.modThread_timeFrac (s : State) (x : ThreadId) (f : Thread → Thread) : (s.modThread x f).timeFrac = s.timeFrac := rfl
@[simp] theorem State.modThread_clockMHz (s : State) (x : ThreadId) (f : Thread → Thread) : (s.modThread x f).clockMHz = s.clockMHz := rfl
@[simp] theorem State.modThread_ppm (s : State) (x : ThreadId) (f : Thread → Thread) : (s.modThread x f).ppm = s.ppm := rfl
@[simp] theorem State.modThread_synced (s : State) (x : ThreadId) (f : Thread → Thread) : (s.modThread x f).synced = s.synced := rfl
@[simp] theorem State.modThread_hub (s : State) (x : ThreadId) (f : Thread → Thread) : (s.modThread x f).hub = s.hub := rfl
@[simp] theorem State.modThread_mem (s : State) (x : ThreadId) (f : Thread → Thread) : (s.modThread x f).mem = s.mem := rfl
@[simp] theorem State.modThread_cellar (s : State) (x : ThreadId) (f : Thread → Thread) : (s.modThread x f).cellar = s.cellar := rfl
@[simp] theorem State.modThread_poison (s : State) (x : ThreadId) (f : Thread → Thread) : (s.modThread x f).poison = s.poison := rfl
@[simp] theorem State.modThread_cmems (s : State) (x : ThreadId) (f : Thread → Thread) : (s.modThread x f).cmems = s.cmems := rfl
@[simp] theorem State.modThread_dies (s : State) (x : ThreadId) (f : Thread → Thread) : (s.modThread x f).dies = s.dies := rfl
@[simp] theorem State.modThread_regions (s : State) (x : ThreadId) (f : Thread → Thread) : (s.modThread x f).regions = s.regions := rfl
@[simp] theorem State.modThread_blocks (s : State) (x : ThreadId) (f : Thread → Thread) : (s.modThread x f).blocks = s.blocks := rfl
@[simp] theorem State.modThread_moves (s : State) (x : ThreadId) (f : Thread → Thread) : (s.modThread x f).moves = s.moves := rfl
@[simp] theorem State.modThread_inflight (s : State) (x : ThreadId) (f : Thread → Thread) : (s.modThread x f).inflight = s.inflight := rfl
@[simp] theorem State.modThread_net (s : State) (x : ThreadId) (f : Thread → Thread) : (s.modThread x f).net = s.net := rfl
@[simp] theorem State.modThread_decs (s : State) (x : ThreadId) (f : Thread → Thread) : (s.modThread x f).decs = s.decs := rfl
@[simp] theorem State.modThread_outbox (s : State) (x : ThreadId) (f : Thread → Thread) : (s.modThread x f).outbox = s.outbox := rfl
@[simp] theorem State.modThread_reclaims (s : State) (x : ThreadId) (f : Thread → Thread) : (s.modThread x f).reclaims = s.reclaims := rfl
@[simp] theorem State.modThread_releases (s : State) (x : ThreadId) (f : Thread → Thread) : (s.modThread x f).releases = s.releases := rfl
@[simp] theorem State.modThread_acting (s : State) (x : ThreadId) (f : Thread → Thread) : (s.modThread x f).acting = s.acting := rfl
@[simp] theorem State.modThread_unanswered (s : State) (x : ThreadId) (f : Thread → Thread) : (s.modThread x f).unanswered = s.unanswered := rfl
@[simp] theorem State.modThread_hostLines (s : State) (x : ThreadId) (f : Thread → Thread) : (s.modThread x f).hostLines = s.hostLines := rfl
@[simp] theorem State.modThread_forward (s : State) (x : ThreadId) (f : Thread → Thread) : (s.modThread x f).forward = s.forward := rfl
@[simp] theorem State.modThread_heldDecs (s : State) (x : ThreadId) (f : Thread → Thread) : (s.modThread x f).heldDecs = s.heldDecs := rfl
@[simp] theorem State.modThread_badBacking (s : State) (x : ThreadId) (f : Thread → Thread) : (s.modThread x f).badBacking = s.badBacking := rfl
@[simp] theorem State.modThread_slotStores (s : State) (x : ThreadId) (f : Thread → Thread) : (s.modThread x f).slotStores = s.slotStores := rfl

/-! `modSelf`. -/

@[simp] theorem State.modSelf_agenda (s : State) (f : Thread → Thread) : (s.modSelf f).agenda = s.agenda := rfl
@[simp] theorem State.modSelf_cur (s : State) (f : Thread → Thread) : (s.modSelf f).cur = s.cur := rfl
@[simp] theorem State.modSelf_draws (s : State) (f : Thread → Thread) : (s.modSelf f).draws = s.draws := rfl
@[simp] theorem State.modSelf_uids (s : State) (f : Thread → Thread) : (s.modSelf f).uids = s.uids := rfl
@[simp] theorem State.modSelf_cyc (s : State) (f : Thread → Thread) : (s.modSelf f).cyc = s.cyc := rfl
@[simp] theorem State.modSelf_time (s : State) (f : Thread → Thread) : (s.modSelf f).time = s.time := rfl
@[simp] theorem State.modSelf_timeFrac (s : State) (f : Thread → Thread) : (s.modSelf f).timeFrac = s.timeFrac := rfl
@[simp] theorem State.modSelf_clockMHz (s : State) (f : Thread → Thread) : (s.modSelf f).clockMHz = s.clockMHz := rfl
@[simp] theorem State.modSelf_ppm (s : State) (f : Thread → Thread) : (s.modSelf f).ppm = s.ppm := rfl
@[simp] theorem State.modSelf_synced (s : State) (f : Thread → Thread) : (s.modSelf f).synced = s.synced := rfl
@[simp] theorem State.modSelf_hub (s : State) (f : Thread → Thread) : (s.modSelf f).hub = s.hub := rfl
@[simp] theorem State.modSelf_mem (s : State) (f : Thread → Thread) : (s.modSelf f).mem = s.mem := rfl
@[simp] theorem State.modSelf_cellar (s : State) (f : Thread → Thread) : (s.modSelf f).cellar = s.cellar := rfl
@[simp] theorem State.modSelf_poison (s : State) (f : Thread → Thread) : (s.modSelf f).poison = s.poison := rfl
@[simp] theorem State.modSelf_cmems (s : State) (f : Thread → Thread) : (s.modSelf f).cmems = s.cmems := rfl
@[simp] theorem State.modSelf_dies (s : State) (f : Thread → Thread) : (s.modSelf f).dies = s.dies := rfl
@[simp] theorem State.modSelf_regions (s : State) (f : Thread → Thread) : (s.modSelf f).regions = s.regions := rfl
@[simp] theorem State.modSelf_blocks (s : State) (f : Thread → Thread) : (s.modSelf f).blocks = s.blocks := rfl
@[simp] theorem State.modSelf_moves (s : State) (f : Thread → Thread) : (s.modSelf f).moves = s.moves := rfl
@[simp] theorem State.modSelf_inflight (s : State) (f : Thread → Thread) : (s.modSelf f).inflight = s.inflight := rfl
@[simp] theorem State.modSelf_net (s : State) (f : Thread → Thread) : (s.modSelf f).net = s.net := rfl
@[simp] theorem State.modSelf_decs (s : State) (f : Thread → Thread) : (s.modSelf f).decs = s.decs := rfl
@[simp] theorem State.modSelf_outbox (s : State) (f : Thread → Thread) : (s.modSelf f).outbox = s.outbox := rfl
@[simp] theorem State.modSelf_reclaims (s : State) (f : Thread → Thread) : (s.modSelf f).reclaims = s.reclaims := rfl
@[simp] theorem State.modSelf_releases (s : State) (f : Thread → Thread) : (s.modSelf f).releases = s.releases := rfl
@[simp] theorem State.modSelf_acting (s : State) (f : Thread → Thread) : (s.modSelf f).acting = s.acting := rfl
@[simp] theorem State.modSelf_unanswered (s : State) (f : Thread → Thread) : (s.modSelf f).unanswered = s.unanswered := rfl
@[simp] theorem State.modSelf_hostLines (s : State) (f : Thread → Thread) : (s.modSelf f).hostLines = s.hostLines := rfl
@[simp] theorem State.modSelf_forward (s : State) (f : Thread → Thread) : (s.modSelf f).forward = s.forward := rfl
@[simp] theorem State.modSelf_heldDecs (s : State) (f : Thread → Thread) : (s.modSelf f).heldDecs = s.heldDecs := rfl
@[simp] theorem State.modSelf_badBacking (s : State) (f : Thread → Thread) : (s.modSelf f).badBacking = s.badBacking := rfl
@[simp] theorem State.modSelf_slotStores (s : State) (f : Thread → Thread) : (s.modSelf f).slotStores = s.slotStores := rfl

/-! `modHub`. -/

@[simp] theorem State.modHub_agenda (s : State) (f : Hub → Hub) : (s.modHub f).agenda = s.agenda := rfl
@[simp] theorem State.modHub_cur (s : State) (f : Hub → Hub) : (s.modHub f).cur = s.cur := rfl
@[simp] theorem State.modHub_draws (s : State) (f : Hub → Hub) : (s.modHub f).draws = s.draws := rfl
@[simp] theorem State.modHub_uids (s : State) (f : Hub → Hub) : (s.modHub f).uids = s.uids := rfl
@[simp] theorem State.modHub_cyc (s : State) (f : Hub → Hub) : (s.modHub f).cyc = s.cyc := rfl
@[simp] theorem State.modHub_time (s : State) (f : Hub → Hub) : (s.modHub f).time = s.time := rfl
@[simp] theorem State.modHub_timeFrac (s : State) (f : Hub → Hub) : (s.modHub f).timeFrac = s.timeFrac := rfl
@[simp] theorem State.modHub_clockMHz (s : State) (f : Hub → Hub) : (s.modHub f).clockMHz = s.clockMHz := rfl
@[simp] theorem State.modHub_ppm (s : State) (f : Hub → Hub) : (s.modHub f).ppm = s.ppm := rfl
@[simp] theorem State.modHub_synced (s : State) (f : Hub → Hub) : (s.modHub f).synced = s.synced := rfl
@[simp] theorem State.modHub_mem (s : State) (f : Hub → Hub) : (s.modHub f).mem = s.mem := rfl
@[simp] theorem State.modHub_cellar (s : State) (f : Hub → Hub) : (s.modHub f).cellar = s.cellar := rfl
@[simp] theorem State.modHub_poison (s : State) (f : Hub → Hub) : (s.modHub f).poison = s.poison := rfl
@[simp] theorem State.modHub_tiles (s : State) (f : Hub → Hub) : (s.modHub f).tiles = s.tiles := rfl
@[simp] theorem State.modHub_cmems (s : State) (f : Hub → Hub) : (s.modHub f).cmems = s.cmems := rfl
@[simp] theorem State.modHub_dies (s : State) (f : Hub → Hub) : (s.modHub f).dies = s.dies := rfl
@[simp] theorem State.modHub_regions (s : State) (f : Hub → Hub) : (s.modHub f).regions = s.regions := rfl
@[simp] theorem State.modHub_blocks (s : State) (f : Hub → Hub) : (s.modHub f).blocks = s.blocks := rfl
@[simp] theorem State.modHub_moves (s : State) (f : Hub → Hub) : (s.modHub f).moves = s.moves := rfl
@[simp] theorem State.modHub_inflight (s : State) (f : Hub → Hub) : (s.modHub f).inflight = s.inflight := rfl
@[simp] theorem State.modHub_net (s : State) (f : Hub → Hub) : (s.modHub f).net = s.net := rfl
@[simp] theorem State.modHub_decs (s : State) (f : Hub → Hub) : (s.modHub f).decs = s.decs := rfl
@[simp] theorem State.modHub_outbox (s : State) (f : Hub → Hub) : (s.modHub f).outbox = s.outbox := rfl
@[simp] theorem State.modHub_reclaims (s : State) (f : Hub → Hub) : (s.modHub f).reclaims = s.reclaims := rfl
@[simp] theorem State.modHub_releases (s : State) (f : Hub → Hub) : (s.modHub f).releases = s.releases := rfl
@[simp] theorem State.modHub_acting (s : State) (f : Hub → Hub) : (s.modHub f).acting = s.acting := rfl
@[simp] theorem State.modHub_unanswered (s : State) (f : Hub → Hub) : (s.modHub f).unanswered = s.unanswered := rfl
@[simp] theorem State.modHub_hostLines (s : State) (f : Hub → Hub) : (s.modHub f).hostLines = s.hostLines := rfl
@[simp] theorem State.modHub_forward (s : State) (f : Hub → Hub) : (s.modHub f).forward = s.forward := rfl
@[simp] theorem State.modHub_heldDecs (s : State) (f : Hub → Hub) : (s.modHub f).heldDecs = s.heldDecs := rfl
@[simp] theorem State.modHub_badBacking (s : State) (f : Hub → Hub) : (s.modHub f).badBacking = s.badBacking := rfl
@[simp] theorem State.modHub_slotStores (s : State) (f : Hub → Hub) : (s.modHub f).slotStores = s.slotStores := rfl

/-! `modDie`. -/

@[simp] theorem State.modDie_agenda (s : State) (d : BitVec 2) (f : Die → Die) : (s.modDie d f).agenda = s.agenda := rfl
@[simp] theorem State.modDie_cur (s : State) (d : BitVec 2) (f : Die → Die) : (s.modDie d f).cur = s.cur := rfl
@[simp] theorem State.modDie_draws (s : State) (d : BitVec 2) (f : Die → Die) : (s.modDie d f).draws = s.draws := rfl
@[simp] theorem State.modDie_uids (s : State) (d : BitVec 2) (f : Die → Die) : (s.modDie d f).uids = s.uids := rfl
@[simp] theorem State.modDie_cyc (s : State) (d : BitVec 2) (f : Die → Die) : (s.modDie d f).cyc = s.cyc := rfl
@[simp] theorem State.modDie_time (s : State) (d : BitVec 2) (f : Die → Die) : (s.modDie d f).time = s.time := rfl
@[simp] theorem State.modDie_timeFrac (s : State) (d : BitVec 2) (f : Die → Die) : (s.modDie d f).timeFrac = s.timeFrac := rfl
@[simp] theorem State.modDie_clockMHz (s : State) (d : BitVec 2) (f : Die → Die) : (s.modDie d f).clockMHz = s.clockMHz := rfl
@[simp] theorem State.modDie_ppm (s : State) (d : BitVec 2) (f : Die → Die) : (s.modDie d f).ppm = s.ppm := rfl
@[simp] theorem State.modDie_synced (s : State) (d : BitVec 2) (f : Die → Die) : (s.modDie d f).synced = s.synced := rfl
@[simp] theorem State.modDie_hub (s : State) (d : BitVec 2) (f : Die → Die) : (s.modDie d f).hub = s.hub := rfl
@[simp] theorem State.modDie_mem (s : State) (d : BitVec 2) (f : Die → Die) : (s.modDie d f).mem = s.mem := rfl
@[simp] theorem State.modDie_cellar (s : State) (d : BitVec 2) (f : Die → Die) : (s.modDie d f).cellar = s.cellar := rfl
@[simp] theorem State.modDie_poison (s : State) (d : BitVec 2) (f : Die → Die) : (s.modDie d f).poison = s.poison := rfl
@[simp] theorem State.modDie_tiles (s : State) (d : BitVec 2) (f : Die → Die) : (s.modDie d f).tiles = s.tiles := rfl
@[simp] theorem State.modDie_cmems (s : State) (d : BitVec 2) (f : Die → Die) : (s.modDie d f).cmems = s.cmems := rfl
@[simp] theorem State.modDie_regions (s : State) (d : BitVec 2) (f : Die → Die) : (s.modDie d f).regions = s.regions := rfl
@[simp] theorem State.modDie_blocks (s : State) (d : BitVec 2) (f : Die → Die) : (s.modDie d f).blocks = s.blocks := rfl
@[simp] theorem State.modDie_moves (s : State) (d : BitVec 2) (f : Die → Die) : (s.modDie d f).moves = s.moves := rfl
@[simp] theorem State.modDie_inflight (s : State) (d : BitVec 2) (f : Die → Die) : (s.modDie d f).inflight = s.inflight := rfl
@[simp] theorem State.modDie_net (s : State) (d : BitVec 2) (f : Die → Die) : (s.modDie d f).net = s.net := rfl
@[simp] theorem State.modDie_decs (s : State) (d : BitVec 2) (f : Die → Die) : (s.modDie d f).decs = s.decs := rfl
@[simp] theorem State.modDie_outbox (s : State) (d : BitVec 2) (f : Die → Die) : (s.modDie d f).outbox = s.outbox := rfl
@[simp] theorem State.modDie_reclaims (s : State) (d : BitVec 2) (f : Die → Die) : (s.modDie d f).reclaims = s.reclaims := rfl
@[simp] theorem State.modDie_releases (s : State) (d : BitVec 2) (f : Die → Die) : (s.modDie d f).releases = s.releases := rfl
@[simp] theorem State.modDie_acting (s : State) (d : BitVec 2) (f : Die → Die) : (s.modDie d f).acting = s.acting := rfl
@[simp] theorem State.modDie_unanswered (s : State) (d : BitVec 2) (f : Die → Die) : (s.modDie d f).unanswered = s.unanswered := rfl
@[simp] theorem State.modDie_hostLines (s : State) (d : BitVec 2) (f : Die → Die) : (s.modDie d f).hostLines = s.hostLines := rfl
@[simp] theorem State.modDie_forward (s : State) (d : BitVec 2) (f : Die → Die) : (s.modDie d f).forward = s.forward := rfl
@[simp] theorem State.modDie_heldDecs (s : State) (d : BitVec 2) (f : Die → Die) : (s.modDie d f).heldDecs = s.heldDecs := rfl
@[simp] theorem State.modDie_badBacking (s : State) (d : BitVec 2) (f : Die → Die) : (s.modDie d f).badBacking = s.badBacking := rfl
@[simp] theorem State.modDie_slotStores (s : State) (d : BitVec 2) (f : Die → Die) : (s.modDie d f).slotStores = s.slotStores := rfl

/-! `modCmem`. -/

@[simp] theorem State.modCmem_agenda (s : State) (c : Nat) (f : Cmem → Cmem) : (s.modCmem c f).agenda = s.agenda := rfl
@[simp] theorem State.modCmem_cur (s : State) (c : Nat) (f : Cmem → Cmem) : (s.modCmem c f).cur = s.cur := rfl
@[simp] theorem State.modCmem_draws (s : State) (c : Nat) (f : Cmem → Cmem) : (s.modCmem c f).draws = s.draws := rfl
@[simp] theorem State.modCmem_uids (s : State) (c : Nat) (f : Cmem → Cmem) : (s.modCmem c f).uids = s.uids := rfl
@[simp] theorem State.modCmem_cyc (s : State) (c : Nat) (f : Cmem → Cmem) : (s.modCmem c f).cyc = s.cyc := rfl
@[simp] theorem State.modCmem_time (s : State) (c : Nat) (f : Cmem → Cmem) : (s.modCmem c f).time = s.time := rfl
@[simp] theorem State.modCmem_timeFrac (s : State) (c : Nat) (f : Cmem → Cmem) : (s.modCmem c f).timeFrac = s.timeFrac := rfl
@[simp] theorem State.modCmem_clockMHz (s : State) (c : Nat) (f : Cmem → Cmem) : (s.modCmem c f).clockMHz = s.clockMHz := rfl
@[simp] theorem State.modCmem_ppm (s : State) (c : Nat) (f : Cmem → Cmem) : (s.modCmem c f).ppm = s.ppm := rfl
@[simp] theorem State.modCmem_synced (s : State) (c : Nat) (f : Cmem → Cmem) : (s.modCmem c f).synced = s.synced := rfl
@[simp] theorem State.modCmem_hub (s : State) (c : Nat) (f : Cmem → Cmem) : (s.modCmem c f).hub = s.hub := rfl
@[simp] theorem State.modCmem_mem (s : State) (c : Nat) (f : Cmem → Cmem) : (s.modCmem c f).mem = s.mem := rfl
@[simp] theorem State.modCmem_cellar (s : State) (c : Nat) (f : Cmem → Cmem) : (s.modCmem c f).cellar = s.cellar := rfl
@[simp] theorem State.modCmem_poison (s : State) (c : Nat) (f : Cmem → Cmem) : (s.modCmem c f).poison = s.poison := rfl
@[simp] theorem State.modCmem_tiles (s : State) (c : Nat) (f : Cmem → Cmem) : (s.modCmem c f).tiles = s.tiles := rfl
@[simp] theorem State.modCmem_dies (s : State) (c : Nat) (f : Cmem → Cmem) : (s.modCmem c f).dies = s.dies := rfl
@[simp] theorem State.modCmem_regions (s : State) (c : Nat) (f : Cmem → Cmem) : (s.modCmem c f).regions = s.regions := rfl
@[simp] theorem State.modCmem_blocks (s : State) (c : Nat) (f : Cmem → Cmem) : (s.modCmem c f).blocks = s.blocks := rfl
@[simp] theorem State.modCmem_moves (s : State) (c : Nat) (f : Cmem → Cmem) : (s.modCmem c f).moves = s.moves := rfl
@[simp] theorem State.modCmem_inflight (s : State) (c : Nat) (f : Cmem → Cmem) : (s.modCmem c f).inflight = s.inflight := rfl
@[simp] theorem State.modCmem_net (s : State) (c : Nat) (f : Cmem → Cmem) : (s.modCmem c f).net = s.net := rfl
@[simp] theorem State.modCmem_decs (s : State) (c : Nat) (f : Cmem → Cmem) : (s.modCmem c f).decs = s.decs := rfl
@[simp] theorem State.modCmem_outbox (s : State) (c : Nat) (f : Cmem → Cmem) : (s.modCmem c f).outbox = s.outbox := rfl
@[simp] theorem State.modCmem_reclaims (s : State) (c : Nat) (f : Cmem → Cmem) : (s.modCmem c f).reclaims = s.reclaims := rfl
@[simp] theorem State.modCmem_releases (s : State) (c : Nat) (f : Cmem → Cmem) : (s.modCmem c f).releases = s.releases := rfl
@[simp] theorem State.modCmem_acting (s : State) (c : Nat) (f : Cmem → Cmem) : (s.modCmem c f).acting = s.acting := rfl
@[simp] theorem State.modCmem_unanswered (s : State) (c : Nat) (f : Cmem → Cmem) : (s.modCmem c f).unanswered = s.unanswered := rfl
@[simp] theorem State.modCmem_hostLines (s : State) (c : Nat) (f : Cmem → Cmem) : (s.modCmem c f).hostLines = s.hostLines := rfl
@[simp] theorem State.modCmem_forward (s : State) (c : Nat) (f : Cmem → Cmem) : (s.modCmem c f).forward = s.forward := rfl
@[simp] theorem State.modCmem_heldDecs (s : State) (c : Nat) (f : Cmem → Cmem) : (s.modCmem c f).heldDecs = s.heldDecs := rfl
@[simp] theorem State.modCmem_badBacking (s : State) (c : Nat) (f : Cmem → Cmem) : (s.modCmem c f).badBacking = s.badBacking := rfl
@[simp] theorem State.modCmem_slotStores (s : State) (c : Nat) (f : Cmem → Cmem) : (s.modCmem c f).slotStores = s.slotStores := rfl

/-! What `modHub` and `modSelf` leave in their parts. -/

@[simp] theorem State.hub_modHub (s : State) (f : Hub → Hub) : (s.modHub f).hub = f s.hub := rfl
@[simp] theorem State.tile_modHub (s : State) (f : Hub → Hub) (i : BitVec 10) : (s.modHub f).tile i = s.tile i := rfl
@[simp] theorem State.thread_modHub (s : State) (f : Hub → Hub) (x : ThreadId) : (s.modHub f).thread x = s.thread x := rfl
@[simp] theorem State.self_modHub (s : State) (f : Hub → Hub) : (s.modHub f).self = s.self := rfl

/-! `actsFor`: which activation acts changes nothing else. -/

@[simp] theorem State.actsFor_acting (s : State) (e : Option Eff) : (s.actsFor e).acting = e := rfl
@[simp] theorem State.actsFor_agenda (s : State) (e : Option Eff) : (s.actsFor e).agenda = s.agenda := rfl
@[simp] theorem State.actsFor_cur (s : State) (e : Option Eff) : (s.actsFor e).cur = s.cur := rfl
@[simp] theorem State.actsFor_draws (s : State) (e : Option Eff) : (s.actsFor e).draws = s.draws := rfl
@[simp] theorem State.actsFor_uids (s : State) (e : Option Eff) : (s.actsFor e).uids = s.uids := rfl
@[simp] theorem State.actsFor_cyc (s : State) (e : Option Eff) : (s.actsFor e).cyc = s.cyc := rfl
@[simp] theorem State.actsFor_time (s : State) (e : Option Eff) : (s.actsFor e).time = s.time := rfl
@[simp] theorem State.actsFor_timeFrac (s : State) (e : Option Eff) : (s.actsFor e).timeFrac = s.timeFrac := rfl
@[simp] theorem State.actsFor_clockMHz (s : State) (e : Option Eff) : (s.actsFor e).clockMHz = s.clockMHz := rfl
@[simp] theorem State.actsFor_ppm (s : State) (e : Option Eff) : (s.actsFor e).ppm = s.ppm := rfl
@[simp] theorem State.actsFor_synced (s : State) (e : Option Eff) : (s.actsFor e).synced = s.synced := rfl
@[simp] theorem State.actsFor_hub (s : State) (e : Option Eff) : (s.actsFor e).hub = s.hub := rfl
@[simp] theorem State.actsFor_mem (s : State) (e : Option Eff) : (s.actsFor e).mem = s.mem := rfl
@[simp] theorem State.actsFor_cellar (s : State) (e : Option Eff) : (s.actsFor e).cellar = s.cellar := rfl
@[simp] theorem State.actsFor_poison (s : State) (e : Option Eff) : (s.actsFor e).poison = s.poison := rfl
@[simp] theorem State.actsFor_unanswered (s : State) (e : Option Eff) : (s.actsFor e).unanswered = s.unanswered := rfl
@[simp] theorem State.actsFor_hostLines (s : State) (e : Option Eff) : (s.actsFor e).hostLines = s.hostLines := rfl
@[simp] theorem State.actsFor_tiles (s : State) (e : Option Eff) : (s.actsFor e).tiles = s.tiles := rfl
@[simp] theorem State.actsFor_cmems (s : State) (e : Option Eff) : (s.actsFor e).cmems = s.cmems := rfl
@[simp] theorem State.actsFor_dies (s : State) (e : Option Eff) : (s.actsFor e).dies = s.dies := rfl
@[simp] theorem State.actsFor_regions (s : State) (e : Option Eff) : (s.actsFor e).regions = s.regions := rfl
@[simp] theorem State.actsFor_blocks (s : State) (e : Option Eff) : (s.actsFor e).blocks = s.blocks := rfl
@[simp] theorem State.actsFor_moves (s : State) (e : Option Eff) : (s.actsFor e).moves = s.moves := rfl
@[simp] theorem State.actsFor_forward (s : State) (e : Option Eff) : (s.actsFor e).forward = s.forward := rfl
@[simp] theorem State.actsFor_inflight (s : State) (e : Option Eff) : (s.actsFor e).inflight = s.inflight := rfl
@[simp] theorem State.actsFor_net (s : State) (e : Option Eff) : (s.actsFor e).net = s.net := rfl
@[simp] theorem State.actsFor_decs (s : State) (e : Option Eff) : (s.actsFor e).decs = s.decs := rfl
@[simp] theorem State.actsFor_heldDecs (s : State) (e : Option Eff) : (s.actsFor e).heldDecs = s.heldDecs := rfl
@[simp] theorem State.actsFor_badBacking (s : State) (e : Option Eff) : (s.actsFor e).badBacking = s.badBacking := rfl
@[simp] theorem State.actsFor_slotStores (s : State) (e : Option Eff) : (s.actsFor e).slotStores = s.slotStores := rfl
@[simp] theorem State.actsFor_outbox (s : State) (e : Option Eff) : (s.actsFor e).outbox = s.outbox := rfl
@[simp] theorem State.actsFor_reclaims (s : State) (e : Option Eff) : (s.actsFor e).reclaims = s.reclaims := rfl
@[simp] theorem State.actsFor_releases (s : State) (e : Option Eff) : (s.actsFor e).releases = s.releases := rfl
@[simp] theorem State.tile_actsFor (s : State) (e : Option Eff) (i : BitVec 10) : (s.actsFor e).tile i = s.tile i := rfl
@[simp] theorem State.thread_actsFor (s : State) (e : Option Eff) (x : ThreadId) : (s.actsFor e).thread x = s.thread x := rfl
@[simp] theorem State.self_actsFor (s : State) (e : Option Eff) : (s.actsFor e).self = s.self := rfl

/-! `Region.freeze`: what a request to stop changes of a region is only what is asked for. -/

@[simp] theorem Region.freeze_frozen (x : Region) : x.freeze.frozen = x.frozen := by
  unfold Region.freeze; split <;> try split
  all_goals rfl
@[simp] theorem Region.freeze_saved (x : Region) : x.freeze.saved = x.saved := by
  unfold Region.freeze; split <;> try split
  all_goals rfl
@[simp] theorem Region.freeze_unloading (x : Region) : x.freeze.unloading = x.unloading := by
  unfold Region.freeze; split <;> try split
  all_goals rfl
@[simp] theorem Region.freeze_rcb (x : Region) : x.freeze.rcb = x.rcb := by
  unfold Region.freeze; split <;> try split
  all_goals rfl
@[simp] theorem Region.freeze_tiles (x : Region) : x.freeze.tiles = x.tiles := by
  unfold Region.freeze; split <;> try split
  all_goals rfl

end Sys2Proof.Machine
end

