-- ==== Sys2Proof/Laws/Homes.lean ====
section
/-! SUPPORT. Accesses at their homes (R145): which lines a cluster memory keeps changes nothing else, and what a write at a
home leaves of memory; and what a translation changes. -/

namespace Sys2Proof.Machine

/-! `touch`. -/

/-- The lines that accesses use change the cluster memories and nothing else. -/
theorem State.touch_cmems (s : State) (pa n : Nat) (wr : Bool) : ∃ c, s.touch pa n wr = { s with cmems := c } := by
  unfold State.touch
  generalize hbmLines pa n = l
  induction l generalizing s with
  | nil => exact ⟨s.cmems, rfl⟩
  | cons a l ih => exact ih (s.modCmem (hbmHome a) fun m => m.touch a wr)

@[simp] theorem State.touch_agenda (s : State) (pa n : Nat) (wr : Bool) : (s.touch pa n wr).agenda = s.agenda := by
  obtain ⟨c, h⟩ := s.touch_cmems pa n wr; rw [h]
@[simp] theorem State.touch_cur (s : State) (pa n : Nat) (wr : Bool) : (s.touch pa n wr).cur = s.cur := by
  obtain ⟨c, h⟩ := s.touch_cmems pa n wr; rw [h]
@[simp] theorem State.touch_acting (s : State) (pa n : Nat) (wr : Bool) : (s.touch pa n wr).acting = s.acting := by
  obtain ⟨c, h⟩ := s.touch_cmems pa n wr; rw [h]
@[simp] theorem State.touch_draws (s : State) (pa n : Nat) (wr : Bool) : (s.touch pa n wr).draws = s.draws := by
  obtain ⟨c, h⟩ := s.touch_cmems pa n wr; rw [h]
@[simp] theorem State.touch_uids (s : State) (pa n : Nat) (wr : Bool) : (s.touch pa n wr).uids = s.uids := by
  obtain ⟨c, h⟩ := s.touch_cmems pa n wr; rw [h]
@[simp] theorem State.touch_cyc (s : State) (pa n : Nat) (wr : Bool) : (s.touch pa n wr).cyc = s.cyc := by
  obtain ⟨c, h⟩ := s.touch_cmems pa n wr; rw [h]
@[simp] theorem State.touch_time (s : State) (pa n : Nat) (wr : Bool) : (s.touch pa n wr).time = s.time := by
  obtain ⟨c, h⟩ := s.touch_cmems pa n wr; rw [h]
@[simp] theorem State.touch_timeFrac (s : State) (pa n : Nat) (wr : Bool) : (s.touch pa n wr).timeFrac = s.timeFrac := by
  obtain ⟨c, h⟩ := s.touch_cmems pa n wr; rw [h]
@[simp] theorem State.touch_clockMHz (s : State) (pa n : Nat) (wr : Bool) : (s.touch pa n wr).clockMHz = s.clockMHz := by
  obtain ⟨c, h⟩ := s.touch_cmems pa n wr; rw [h]
@[simp] theorem State.touch_ppm (s : State) (pa n : Nat) (wr : Bool) : (s.touch pa n wr).ppm = s.ppm := by
  obtain ⟨c, h⟩ := s.touch_cmems pa n wr; rw [h]
@[simp] theorem State.touch_synced (s : State) (pa n : Nat) (wr : Bool) : (s.touch pa n wr).synced = s.synced := by
  obtain ⟨c, h⟩ := s.touch_cmems pa n wr; rw [h]
@[simp] theorem State.touch_hub (s : State) (pa n : Nat) (wr : Bool) : (s.touch pa n wr).hub = s.hub := by
  obtain ⟨c, h⟩ := s.touch_cmems pa n wr; rw [h]
@[simp] theorem State.touch_mem (s : State) (pa n : Nat) (wr : Bool) : (s.touch pa n wr).mem = s.mem := by
  obtain ⟨c, h⟩ := s.touch_cmems pa n wr; rw [h]
@[simp] theorem State.touch_cellar (s : State) (pa n : Nat) (wr : Bool) : (s.touch pa n wr).cellar = s.cellar := by
  obtain ⟨c, h⟩ := s.touch_cmems pa n wr; rw [h]
@[simp] theorem State.touch_poison (s : State) (pa n : Nat) (wr : Bool) : (s.touch pa n wr).poison = s.poison := by
  obtain ⟨c, h⟩ := s.touch_cmems pa n wr; rw [h]
@[simp] theorem State.touch_unanswered (s : State) (pa n : Nat) (wr : Bool) : (s.touch pa n wr).unanswered = s.unanswered := by
  obtain ⟨c, h⟩ := s.touch_cmems pa n wr; rw [h]
@[simp] theorem State.touch_hostLines (s : State) (pa n : Nat) (wr : Bool) : (s.touch pa n wr).hostLines = s.hostLines := by
  obtain ⟨c, h⟩ := s.touch_cmems pa n wr; rw [h]
@[simp] theorem State.touch_tiles (s : State) (pa n : Nat) (wr : Bool) : (s.touch pa n wr).tiles = s.tiles := by
  obtain ⟨c, h⟩ := s.touch_cmems pa n wr; rw [h]
@[simp] theorem State.touch_dies (s : State) (pa n : Nat) (wr : Bool) : (s.touch pa n wr).dies = s.dies := by
  obtain ⟨c, h⟩ := s.touch_cmems pa n wr; rw [h]
@[simp] theorem State.touch_regions (s : State) (pa n : Nat) (wr : Bool) : (s.touch pa n wr).regions = s.regions := by
  obtain ⟨c, h⟩ := s.touch_cmems pa n wr; rw [h]
@[simp] theorem State.touch_blocks (s : State) (pa n : Nat) (wr : Bool) : (s.touch pa n wr).blocks = s.blocks := by
  obtain ⟨c, h⟩ := s.touch_cmems pa n wr; rw [h]
@[simp] theorem State.touch_moves (s : State) (pa n : Nat) (wr : Bool) : (s.touch pa n wr).moves = s.moves := by
  obtain ⟨c, h⟩ := s.touch_cmems pa n wr; rw [h]
@[simp] theorem State.touch_forward (s : State) (pa n : Nat) (wr : Bool) : (s.touch pa n wr).forward = s.forward := by
  obtain ⟨c, h⟩ := s.touch_cmems pa n wr; rw [h]
@[simp] theorem State.touch_inflight (s : State) (pa n : Nat) (wr : Bool) : (s.touch pa n wr).inflight = s.inflight := by
  obtain ⟨c, h⟩ := s.touch_cmems pa n wr; rw [h]
@[simp] theorem State.touch_net (s : State) (pa n : Nat) (wr : Bool) : (s.touch pa n wr).net = s.net := by
  obtain ⟨c, h⟩ := s.touch_cmems pa n wr; rw [h]
@[simp] theorem State.touch_decs (s : State) (pa n : Nat) (wr : Bool) : (s.touch pa n wr).decs = s.decs := by
  obtain ⟨c, h⟩ := s.touch_cmems pa n wr; rw [h]
@[simp] theorem State.touch_heldDecs (s : State) (pa n : Nat) (wr : Bool) : (s.touch pa n wr).heldDecs = s.heldDecs := by
  obtain ⟨c, h⟩ := s.touch_cmems pa n wr; rw [h]
@[simp] theorem State.touch_badBacking (s : State) (pa n : Nat) (wr : Bool) : (s.touch pa n wr).badBacking = s.badBacking := by
  obtain ⟨c, h⟩ := s.touch_cmems pa n wr; rw [h]
@[simp] theorem State.touch_slotStores (s : State) (pa n : Nat) (wr : Bool) : (s.touch pa n wr).slotStores = s.slotStores := by
  obtain ⟨c, h⟩ := s.touch_cmems pa n wr; rw [h]
@[simp] theorem State.touch_outbox (s : State) (pa n : Nat) (wr : Bool) : (s.touch pa n wr).outbox = s.outbox := by
  obtain ⟨c, h⟩ := s.touch_cmems pa n wr; rw [h]
@[simp] theorem State.touch_reclaims (s : State) (pa n : Nat) (wr : Bool) : (s.touch pa n wr).reclaims = s.reclaims := by
  obtain ⟨c, h⟩ := s.touch_cmems pa n wr; rw [h]
@[simp] theorem State.touch_releases (s : State) (pa n : Nat) (wr : Bool) : (s.touch pa n wr).releases = s.releases := by
  obtain ⟨c, h⟩ := s.touch_cmems pa n wr; rw [h]
@[simp] theorem State.tile_touch (s : State) (pa n : Nat) (wr : Bool) (i : BitVec 10) :
    (s.touch pa n wr).tile i = s.tile i := by simp [State.tile]
@[simp] theorem State.thread_touch (s : State) (pa n : Nat) (wr : Bool) (x : ThreadId) :
    (s.touch pa n wr).thread x = s.thread x := by simp [State.thread]
@[simp] theorem State.self_touch (s : State) (pa n : Nat) (wr : Bool) : (s.touch pa n wr).self = s.self := by
  simp [State.self]

/-! `poke`. -/

@[simp] theorem State.poke_mem (s : State) (pa : Nat) (bs : List Byte) : (s.poke pa bs).mem = writeBytes s.mem pa bs := rfl
@[simp] theorem State.poke_hostLines (s : State) (pa : Nat) (bs : List Byte) :
    (s.poke pa bs).hostLines = snooped s.hostLines pa bs.length := rfl
@[simp] theorem State.poke_poison (s : State) (pa : Nat) (bs : List Byte) :
    (s.poke pa bs).poison = clearPoison s.poison pa bs.length := rfl
@[simp] theorem State.poke_agenda (s : State) (pa : Nat) (bs : List Byte) : (s.poke pa bs).agenda = s.agenda := by simp [State.poke]
@[simp] theorem State.poke_cur (s : State) (pa : Nat) (bs : List Byte) : (s.poke pa bs).cur = s.cur := by simp [State.poke]
@[simp] theorem State.poke_acting (s : State) (pa : Nat) (bs : List Byte) : (s.poke pa bs).acting = s.acting := by simp [State.poke]
@[simp] theorem State.poke_draws (s : State) (pa : Nat) (bs : List Byte) : (s.poke pa bs).draws = s.draws := by simp [State.poke]
@[simp] theorem State.poke_uids (s : State) (pa : Nat) (bs : List Byte) : (s.poke pa bs).uids = s.uids := by simp [State.poke]
@[simp] theorem State.poke_cyc (s : State) (pa : Nat) (bs : List Byte) : (s.poke pa bs).cyc = s.cyc := by simp [State.poke]
@[simp] theorem State.poke_time (s : State) (pa : Nat) (bs : List Byte) : (s.poke pa bs).time = s.time := by simp [State.poke]
@[simp] theorem State.poke_timeFrac (s : State) (pa : Nat) (bs : List Byte) : (s.poke pa bs).timeFrac = s.timeFrac := by simp [State.poke]
@[simp] theorem State.poke_clockMHz (s : State) (pa : Nat) (bs : List Byte) : (s.poke pa bs).clockMHz = s.clockMHz := by simp [State.poke]
@[simp] theorem State.poke_ppm (s : State) (pa : Nat) (bs : List Byte) : (s.poke pa bs).ppm = s.ppm := by simp [State.poke]
@[simp] theorem State.poke_synced (s : State) (pa : Nat) (bs : List Byte) : (s.poke pa bs).synced = s.synced := by simp [State.poke]
@[simp] theorem State.poke_hub (s : State) (pa : Nat) (bs : List Byte) : (s.poke pa bs).hub = s.hub := by simp [State.poke]
@[simp] theorem State.poke_cellar (s : State) (pa : Nat) (bs : List Byte) : (s.poke pa bs).cellar = s.cellar := by simp [State.poke]
@[simp] theorem State.poke_unanswered (s : State) (pa : Nat) (bs : List Byte) : (s.poke pa bs).unanswered = s.unanswered := by simp [State.poke]
@[simp] theorem State.poke_tiles (s : State) (pa : Nat) (bs : List Byte) : (s.poke pa bs).tiles = s.tiles := by simp [State.poke]
@[simp] theorem State.poke_dies (s : State) (pa : Nat) (bs : List Byte) : (s.poke pa bs).dies = s.dies := by simp [State.poke]
@[simp] theorem State.poke_regions (s : State) (pa : Nat) (bs : List Byte) : (s.poke pa bs).regions = s.regions := by simp [State.poke]
@[simp] theorem State.poke_blocks (s : State) (pa : Nat) (bs : List Byte) : (s.poke pa bs).blocks = s.blocks := by simp [State.poke]
@[simp] theorem State.poke_moves (s : State) (pa : Nat) (bs : List Byte) : (s.poke pa bs).moves = s.moves := by simp [State.poke]
@[simp] theorem State.poke_forward (s : State) (pa : Nat) (bs : List Byte) : (s.poke pa bs).forward = s.forward := by simp [State.poke]
@[simp] theorem State.poke_inflight (s : State) (pa : Nat) (bs : List Byte) : (s.poke pa bs).inflight = s.inflight := by simp [State.poke]
@[simp] theorem State.poke_net (s : State) (pa : Nat) (bs : List Byte) : (s.poke pa bs).net = s.net := by simp [State.poke]
@[simp] theorem State.poke_decs (s : State) (pa : Nat) (bs : List Byte) : (s.poke pa bs).decs = s.decs := by simp [State.poke]
@[simp] theorem State.poke_heldDecs (s : State) (pa : Nat) (bs : List Byte) : (s.poke pa bs).heldDecs = s.heldDecs := by simp [State.poke]
@[simp] theorem State.poke_badBacking (s : State) (pa : Nat) (bs : List Byte) : (s.poke pa bs).badBacking = s.badBacking := by simp [State.poke]
@[simp] theorem State.poke_slotStores (s : State) (pa : Nat) (bs : List Byte) : (s.poke pa bs).slotStores = s.slotStores := by simp [State.poke]
@[simp] theorem State.poke_outbox (s : State) (pa : Nat) (bs : List Byte) : (s.poke pa bs).outbox = s.outbox := by simp [State.poke]
@[simp] theorem State.poke_reclaims (s : State) (pa : Nat) (bs : List Byte) : (s.poke pa bs).reclaims = s.reclaims := by simp [State.poke]
@[simp] theorem State.poke_releases (s : State) (pa : Nat) (bs : List Byte) : (s.poke pa bs).releases = s.releases := by simp [State.poke]
@[simp] theorem State.tile_poke (s : State) (pa : Nat) (bs : List Byte) (i : BitVec 10) : (s.poke pa bs).tile i = s.tile i := by
  simp [State.tile]
@[simp] theorem State.thread_poke (s : State) (pa : Nat) (bs : List Byte) (x : ThreadId) :
    (s.poke pa bs).thread x = s.thread x := by simp [State.thread]
@[simp] theorem State.self_poke (s : State) (pa : Nat) (bs : List Byte) : (s.poke pa bs).self = s.self := by simp [State.self]

/-- A byte that a write at a home covers reads as it was written. -/
theorem State.readByte_poke_in (s : State) (pa i : Nat) (bs : List Byte) (h : i < bs.length) :
    readByte (s.poke pa bs).mem (pa + i) = bs[i] := by
  rw [State.poke_mem]; exact readByte_writeBytes_in bs s.mem pa i h

/-- Every other byte reads as before. -/
theorem State.readByte_poke_out (s : State) (pa j : Nat) (bs : List Byte) (h : j < pa ∨ pa + bs.length ≤ j) :
    readByte (s.poke pa bs).mem j = readByte s.mem j := by
  rw [State.poke_mem]; exact readByte_writeBytes_out bs s.mem pa j h

/-! Walks of a range tree. -/

/-- A walk changes the cluster memories and nothing else. -/
theorem State.walkedFrom_cmems (va n : Nat) : ∀ (s : State) (node : Nat), ∃ c, s.walkedFrom va n node = { s with cmems := c } := by
  induction n with
  | zero => exact fun s _ => ⟨s.cmems, rfl⟩
  | succ n ih =>
    intro s node
    unfold State.walkedFrom
    obtain ⟨c, h⟩ := s.touch_cmems node 256 false
    simp only [h]
    split
    · exact ⟨c, rfl⟩
    · split
      · exact ⟨c, rfl⟩
      · split
        · obtain ⟨d, g⟩ := State.touch_cmems { s with cmems := c } _ 128 false
          exact ⟨d, g⟩
        · obtain ⟨d, g⟩ := ih { s with cmems := c } _
          exact ⟨d, g⟩

/-- A walk of a region's tree changes the cluster memories and nothing else. -/
theorem State.walked_cmems (s : State) (r : BitVec 16) (va : Nat) : ∃ c, s.walked r va = { s with cmems := c } :=
  State.walkedFrom_cmems va 14 s (s.rangeRoot r)

/-! Look-ups and translations (R131): they change the cluster memories and the range table of the tile, and nothing else. -/

theorem State.lookup_ok {s q : State} {t : BitVec 10} {r : BitVec 16} {va : Nat} {e : RangeEntry}
    (h : s.lookup t r va = .ok (q, e)) :
    ∃ c l, q = ({ s with cmems := c } : State).modTile t fun x => { x with rtable := l } := by
  unfold State.lookup at h
  simp only at h
  split at h
  · injection h with h; injection h with h _; exact ⟨s.cmems, _, h.symm⟩
  · split at h
    · injection h with h; injection h with h _
      obtain ⟨c, g⟩ := s.walked_cmems r va
      rw [g] at h
      exact ⟨c, _, h.symm⟩
    · cases h
    · cases h

theorem State.lookup_error {s q : State} {t : BitVec 10} {r : BitVec 16} {va : Nat} {k : Cause}
    (h : s.lookup t r va = .error (k, q)) : ∃ c, q = { s with cmems := c } := by
  unfold State.lookup at h
  simp only at h
  split at h
  · cases h
  · split at h
    · cases h
    all_goals
      injection h with h; injection h with _ h
      obtain ⟨c, g⟩ := s.walked_cmems r va
      exact ⟨c, by rw [← h, g]⟩

theorem State.translate_ok {s q : State} {t : BitVec 10} {r : BitVec 16} {who : List Word} {va : Word} {n : Nat} {k : Kind}
    {e : RangeEntry} (h : s.translate t r who va n k = .ok (q, e)) :
    ∃ c l, q = ({ s with cmems := c } : State).modTile t fun x => { x with rtable := l } := by
  unfold State.translate at h
  split at h
  · cases h
  · split at h
    · cases h
    · rename_i hl
      split at h
      · cases h
      · injection h with h; injection h with h _
        subst h
        exact State.lookup_ok hl

end Sys2Proof.Machine
end

