-- ==== Sys2Proof/Laws/Cache.lean ====
section
/-! SUPPORT. The L1 (R109, R110): lines that it loses change the tile's L1 and nothing else, so that what homes hold, what is
poisoned and where forward records send an access stay as they were. -/

namespace Sys2Proof.Machine

/-! `dropLine` and `dropBoth`. -/

@[simp] theorem State.dropLine_mem (s : State) (t : BitVec 10) (pa : Nat) : (s.dropLine t pa).mem = s.mem := rfl
@[simp] theorem State.dropLine_poison (s : State) (t : BitVec 10) (pa : Nat) : (s.dropLine t pa).poison = s.poison := rfl
@[simp] theorem State.dropLine_cmems (s : State) (t : BitVec 10) (pa : Nat) : (s.dropLine t pa).cmems = s.cmems := rfl
@[simp] theorem State.dropLine_inflight (s : State) (t : BitVec 10) (pa : Nat) : (s.dropLine t pa).inflight = s.inflight := rfl
@[simp] theorem State.dropLine_cur (s : State) (t : BitVec 10) (pa : Nat) : (s.dropLine t pa).cur = s.cur := rfl
@[simp] theorem State.forwarded_dropLine (s : State) (t : BitVec 10) (pa va qa : Nat) :
    (s.dropLine t pa).forwarded va qa = s.forwarded va qa := rfl

@[simp] theorem State.dropBoth_mem (s : State) (t : BitVec 10) (pa qa : Nat) : (s.dropBoth t pa qa).mem = s.mem := rfl
@[simp] theorem State.dropBoth_poison (s : State) (t : BitVec 10) (pa qa : Nat) : (s.dropBoth t pa qa).poison = s.poison := rfl
@[simp] theorem State.dropBoth_cmems (s : State) (t : BitVec 10) (pa qa : Nat) : (s.dropBoth t pa qa).cmems = s.cmems := rfl
@[simp] theorem State.dropBoth_inflight (s : State) (t : BitVec 10) (pa qa : Nat) : (s.dropBoth t pa qa).inflight = s.inflight := rfl
@[simp] theorem State.dropBoth_cur (s : State) (t : BitVec 10) (pa qa : Nat) : (s.dropBoth t pa qa).cur = s.cur := rfl
@[simp] theorem State.forwarded_dropBoth (s : State) (t : BitVec 10) (a b va pa : Nat) :
    (s.dropBoth t a b).forwarded va pa = s.forwarded va pa := rfl

/-- A line that the L1 has lost is not in it. -/
@[simp] theorem State.l1Line_dropLine (s : State) (t : BitVec 10) (pa : Nat) :
    ((s.dropLine t pa).tile t).l1Line pa = none := by
  simp [State.dropLine, State.modTile, State.setTile, State.tile, Tile.l1Line, List.find?_eq_none]

end Sys2Proof.Machine
end

