-- ==== Sys2Proof/Laws/Registers.lean ====
section
/-! SUPPORT. Tiles, threads and registers: reading after writing, and what a write leaves as it was. -/

namespace Sys2Proof.Machine

/-! Tiles and threads. -/

@[simp] theorem State.tile_setTile (s : State) (i j : BitVec 10) (x : Tile) :
    (s.setTile i x).tile j = if i = j then x else s.tile j := by
  simp only [State.tile, State.setTile, mget_mset, BitVec.toNat_inj]

@[simp] theorem State.tile_modTile (s : State) (i j : BitVec 10) (f : Tile → Tile) :
    (s.modTile i f).tile j = if i = j then f (s.tile j) else s.tile j := by
  simp only [State.modTile, State.tile_setTile]
  split
  · subst i; rfl
  · rfl

@[simp] theorem Tile.thread_setThread (t : Tile) (h k : BitVec 3) (x : Thread) :
    (t.setThread h x).thread k = if h = k then x else t.thread k := by
  simp only [Tile.thread, Tile.setThread, Vector.getElem_set, BitVec.toNat_inj]

@[simp] theorem State.thread_modThread (s : State) (x y : ThreadId) (f : Thread → Thread) :
    (s.modThread x f).thread y = if x = y then f (s.thread y) else s.thread y := by
  obtain ⟨i, h⟩ := x
  obtain ⟨j, k⟩ := y
  simp only [State.thread, State.modThread, State.tile_modTile, ThreadId.mk.injEq]
  by_cases hi : i = j
  · subst hi
    by_cases hh : h = k
    · subst hh; simp
    · simp [hh]
  · simp [hi]

@[simp] theorem State.self_modSelf (s : State) (f : Thread → Thread) : (s.modSelf f).self = f s.self := by
  simp [State.self, State.modSelf]

theorem State.tile_modSelf (s : State) (f : Thread → Thread) (i : BitVec 10) :
    (s.modSelf f).tile i =
      if s.cur.tile = i then (s.tile i).setThread s.cur.thread (f ((s.tile i).thread s.cur.thread)) else s.tile i := by
  simp [State.modSelf, State.modThread]

/-! Registers of a thread. -/

@[simp] theorem Thread.rg_wg (t : Thread) (d r : BitVec 5) (x : Word) :
    (t.wg d x).rg r = if r = d ∧ d ≠ 0 then x else t.rg r := by
  unfold Thread.wg Thread.rg
  by_cases hd : d = 0
  · simp [hd]
  · by_cases hr : r = 0
    · subst hr
      have h0 : ¬ (0 = d) := fun h => hd h.symm
      rw [if_pos rfl, if_neg (c := 0 = d ∧ d ≠ 0) (fun h => h0 h.1), if_pos rfl]
    · simp only [hd, hr, if_false, Vector.getElem_set, BitVec.toNat_inj, ne_eq, not_false_eq_true, and_true]
      by_cases h : d = r
      · simp [h]
      · simp [h, Ne.symm h]

@[simp] theorem Thread.rm_wm (t : Thread) (d r : BitVec 3) (x : Word) :
    (t.wm d x).rm r = if r = d ∧ d ≠ 0 then x else t.rm r := by
  unfold Thread.wm Thread.rm
  by_cases hd : d = 0
  · simp [hd]
  · by_cases hr : r = 0
    · subst hr
      have h0 : ¬ (0 = d) := fun h => hd h.symm
      rw [if_pos rfl, if_neg (c := 0 = d ∧ d ≠ 0) (fun h => h0 h.1), if_pos rfl]
    · simp only [hd, hr, if_false, Vector.getElem_set, BitVec.toNat_inj, ne_eq, not_false_eq_true, and_true]
      by_cases h : d = r
      · simp [h]
      · simp [h, Ne.symm h]

@[simp] theorem Thread.rp_wp (t : Thread) (d r : BitVec 3) (b : Bool) :
    (t.wp d b).rp r = if r = d ∧ d ≠ 0 then b else t.rp r := by
  unfold Thread.wp Thread.rp
  by_cases hd : d = 0
  · simp [hd]
  · by_cases hr : r = 0
    · subst hr
      have h0 : ¬ (0 = d) := fun h => hd h.symm
      rw [if_pos rfl, if_neg (c := 0 = d ∧ d ≠ 0) (fun h => h0 h.1), if_pos rfl]
    · have hlt : r.toNat < 8 := r.isLt
      have he : (r = d) ↔ (r.toNat = d.toNat) := BitVec.toNat_inj.symm
      cases b <;>
        simp only [hd, hr, if_false, if_true, Bool.false_eq_true, BitVec.getLsbD_or, BitVec.getLsbD_and, BitVec.getLsbD_not,
          BitVec.getLsbD_shiftLeft, he, ne_eq, not_false_eq_true, and_true, hlt, decide_true,
          Bool.true_and] <;>
        by_cases hx : r.toNat = d.toNat <;> simp [hx] <;> omega

@[simp] theorem Thread.rv_wv (t : Thread) (d r : BitVec 5) (x : VWord) (tag : BitVec 4) :
    (t.wv d x tag).rv r = if r = d then x else t.rv r := by
  simp only [Thread.wv, Thread.rv, Vector.getElem_set, BitVec.toNat_inj, eq_comm]

@[simp] theorem Thread.rtag_wv (t : Thread) (d r : BitVec 5) (x : VWord) (tag : BitVec 4) :
    (t.wv d x tag).rtag r = if r = d then tag else t.rtag r := by
  simp only [Thread.wv, Thread.rtag, Vector.getElem_set, BitVec.toNat_inj, eq_comm]

end Sys2Proof.Machine
end

