-- ==== Sys2Proof/Tests/Slice0.lean ====
section
/-! SUPPORT. Tests: the well-formedness smoke, words decoded bit by bit, single instructions on small states with
results worked out from the spec, and for each statement with hypotheses a state and operands that meet them. -/

namespace Sys2Proof.Tests

open Sys2Proof Sys2Proof.Machine Sys2Proof.Claims

set_option Elab.async false

/-! Well-formedness: a term that each check refuses. -/

theorem test_wf_timeSync : (Instr.timeSync 0 201 true).wf = false ∧ (Instr.timeSync 0 (-201) true).wf = false := by decide
theorem test_wf_hostMessage : (Instr.hostMessage 0xFFFF [0, 0]).wf = false := by decide
theorem test_wf_registerWrite : (Instr.registerWrite 0x1FFFF [0, 0]).wf = false := by decide
theorem test_wf_vadd16 : (Instr.vadd16 0 0 0).wf = false := by decide
theorem test_wf_cmp : (Instr.cmp 1 2 3 10).wf = false := by decide
theorem test_wf_cmpi : (Instr.cmpi 1 2 10 0).wf = false := by decide
theorem test_wf_amoW : (Instr.amoW 1 2 3 0 9).wf = false := by decide
theorem test_wf_amoD : (Instr.amoD 1 2 3 0 9).wf = false := by decide
theorem test_wf_scopeSet : (Instr.scopeSet 1 1).wf = false ∧ (Instr.scopeSet 1 14).wf = false := by decide
theorem test_wf_scopeRetire : (Instr.scopeRetire 1).wf = false ∧ (Instr.scopeRetire 14).wf = false := by decide
theorem test_wf_send : (Instr.send 31 1 2 0).wf = false := by decide
theorem test_wf_sendT : (Instr.sendT 31 1 2 0).wf = false ∧ (Instr.sendT 1 1 31 0).wf = false := by decide
theorem test_wf_fibNew : (Instr.fibNew 1 31 2).wf = false := by decide
theorem test_wf_spawn : (Instr.spawn 1 31).wf = false := by decide
theorem test_wf_spawnG : (Instr.spawnG 1 31 2 0).wf = false ∧ (Instr.spawnG 1 2 31 0).wf = false := by decide
theorem test_wf_vexp2 : (Instr.vexp2 1 2 4 0).wf = false := by decide
theorem test_wf_vlog2 : (Instr.vlog2 1 2 4 0).wf = false := by decide
theorem test_wf_vrcp : (Instr.vrcp 1 2 4 0).wf = false := by decide
theorem test_wf_vrsqrt : (Instr.vrsqrt 1 2 4 0).wf = false := by decide
theorem test_wf_vcmp : (Instr.vcmp 0 1 2 0 0).wf = false ∧ (Instr.vcmp 1 1 2 0 6).wf = false := by decide
theorem test_wf_vcvt : (Instr.vcvt 1 2 0 0 0 0 3).wf = false := by decide
theorem test_wf_farg : (Instr.farg 1 31).wf = false := by decide
theorem test_wf_fpop : (Instr.fpop 1 31).wf = false := by decide
theorem test_wf_finfo : (Instr.finfo 1 2 10).wf = false ∧ (Instr.finfo 1 2 7).wf = false := by decide
theorem test_wf_kvapp : (Instr.kvapp 31 1 2 0).wf = false ∧ (Instr.kvapp 1 1 31 0).wf = false := by decide
theorem test_wf_cpyT : (Instr.cpyT 1 2 31).wf = false := by decide
theorem test_wf_promo : (Instr.promo 1 2 3 0).wf = false := by decide
theorem test_wf_fetchStop : (Instr.fetchStop .trap 0 0).wf = false := by decide
theorem test_wf_notAnInstruction : (Instr.notAnInstruction .trap 0).wf = false := by decide

/-! Words written out field by field from R255 to R277. -/

/-- The instruction that a word decodes to. -/
abbrev reads (w : Nat) : Option Instr := (decodeWord w).toOption

/-- The check that refuses a word. -/
def refuses (w : Nat) : Option Bad := match decodeWord w with
  | .ok _ => none
  | .error e => some e

/-- R255: op [15:12], d [11:7], b [6:2], s [1], 0. -/
theorem test_decode_short :
    reads 0b0010_00011_00100_1_0 = some (.vmul16 3 4 1) ∧ reads 0b1111_00000_00000_0_0 = some (.vmov16 0 0 0) ∧
    reads 0b1001_11111_00001_0_0 = some (.vrsqrt16 31 1 0) := by decide

/-- R261: K format of major 0x01. -/
theorem test_decode_integer :
    reads 0b000001_00011_00100_00101_0000_000001_1 = some (.sub 3 4 5) ∧
    reads 0b000001_00011_00100_00000_0000_010100_1 = some (.ctz 3 4) ∧
    reads 0b000001_00011_00100_00101_0111_011000_1 = some (.sel 3 4 5 7) := by decide

/-- R262: I and IL formats. -/
theorem test_decode_immediate :
    reads 0b000010_00011_00100_111111111111111_1 = some (.addi 3 4 0x7FFF) ∧
    reads 0b000110_00011_00100_10_0000000_000111_1 = some (.srai 3 4 7) ∧
    reads 0b001001_00011_00000000000000000010_1 = some (.addpc 3 2) := by decide

/-- R263: compares and predicates. -/
theorem test_decode_compare :
    reads 0b001010_00011_00100_00101_0000_001001_1 = some (.cmp 3 4 5 9) ∧
    reads 0b001011_00011_00100_0110_00000000101_1 = some (.cmpi 3 4 6 5) ∧
    reads 0b001100_00011_00100_00000_0000_000011_1 = some (.pnot 3 4) := by decide

/-- R264: B, J, BR and the register jumps. -/
theorem test_decode_control :
    reads 0b010000_011_1_000000000000000000101_1 = some (.b 3 1 5) ∧
    reads 0b010001_1111111111111111111111111_1 = some (.j 0x1FFFFFF) ∧
    reads 0b010011_00000_00100_00000_0000_000001_1 = some (.callr 4) ∧
    reads 0b010100_00011_10_000000000000000101_1 = some (.bnz 3 5) := by decide

/-- R265: M format. -/
theorem test_decode_memory :
    reads 0b011000_00011_00100_011_0000_11111111_1 = some (.ld 3 4 3 0xFF) ∧
    reads 0b011001_00011_00100_000_0000_00000001_1 = some (.st 3 4 0 1) ∧
    reads 0b011010_00011_00100_010_1110_00000001_1 = some (.ldAcq 3 4 2 14 1) ∧
    reads 0b011010_00011_00100_110_1110_00000001_1 = some (.stRel 3 4 2 14 1) ∧
    reads 0b011011_00011_00100_101_0000_00000001_1 = some (.stVol 3 4 1 1) ∧
    reads 0b011100_00000_00100_000_0000_00000001_1 = some (.pref 4 1) := by decide

/-- R266: atomics: the minor is sz x 16 + op. -/
theorem test_decode_atomic :
    reads 0b011101_00011_00100_00101_1111_101000_1 = some (.amoW 3 4 5 15 8) ∧
    reads 0b011101_00011_00100_00101_1111_110001_1 = some (.amoD 3 4 5 15 1) ∧
    reads 0b011101_00011_00100_00101_1111_101010_1 = some (.amoFBf16 3 4 5 15) ∧
    reads 0b011110_00011_00100_00101_1111_000011_1 = some (.cas 3 4 5 15 1) := by decide

/-- R267: synchronisation. -/
theorem test_decode_sync :
    reads 0b011111_00000_00100_00101_0001_000010_1 = some (.barArrive 4 5 1) ∧
    reads 0b011111_00000_00000_00101_0010_000110_1 = some (.tlwait 5 2) ∧
    reads 0b011111_00000_00100_00000_1101_001000_1 = some (.scopeSet 4 13) := by decide

/-- R268: messages, fibres and futures. -/
theorem test_decode_fibre :
    reads 0b100000_00110_00100_00101_1110_000001_1 = some (.sendT 6 4 5 14) ∧
    reads 0b100000_00011_00100_00101_1110_000101_1 = some (.spawnG 3 4 5 14) ∧
    reads 0b100000_00000_00100_00101_0011_000110_1 = some (.fibDec 4 5 3) ∧
    reads 0b100000_00000_00000_00000_0000_001101_1 = some .keep := by decide

/-- R269, R270: lane operations and the conversion. -/
theorem test_decode_lane :
    reads 0b100100_00011_00100_00101_0110_001010_1 = some (.vfma 3 4 5 6) ∧
    reads 0b100101_00011_00100_00011_0110_000010_1 = some (.vexp2 3 4 3 6) ∧
    reads 0b100110_00111_00100_00101_0110_000101_1 = some (.vcmp 7 4 5 6 5) ∧
    reads 0b100110_00011_00100_00101_1111_010010_1 = some (.vlane 3 4 5 15) ∧
    reads 0b100111_00011_00100_0010_00_100_1_00101_1 = some (.vcvt 3 4 2 0 4 1 5) := by decide

/-- R271: vector memory: the minor is op x 8 + mask. -/
theorem test_decode_vector_memory :
    reads 0b101000_00011_00100_00000_0010_000_111_1 = some (.vld 3 4 2 7) ∧
    reads 0b101000_00011_00100_00101_0000_100_111_1 = some (.vscat 3 4 5 7) ∧
    reads 0b101000_00011_00100_00101_0010_101_111_1 = some (.vldt 3 4 5 2 7) := by decide

/-- R272, R273: tiles, the matrix engine and contexts. -/
theorem test_decode_matrix_and_context :
    reads 0b101100_00010_00100_00101_1111_000100_1 = some (.mmaS 2 4 5 15) ∧
    reads 0b101100_00011_00010_00101_0000_001000_1 = some (.arow 3 2 5) ∧
    reads 0b101110_00000_00100_00110_0000_000100_1 = some (.fpop 4 6) ∧
    reads 0b101110_00110_00100_01000_1110_000111_1 = some (.kvapp 6 4 8 14) := by decide

/-- R274 to R276: draws, engines and ranges. -/
theorem test_decode_engines :
    reads 0b110000_00011_00100_00000_0000_000101_1 = some (.accept 3 4) ∧
    reads 0b110000_00011_00100_00000_1110_000110_1 = some (.route 3 4 14) ∧
    reads 0b110010_00011_00100_00101_0011_001000_1 = some (.promo 3 4 5 3) ∧
    reads 0b110010_00011_00000_00000_0010_000111_1 = some (.wptr 3 2) ∧
    reads 0b110100_00000_00100_00101_1110_000101_1 = some (.rmove 4 5 14) := by decide

/-- R277: the system forms. -/
theorem test_decode_system :
    reads 0b111000_00011_00000_01000_0000_000010_1 = some (.sysr 3 0 8) ∧
    reads 0b111000_00011_00000_01000_0000_000011_1 = some (.sysw 3 0 8) ∧
    reads 0b111000_00000_00100_00000_0000_001000_1 = some (.sstep 4) := by decide

/-- R258, R259: the order of the checks. -/
theorem test_decode_refused :
    refuses 0b000000_00000_00000_00000_0000_000000_1 = some .reservedMajor ∧
    refuses 0b000001_00011_00100_00101_0000_011001_1 = some .reservedMinor ∧
    refuses 0b000001_00011_00100_00101_0001_000000_1 = some .reservedField ∧
    refuses 0b100000_11111_00100_00101_1110_000000_1 = some .reservedField ∧
    refuses 0b100101_00011_00100_00100_0110_000010_1 = some .reservedField := by decide

/-! Small states, and checks: a computed Boolean that, where it is true, shows what it checks. -/

/-- A Boolean that shows P where it is true. -/
structure Chk (P : Prop) where
  b : Bool
  sound : b = true → P

theorem Chk.run {P : Prop} (c : Chk P) (h : c.b = true := by decide +kernel) : P := c.sound h

def Chk.dec {P : Prop} [Decidable P] : Chk P := ⟨decide P, of_decide_eq_true⟩

def Chk.and {P Q : Prop} (p : Chk P) (q : Chk Q) : Chk (P ∧ Q) :=
  ⟨p.b && q.b, fun h => by rw [Bool.and_eq_true] at h; exact ⟨p.sound h.1, q.sound h.2⟩⟩

def Chk.inl {P Q : Prop} (p : Chk P) : Chk (P ∨ Q) := ⟨p.b, fun h => .inl (p.sound h)⟩

def Chk.inr {P Q : Prop} (q : Chk Q) : Chk (P ∨ Q) := ⟨q.b, fun h => .inr (q.sound h)⟩

def Chk.imp {P Q : Prop} (q : Chk Q) : Chk (P → Q) := ⟨q.b, fun h _ => q.sound h⟩

/-- A check of something that succeeds, and of its result. -/
def Chk.ok {ε α : Type} {x : Except ε α} {P : α → Prop} (c : ∀ a, Chk (P a)) : Chk (∃ a, x = .ok a ∧ P a) :=
  match x with
  | .ok a => ⟨(c a).b, fun h => ⟨a, rfl, (c a).sound h⟩⟩
  | .error _ => ⟨false, fun h => by simp at h⟩

def Chk.ok2 {ε α β : Type} {x : Except ε (α × β)} {P : α → β → Prop} (c : ∀ a b, Chk (P a b)) :
    Chk (∃ a b, x = .ok (a, b) ∧ P a b) :=
  match x with
  | .ok (a, b) => ⟨(c a b).b, fun h => ⟨a, b, rfl, (c a b).sound h⟩⟩
  | .error _ => ⟨false, fun h => by simp at h⟩

def Chk.ok3 {ε α β γ : Type} {x : Except ε (α × β × γ)} {P : α → β → γ → Prop} (c : ∀ a b d, Chk (P a b d)) :
    Chk (∃ a b d, x = .ok (a, b, d) ∧ P a b d) :=
  match x with
  | .ok (a, b, d) => ⟨(c a b d).b, fun h => ⟨a, b, d, rfl, (c a b d).sound h⟩⟩
  | .error _ => ⟨false, fun h => by simp at h⟩

def Chk.isOk {ε α : Type} {x : Except ε α} : Chk (∃ a, x = .ok a) :=
  match x with
  | .ok a => ⟨true, fun _ => ⟨a, rfl⟩⟩
  | .error _ => ⟨false, fun h => by simp at h⟩

def Chk.isOk2 {ε α β : Type} {x : Except ε (α × β)} : Chk (∃ a b, x = .ok (a, b)) :=
  match x with
  | .ok (a, b) => ⟨true, fun _ => ⟨a, b, rfl⟩⟩
  | .error _ => ⟨false, fun h => by simp at h⟩

def Chk.unit {ε : Type} {x : Except ε Unit} : Chk (x = .ok ()) :=
  match x with
  | .ok _ => ⟨true, fun _ => rfl⟩
  | .error _ => ⟨false, fun h => by simp at h⟩

def Chk.err {ε α : Type} {x : Except ε α} : Chk (∃ e, x = .error e) :=
  match x with
  | .ok _ => ⟨false, fun h => by simp at h⟩
  | .error e => ⟨true, fun _ => ⟨e, rfl⟩⟩

def Chk.er {ε α : Type} {x : Except ε α} {P : ε → Prop} (c : ∀ e, Chk (P e)) : Chk (∃ e, x = .error e ∧ P e) :=
  match x with
  | .ok _ => ⟨false, fun h => by simp at h⟩
  | .error e => ⟨(c e).b, fun h => ⟨e, rfl, (c e).sound h⟩⟩

def Chk.some {α : Type} {x : Option α} {P : α → Prop} (c : ∀ a, Chk (P a)) : Chk (∃ a, x = .some a ∧ P a) :=
  match x with
  | .some a => ⟨(c a).b, fun h => ⟨a, rfl, (c a).sound h⟩⟩
  | .none => ⟨false, fun h => by simp at h⟩

def Chk.isSome {α : Type} {x : Option α} : Chk (∃ a, x = .some a) :=
  match x with
  | .some a => ⟨true, fun _ => ⟨a, rfl⟩⟩
  | .none => ⟨false, fun h => by simp at h⟩

def Chk.next {x : Host.Outcome State Fault Refusal} : Chk (∃ t, x = .next t) :=
  match x with
  | .next t => ⟨true, fun _ => ⟨t, rfl⟩⟩
  | .fault _ => ⟨false, fun h => by simp at h⟩
  | .refused _ => ⟨false, fun h => by simp at h⟩

/-- A check that an access translates, and of what it finds. -/
def Chk.mapped {s : State} {va : Word} {n : Nat} {k : List Kind} {store held : Bool} {P : State → RangeEntry → Nat → Prop}
    (c : ∀ s e pa, Chk (P s e pa)) : Chk (∃ s' e pa, Mapped s va n k store held s' e pa ∧ P s' e pa) :=
  match h : checkAccess s va n k store held with
  | .ok (s', e, pa) => ⟨decide (va.toNat % n = 0) && (c s' e pa).b, fun hb => by
      rw [Bool.and_eq_true, decide_eq_true_eq] at hb
      exact ⟨s', e, pa, ⟨hb.1, h⟩, (c s' e pa).sound hb.2⟩⟩
  | .error _ => ⟨false, fun h => by simp at h⟩

def Chk.word {x : Fetched} {P : State → Nat → Prop} (c : ∀ s w, Chk (P s w)) : Chk (∃ s w, x = .word s w ∧ P s w) :=
  match x with
  | .word s w => ⟨(c s w).b, fun h => ⟨s, w, rfl, (c s w).sound h⟩⟩
  | .stop _ _ _ _ => ⟨false, fun h => by simp at h⟩
  | .hole _ => ⟨false, fun h => by simp at h⟩

def Chk.stop {x : Fetched} {P : State → Cause → Word → Nat → Prop} (k : ∀ s c a w, Chk (P s c a w)) :
    Chk (∃ s c a w, x = .stop s c a w ∧ P s c a w) :=
  match x with
  | .word _ _ => ⟨false, fun h => by simp at h⟩
  | .stop s c a w => ⟨(k s c a w).b, fun h => ⟨s, c, a, w, rfl, (k s c a w).sound h⟩⟩
  | .hole _ => ⟨false, fun h => by simp at h⟩

/-- An atomic that passes its checks (`AtomicRuns`), and a check of what it finds. -/
def Chk.atomic {s : State} {va : Word} {n : Nat} {c : BitVec 4} {x : Sets} {P : State → RangeEntry → Nat → Prop}
    (hx : useScope s c = .ok x) (k : ∀ s e pa, Chk (P s e pa)) :
    Chk (∃ s' e pa, AtomicRuns s va n c x s' e pa ∧ P s' e pa) :=
  match h : checkAccess s va n [.read, .write] true false with
  | .ok (s', e, pa) =>
    ⟨decide (va.toNat % n = 0 ∧
        firstPoison (atHome s' x e va pa).poison ((atHome s' x e va pa).forwarded va.toNat pa) n = none) &&
        (k s' e pa).b, fun hb => by
      rw [Bool.and_eq_true, decide_eq_true_eq] at hb
      exact ⟨s', e, pa, ⟨hx, ⟨hb.1.1, h⟩, hb.1.2⟩, (k s' e pa).sound hb.2⟩⟩
  | .error _ => ⟨false, fun h => by simp at h⟩

/-- A range of 64 KiB or more that the placed region's tile has in its table. -/
def rangeAt (vbase limit pa : Nat) : RangeEntry :=
  { placeEntry with vbase, limit, offset := wd (2 ^ 64 + pa - vbase), permX := false }

/-- Virtual addresses of the ranges of `here`. -/
def own : Nat := 0x10000
def vol : Nat := 0x1000000
def tier : Nat := 0x2000000

/-- The bytes of the placed RCB that are not zero: its overrides, and the words that they name. -/
def rcbBytes : List Host.Cell :=
  [(placeRcb + 4, 0xD8), (placeRcb + 25, 0x20), (placeRcb + 27, 1), (placeRcb + 33, 0x10), (placeRcb + 35, 1),
    (placeRcb + 49, 0x30), (placeRcb + 51, 1), (placeRcb + 56, 4), (placeRcb + 80, 1)]

/-- A state that runs an activation of a system handler on thread 0 of tile 0: memory lists the RCB, page 0 lies in
HBM, `own` in the tile's own array, `vol` is a VOLATILE range of HBM and `tier` a TIERED one, whose first block is RESIDENT. -/
def here : State :=
  { (State.reset.withProgram []).modTile 0 fun t =>
      { t with rtable := [rangeAt 0 0x10000 placeImage, rangeAt own (own + 0x200000) (tileBase 0), { rangeAt vol (vol + 0x10000) 0x3000000 with vol := true },
          { rangeAt tier (tier + 0x20000) 0x4000000 with tiered := true }] } with
    agenda := [], cur := ⟨0, 0⟩, mem := rcbBytes,
    blocks := [(0x4000000, ⟨0, .resident, 0, false, false, false, 1, 0x5000000, tier⟩)],
    slotStores := [(0, ⟨0x7000000, 1, []⟩)] }

/-- A state with general registers written. -/
def regs (s : State) (l : List (BitVec 5 × Word)) : State := l.foldl (fun s p => s.setG p.1 p.2) s

/-- The same thread in an activation of another handler, which is not privileged. -/
def plain (s : State) : State := s.modSelf fun t => { t with handler := 5 }

theorem test_here : Confirmed here ∧ Privileged here ∧ NotReclaimed here ∧ (plain here).privileged = false :=
  Chk.run (.and (.dec (P := here.confirmed = true)) (.and (.dec (P := here.privileged = true)) (.and .unit .dec)))

def Chk.message {w : Work} : Chk (∃ m, w = .message m) :=
  match w with
  | .message m => ⟨true, fun _ => ⟨m, rfl⟩⟩
  | .entry _ => ⟨false, fun h => by simp at h⟩

def Chk.entry {w : Work} : Chk (∃ e, w = .entry e) :=
  match w with
  | .message _ => ⟨false, fun h => by simp at h⟩
  | .entry e => ⟨true, fun _ => ⟨e, rfl⟩⟩

def Chk.nextAnd {x : Host.Outcome State Fault Refusal} {P : State → Prop} (c : ∀ t, Chk (P t)) :
    Chk (∃ t, x = .next t ∧ P t) :=
  match x with
  | .next t => ⟨(c t).b, fun h => ⟨t, rfl, (c t).sound h⟩⟩
  | .fault _ => ⟨false, fun h => by simp at h⟩
  | .refused _ => ⟨false, fun h => by simp at h⟩

/-! For each statement with hypotheses, states and operands that meet them. -/

theorem test_meets_decodeEncode :
    (Instr.amoD 31 0 31 15 8).wf = true ∧ isEvent (.amoD 31 0 31 15 8) = false ∧ (Instr.fon 31 31).wf = true ∧
    isEvent (.fon 31 31) = false ∧ (Instr.vmov16 31 31 1).wf = true ∧ isEvent (.vmov16 31 31 1) = false := by decide

theorem test_meets_encodeDecode :
    reads 0xF000 = some (.vmov16 0 0 0) ∧ reads 0xFFFF0002 = some (.vadd16 0 0 1) ∧ reads 0x4C000007 = some .nop := by decide

theorem test_meets_reservedEncodings :
    refuses 0 = some .zeroHalfword ∧ refuses 0xFFFF0000 = some .zeroHalfword ∧ refuses 1 = some .reservedMajor ∧
    refuses 0xFFFFFFFF = some .reservedMajor := by decide

/-- Both clauses of `StepRuns`. -/
theorem test_meets_stepRuns :
    (let s := State.reset.withFetchWord 32 0x05CE7801
     let q : State := { s with agenda := [] }
     s.agenda = [.issue 0 0] ∧ q.powered = true ∧ q.mayIssue ⟨0, 0⟩ = true ∧
     ∃ s' w, (q.actsFor (some (q.thread ⟨0, 0⟩).eff)).fetch ⟨0, 0⟩ = .word s' w ∧ w = 0x05CE7801 ∧
      reads 0x05CE7801 = some (.add 14 14 15) ∧
      let u := if (s'.thread ⟨0, 0⟩).counted then s' else s'.serve ⟨0, 0⟩ (vectorWord 0x05CE7801)
      u.hazard ⟨0, 0⟩ (.add 14 14 15) = false ∧ u.crowded ⟨0, 0⟩ (.add 14 14 15) = false ∧
      u.vStop ⟨0, 0⟩ (.add 14 14 15) = none) ∧
    (isEvent (.hostSignal 2) = true ∧ (Instr.hostSignal 2).wf = true ∧ hubEvent (.hostSignal 2) = true ∧
      hubEvent (.threadDispatch 0) = false ∧
      (State.reset.modHub fun h => { h with hot := true }).powered = false) :=
  Chk.run (.and (.and .dec (.and .dec (.and .dec (.word fun _ _ => .dec)))) .dec)

theorem test_meets_stepKeepsInvariant : MemOk here ∧ ∃ t, step here = .next t :=
  Chk.run (.and (.and .dec .dec) .next)

theorem test_meets_divisionResults : (BitVec.allOnes 64 : Word) ≠ 0 ∧ (1 : Word) ≠ 0 := by decide

/-- The widest field, and one that bit 63 cuts. -/
theorem test_meets_fieldResults :
    (let s := regs here [(3, 64 * 256)]
     (s.g 3).toNat % 64 = 0 ∧ min ((s.g 3).toNat / 256 % 128) (64 - 0) = 64) ∧
    (let s := regs here [(3, 127 * 256 + 63)]
     (s.g 3).toNat % 64 = 63 ∧ min ((s.g 3).toNat / 256 % 128) (64 - 63) = 1) := by decide +kernel

theorem test_meets_branches : (regs here [(3, 1)]).g 3 = 1 ∧ (regs here [(3, 0)]).g 3 ≠ 1 ∧ here.g 0 ≠ 1 := by
  decide +kernel

/-- The last target that a jump takes, and the first ones of each stop. -/
theorem test_meets_registerJumps :
    (let s := regs here [(31, 0x00FFFFFFFFFFFFFE)]
     (s.g 31).toNat < 2 ^ 56 ∧ (s.g 31).toNat % 2 = 0) ∧
    (let s := regs here [(31, 0x0100000000000001)]
     2 ^ 56 ≤ (s.g 31).toNat) ∧
    (let s := regs here [(31, 0x00FFFFFFFFFFFFFF)]
     (s.g 31).toNat < 2 ^ 56 ∧ (s.g 31).toNat % 2 = 1) := by decide +kernel

/-- A register that holds an address, `g4`. -/
def at4 (a : Nat) : State := regs here [(4, wd a)]

/-- Plain loads: the tile's own array, a VOLATILE range, a line that the L1 holds, and one that it does not. -/
theorem test_meets_plainLoads :
    (∃ s' e pa, Mapped (at4 (own + 8)) ((at4 (own + 8)).memAddr 4 0xFF 8) 8 [.read] false false s' e pa ∧
      ownArray s'.cur.tile pa = true ∧ e.vol = false ∧
      firstPoison (s'.drainAt own pa).poison ((s'.drainAt own pa).forwarded own pa) 8 = none) ∧
    (∃ s' e pa, Mapped (at4 vol) ((at4 vol).memAddr 4 0 8) 8 [.read] false false s' e pa ∧ e.vol = true ∧
      firstPoison (s'.drainVol.drainAt vol pa).poison ((s'.drainVol.drainAt vol pa).forwarded vol pa) 8 = none) ∧
    (let s := (at4 0).modTile 0 fun t => { t with l1 := [⟨placeImage / 128, 7⟩] }
     ∃ s' e pa, Mapped s (s.memAddr 4 0 8) 8 [.read] false false s' e pa ∧ ownArray s'.cur.tile pa = false ∧
      e.vol = false ∧ ∃ l, (s'.tile s'.cur.tile).l1Line pa = some l) ∧
    (∃ s' e pa, Mapped (at4 0xFFF8) ((at4 0xFFF8).memAddr 4 0 8) 8 [.read] false false s' e pa ∧
      ownArray s'.cur.tile pa = false ∧ e.vol = false ∧ (s'.tile s'.cur.tile).l1Line pa = none ∧
      firstPoison (s'.drainAt 0xFFF8 pa).poison ((s'.drainAt 0xFFF8 pa).forwarded 0xFFF8 pa) 8 = none) := by
  exact Chk.run (.and (.mapped fun _ _ _ => .dec) (.and (.mapped fun _ _ _ => .dec) (.and
    (.mapped fun _ _ _ => .and .dec (.and .dec .isSome)) (.mapped fun _ _ _ => .dec))))

/-- A scope that is always there, and one that is live. -/
theorem test_scopes :
    (∃ x, useScope here 15 = .ok x) ∧ (∃ x, useScope here 0 = .ok x) ∧
    ∃ x, useScope (here.setScopeCopy 0 13 { ScopeCopy.reset with state := 1 }) 13 = .ok x :=
  Chk.run (.and .isOk (.and .isOk .isOk))

theorem test_meets_loadsAtHome :
    (∃ x, useScope (at4 0) 14 = .ok x) ∧
    (∃ s' e pa, Mapped (at4 0) ((at4 0).memAddr 4 0 1) 1 [.read] false true s' e pa ∧
      firstPoison (s'.drainVol.drainAt 0 pa).poison ((s'.drainVol.drainAt 0 pa).forwarded 0 pa) 1 = none) ∧
    (∃ s' e pa, Mapped (at4 tier) ((at4 tier).memAddr 4 0 8) 8 [.read] false false s' e pa ∧
      firstPoison (s'.drainAt tier pa).poison ((s'.drainAt tier pa).forwarded tier pa) 8 = none) :=
  Chk.run (.and .isOk (.and (.mapped fun _ _ _ => .dec) (.mapped fun _ _ _ => .dec)))

/-- Plain stores: at once to the tile's own array, and on their way to a VOLATILE and a TIERED range and elsewhere. -/
theorem test_meets_plainStores :
    let bs := leBytes 8 5
    let u (s : State) (e : RangeEntry) (va pa : Nat) : State :=
      ((if e.vol = true then s.drainVol else s).updateL1 s.cur.tile pa bs).dropForwarded s.cur.tile va pa
    let isOwn (s : State) (e : RangeEntry) (va pa : Nat) : Bool :=
      ownArray (u s e va pa).cur.tile ((u s e va pa).forwarded va pa)
    (∃ s' e pa, Mapped (at4 own) ((at4 own).memAddr 4 0 8) 8 [.write] true false s' e pa ∧
      isOwn s' e own pa = true) ∧
    (∃ s' e pa, Mapped (at4 vol) ((at4 vol).memAddr 4 0 8) 8 [.write] true false s' e pa ∧ e.vol = true ∧
      isOwn s' e vol pa = false) ∧
    (∃ s' e pa, Mapped (at4 tier) ((at4 tier).memAddr 4 0 8) 8 [.write] true false s' e pa ∧ e.tiered = true ∧
      isOwn s' e tier pa = false) ∧
    (∃ s' e pa, Mapped (at4 0xFFF8) ((at4 0xFFF8).memAddr 4 0 8) 8 [.write] true false s' e pa ∧
      isOwn s' e 0xFFF8 pa = false ∧ e.vol = false ∧ e.tiered = false) :=
  Chk.run (.and (.mapped fun _ _ _ => .dec) (.and (.mapped fun _ _ _ => .dec) (.and (.mapped fun _ _ _ => .dec)
    (.mapped fun _ _ _ => .dec))))

theorem test_meets_storesAtHome :
    (∃ s' e pa, Mapped (at4 0) ((at4 0).memAddr 4 0 4) 4 [.write] true true s' e pa ∧ pa = placeImage) ∧
    (∃ x, useScope (at4 0) 14 = .ok x) ∧
    (∃ s' e pa, Mapped (at4 tier) ((at4 tier).memAddr 4 0 4) 4 [.write] true false s' e pa ∧ pa = 0x4000000) :=
  Chk.run (.and (.mapped fun _ _ _ => .dec) (.and .isOk (.mapped fun _ _ _ => .dec)))

/-- The sets of an index that is always there. -/
def sets0 (s : State) : Sets := s.setsOf s.cur s.self.region 0

/-- Atomics of both sizes in the tile's own array, in HBM, and in a VOLATILE and a TIERED range. -/
theorem test_meets_atomicForms :
    (∃ s' e pa, AtomicRuns (at4 own) ((at4 own).g 4) 8 0 (sets0 (at4 own)) s' e pa ∧ pa = tileBase 0) ∧
    (∃ s' e pa, AtomicRuns (at4 0xFFFC) ((at4 0xFFFC).g 4) 4 0 (sets0 (at4 0xFFFC)) s' e pa ∧ pa = placeImage + 0xFFFC) ∧
    (∃ s' e pa, AtomicRuns (at4 vol) ((at4 vol).g 4) 8 0 (sets0 (at4 vol)) s' e pa ∧ e.vol = true) ∧
    (∃ s' e pa, AtomicRuns (at4 tier) ((at4 tier).g 4) 4 0 (sets0 (at4 tier)) s' e pa ∧ pa = 0x4000000) :=
  Chk.run (.and (.atomic rfl fun _ _ _ => .dec) (.and (.atomic rfl fun _ _ _ => .dec) (.and (.atomic rfl fun _ _ _ => .dec)
    (.atomic rfl fun _ _ _ => .dec))))

/-- `cas` where the old value is the expected one, and where it is another. -/
theorem test_meets_compareAndSwap :
    (∃ s' e pa, AtomicRuns (at4 own) ((at4 own).g 4) 8 0 (sets0 (at4 own)) s' e pa ∧
      (oldValue s' (sets0 (at4 own)) e ((at4 own).g 4) pa 8 = ((at4 own).g 0).toNat % 2 ^ (8 * 8) ∧
        oldValue s' (sets0 (at4 own)) e ((at4 own).g 4) pa 8 ≠ ((at4 own).g 4).toNat % 2 ^ (8 * 8))) ∧
    (∃ s' e pa, AtomicRuns (at4 own) ((at4 own).g 4) 4 0 (sets0 (at4 own)) s' e pa ∧
      (oldValue s' (sets0 (at4 own)) e ((at4 own).g 4) pa 4 = ((at4 own).g 0).toNat % 2 ^ (8 * 4) ∧
        oldValue s' (sets0 (at4 own)) e ((at4 own).g 4) pa 4 ≠ ((at4 own).g 4).toNat % 2 ^ (8 * 4))) :=
  Chk.run (.and (.atomic rfl fun _ _ _ => .dec) (.atomic rfl fun _ _ _ => .dec))

/-- Misaligned addresses, with a usable scope, a count that `bar.init` takes, and no wait begun; and entries 2 and 13 of the
scope table free and retired. -/
theorem test_meets_accessStops :
    ((at4 7).memAddr 4 0 8).toNat % 8 ≠ 0 ∧ ((at4 2).g 4).toNat % 4 ≠ 0 ∧ ((at4 4).g 4).toNat % 8 ≠ 0 ∧
    (let s := at4 0xFFFFFF
     s.g 4 ≠ 0 ∧ (s.g 4).toNat < 2 ^ 24 ∧ (s.g 4).toNat % 8 ≠ 0 ∧ s.self.sends = [] ∧ s.self.captured = none) ∧
    (here.scopeCopy here.self.region 2).state = 0 ∧ (here.scopeCopy here.self.region 13).state = 0 ∧
    ((here.setScopeCopy 0 13 { ScopeCopy.reset with state := 2 }).scopeCopy 0 13).state = 2 := Chk.run .dec

theorem test_meets_accessStops_usable :
    (∃ x, useScope (at4 0xFFFFFF) 0 = .ok x) ∧ NotReclaimed (at4 0xFFFFFF) := Chk.run (.and .isOk .unit)

theorem test_meets_fenceForms :
    (∃ x, useScope here 15 = .ok x) ∧ Confirmed here ∧ (here.modSelf fun t => { t with latch := true }).self.latch = true ∧
    here.g 6 = 0 ∧ (at4 (2 ^ 21)).g 4 ≠ 0 :=
  Chk.run (.and .isOk (.and (.dec (P := here.confirmed = true)) .dec))

/-- Counts of 0, 1, 2^24 - 1 and 2^24, and words of barriers. -/
theorem test_meets_barrierWords :
    here.g 6 = 0 ∧ 2 ^ 24 ≤ ((regs here [(5, 0x1000000)]).g 5).toNat ∧
    (let s := regs here [(4, wd own), (5, 0xFFFFFF)]
     s.g 5 ≠ 0 ∧ (s.g 5).toNat < 2 ^ 24 ∧ (∃ x, useScope s 1 = .ok x) ∧
     ∃ s' e pa, Mapped s (s.g 4) 8 [.write] true true s' e pa ∧ pa = tileBase 0) ∧
    (∃ n k f : Nat, n < 2 ^ 24 ∧ k < n ∧ f < 2 ^ 16 ∧ k + 1 = n ∧ 0 < n ∧ n < 2 ^ 24 - 1) :=
  Chk.run (.and .dec (.and .dec (.and (.and .dec (.and .dec (.and .isOk (.mapped fun _ _ _ => .dec))))
    ⟨true, fun _ => ⟨1, 0, 0xFFFF, by decide, by decide, by decide, rfl, by decide, by decide⟩⟩)))

/-- A barrier of two in phase 1, at the first word of page 0. -/
def barrier : State := { at4 0 with mem := writeNat rcbBytes placeImage 8 (2 ^ 48 + 2) }

theorem test_meets_barrierActs :
    (let s := barrier.setG 5 1
     let x := sets0 s
     useScope s 0 = .ok x ∧ ∃ s' e pa, Mapped s (s.g 4) 8 [.read, .write] true true s' e pa ∧
      let q := atHome s' x e (s.g 4) pa
      firstPoison q.poison (q.forwarded (s.g 4).toNat pa) 8 = none ∧
      ∃ new, arrived (oldValue s' x e (s.g 4) pa 8) ((s.g 5).toNat % 2 ^ 16) = some new ∧
      let t := newValue s' x e (s.g 4) pa 8 new
      ∃ u f, t.translate t.cur.tile t.self.region (t.lineage t.me) (s.g 4) 8 .read = .ok (u, f) ∧ f.phys 0 = placeImage) ∧
    (let s := barrier
     NotReclaimed s ∧ s.self.sends = [] ∧ s.self.captured = none ∧ (∃ x, useScope s 0 = .ok x) ∧
     ∃ s' e pa, Mapped s (s.g 4) 8 [.read] false true s' e pa ∧
      let q := s'.drainAt (s.g 4).toNat pa
      let w := q.forwarded (s.g 4).toNat pa
      firstPoison q.poison w 8 = none ∧ readNat q.mem w 8 / 2 ^ 48 ≠ (s.g 0).toNat % 2 ^ 16) :=
  ⟨⟨rfl, Chk.run (.mapped fun _ _ _ => .and .dec (.some fun _ => .ok2 fun _ _ => .dec))⟩,
    Chk.run (.and .unit (.and .dec (.and .dec (.and .isOk (.mapped fun _ _ _ => .dec)))))⟩

/-- A context of which 130 commands were issued and 128 have finished. -/
def issued130 : State := here.modSelf fun t => { t with engines := t.engines.set 2 ⟨130, 128, 129, 7⟩ }

/-- A wait for command 0, for the last one that finished, for one before the last 128, and for one not issued. -/
theorem test_meets_timelineWait :
    let s := issued130
    NotReclaimed s ∧ s.self.sends = [] ∧ s.self.deferred = [] ∧ (s.self.engine 2).issued.toNat < 131 ∧
    128 ≤ (s.self.engine 2).complete.toNat ∧ (s.self.engine 2).issued.toNat ≤ 3 + 127 ∧
    ¬(s.self.engine 2).issued.toNat ≤ 2 + 127 ∧ (here.g 0).toNat = 0 := Chk.run (.and .unit .dec)

theorem test_meets_scopeForms :
    Confirmed here ∧ ((here.release setsDevice).scopeCopy (here.release setsDevice).self.region 13).state ≠ 1 ∧
    (let s := here.setScopeCopy 0 2 { ScopeCopy.reset with state := 1 }
     ((s.release setsDevice).scopeCopy (s.release setsDevice).self.region 2).state = 1) :=
  Chk.run (.and (.dec (P := here.confirmed = true)) .dec)

/-- A descriptor in page 0 with HOST, the TILES at 0x80 and, in the second state, the SPADS at 0x100. -/
def descriptor (spads : Nat) : State :=
  let m := writeNat (writeNat rcbBytes placeImage 8 4) (placeImage + 16) 8 0x80
  { at4 0 with mem := writeNat m (placeImage + 24) 8 spads }

theorem test_meets_scopeSet :
    (let q := (descriptor 0).release setsDevice
     ∃ s1 e pa, Mapped q ((descriptor 0).g 4) 32 [.read] false true s1 e pa ∧
      ∃ s2 bs, loadSpan s1 ((descriptor 0).g 4) e 32 = .ok (s2, bs) ∧
      scopeDescOk (wordAt bs 0) (wordAt bs 2) (wordAt bs 3) = true ∧ wordAt bs 3 = 0 ∧
      ∃ s3 tiles, readBitmap s2 (wordAt bs 2) = .ok (s3, tiles) ∧ (s3.scopeCopy s3.self.region 2).state = 0) ∧
    (let s := (descriptor 0x100).setScopeCopy 0 13 { ScopeCopy.reset with state := 2 }
     let q := s.release setsDevice
     ∃ s1 e pa, Mapped q (s.g 4) 32 [.read] false true s1 e pa ∧
      ∃ s2 bs, loadSpan s1 (s.g 4) e 32 = .ok (s2, bs) ∧
      scopeDescOk (wordAt bs 0) (wordAt bs 2) (wordAt bs 3) = true ∧ wordAt bs 3 ≠ 0 ∧
      ∃ s3 tiles, readBitmap s2 (wordAt bs 2) = .ok (s3, tiles) ∧
      ∃ s4 spads, readBitmap s3 (wordAt bs 3) = .ok (s4, spads) ∧ (s4.scopeCopy s4.self.region 13).state ≠ 0) :=
  Chk.run (.and
    (.mapped fun _ _ _ => .ok2 fun _ _ => .and .dec (.and .dec (.ok2 fun _ _ => .dec)))
    (.mapped fun _ _ _ => .ok2 fun _ _ => .and .dec (.and .dec (.ok2 fun _ _ => .ok2 fun _ _ => .dec))))

/-- Sixteen entries in the send buffer: empty sends through the tile's own scope. -/
def sixteen (s : State) : State :=
  s.modSelf fun t => { t with sends := List.replicate 16 ⟨0, 0, 0, 0, 0, 0, 0, sets0 s⟩ }

/-- Destination words, lengths and buffers: an empty payload, one of 4,096 bytes, and a full buffer; a transform of kind
5; and decrements through a fibre's and a future's handle. -/
theorem test_meets_sends :
    (NotReclaimed here ∧ Confirmed here ∧ here.destOk (here.g 0) = true ∧ here.g 0 = 0 ∧ here.self.sends.length < 16) ∧
    (let s := sixteen (at4 0)
     ∃ s'' e pa, checkMapped s (s.g 4) 4096 [.read] = .ok (s'', e, pa) ∧ checkResident s'' (s.g 4) e 4096 = .ok () ∧
      s''.confirmed = true ∧ 16 ≤ s''.self.sends.length ∧ ∃ u, flush s'' = .ok u) ∧
    (let s := here.modFibre here.me fun f => { f with conf := false }
     s.confirmed = false ∧ (s.fibre? (s.g 4)).isSome = true ∧ s.inSubtree s.me (s.g 4) = true) ∧
    (xformOk 0x40005 = true ∧ xKind 0x40005 = 5 ∧ xParam 0x40005 % 4 = 0 ∧ xformOk 0xF = false ∧ 4096 % 4 = 0 ∧
      xformOk 0x10000003 = true ∧ xKind 0x10000003 ≠ 5) ∧
    here.destOk (BitVec.allOnes 64) = false ∧ 4096 < (4097 : Word).toNat ∧
    (handleForm (here.g 4) = true ∧ hKind (here.g 4) = 1 ∧ handleForm (here.g 5) = true ∧ hKind (here.g 5) = 2 ∧
      hKind (here.g 0) = 0 ∧ 0 < ((regs here [(6, 65535)]).g 6).toNat ∧ ((regs here [(6, 65535)]).g 6).toNat < 2 ^ 16 ∧
      ¬((regs here [(6, 65536)]).g 6).toNat < 2 ^ 16) :=
  Chk.run (.and (.and .unit (.and (.dec (P := here.confirmed = true)) .dec))
    (.and (.ok3 fun _ _ _ => .and .unit (.and .dec (.and .dec .isOk))) .dec))

/-- A full buffer; a send of the longest payload, and one of none, whose payload is read; a decrement; and an entry that
stops. -/
theorem test_meets_flush :
    (∃ t, flush (sixteen here) = .ok t) ∧ (here.self.sends = [] ∧ (sixteen here).self.sends ≠ []) ∧
    (let e : SendEntry := ⟨0, 0, 0, 0, 0, 4096, 0, sets0 here⟩
     (∃ t, flushEntry here e = .ok t) ∧ e.type ≠ 2 ∧
     ∃ u bs, readPayload (here.release e.sets) e.src e.len.toNat = .ok (u, bs) ∧ bs.length = 4096) ∧
    (∃ u bs, readPayload (here.release (sets0 here)) 0 0 = .ok (u, bs) ∧ bs = []) ∧
    (∃ x, flushEntry here ⟨0, 0, 0x100000000, 0, 0, 1, 0, sets0 here⟩ = .error x) ∧
    (SendEntry.mk (here.g 4) 1 0 0 2 0 0 (sets0 here)).type = 2 :=
  Chk.run (.and .isOk (.and .dec (.and (.and .isOk (.and .dec (.ok2 fun _ _ => .dec))) (.and (.ok2 fun _ _ => .dec)
    (.and .err .dec)))))

theorem test_meets_doneAndKeep : NotReclaimed here ∧ here.self.deferred = [] ∧ here.self.sends = [] :=
  Chk.run (.and .unit .dec)

/-- A spawn word with every bit that it may have, for tile 0 and its handler 0; and for a tile without the handler. -/
theorem test_meets_spawns :
    (let s := regs here [(2, 0x7000)]
     (s.g 2).toNat < 2 ^ 25 ∧ s.spawnRefused (swTile (s.g 2)) (swHandler (s.g 2)) = false ∧ swDetach (s.g 2) = true ∧
      (∃ u, needOwnBlock s (swDetach (s.g 2)) = .ok u) ∧ ∃ u, needOwnBlock s false = .ok u) ∧
    (let s := regs here [(2, 0x1FFFFFF)]
     (s.g 2).toNat < 2 ^ 25 ∧ s.spawnRefused (swTile (s.g 2)) (swHandler (s.g 2)) = true) :=
  Chk.run (.and (.and .dec (.and .dec (.and .dec (.and .isOk .isOk)))) .dec)

/-- A group of one member with its counter in the tile's own array, one of none, and one that is refused. -/
theorem test_meets_groupLaunch :
    (let s := regs here [(2, 0), (6, 0x10000100001), (7, wd own)]
     useScope s 1 = .ok (s.setsOf s.cur s.self.region 1) ∧ (s.g 6).toNat < 2 ^ 60 ∧ (s.g 2).toNat < 2 ^ 15 ∧
     ∃ s' ctr, groupCounter s (s.g (pair 6)) = .ok (s', ctr) ∧
      s'.groupRefused (s.setsOf s.cur s.self.region 1).tileList (swHandler (s.g 2)) 1 = false ∧
      ∃ u, needOwnBlock s' (swDetach (s.g 2)) = .ok u) ∧
    (let s := regs here [(2, 5), (6, 0x10000100001)]
     ∃ s' ctr, groupCounter s (s.g (pair 6)) = .ok (s', ctr) ∧
      s'.groupRefused (s.setsOf s.cur s.self.region 1).tileList (swHandler (s.g 2)) 1 = true) :=
  ⟨⟨rfl, Chk.run (.and .dec (.and .dec (.ok2 fun _ _ => .and .dec .isOk)))⟩, Chk.run (.ok2 fun _ _ => .dec)⟩

/-- An empty group without a counter and with one that waits. -/
theorem test_meets_emptyGroup :
    (let s := regs here [(2, 0), (6, 0x10000000001)]
     useScope s 1 = .ok (s.setsOf s.cur s.self.region 1) ∧ 0x10000000001 / 2 ^ 20 % 2 ^ 20 = 0 ∧
     ∃ s' ctr, groupCounter s (s.g (pair 6)) = .ok (s', ctr) ∧
      s'.groupRefused (s.setsOf s.cur s.self.region 1).tileList (swHandler (s.g 2)) 0 = false ∧
      ∃ u, needOwnBlock s' (swDetach (s.g 2)) = .ok u ∧
       (u.release (s.setsOf s.cur s.self.region 1)).groupWaits ctr = false) ∧
    (let s := regs { here with mem := writeNat here.mem (tileBase 0) 8 1 } [(2, 0), (6, 0x10000000001), (7, wd own)]
     ∃ s' ctr, groupCounter s (s.g (pair 6)) = .ok (s', ctr) ∧
      s'.groupRefused (s.setsOf s.cur s.self.region 1).tileList (swHandler (s.g 2)) 0 = false ∧
      ∃ u, needOwnBlock s' (swDetach (s.g 2)) = .ok u ∧
       (u.release (s.setsOf s.cur s.self.region 1)).groupWaits ctr = true) ∧
    (∃ f : Future, f.members = [] ∧ f.gleft = 0 ∧ f.fstat = .pending ∧ f.group = true) :=
  ⟨⟨rfl, Chk.run (.and .dec (.ok2 fun _ _ => .and .dec (.ok fun _ => .dec)))⟩,
    Chk.run (.ok2 fun _ _ => .and .dec (.ok fun _ => .dec)),
    ⟨here.groupFuture false true 0 1 (sets0 here) none false, rfl, rfl, rfl, rfl⟩⟩

/-- The placed fibre's own future, with the issuer and with the fibre as the holder; a thread that has made its record
before; and a future that is not live. -/
theorem test_meets_references :
    (∃ f, here.liveFuture (here.g 5) = some f ∧ f.count ≠ 2 ^ 24 - 1) ∧ Confirmed here ∧
    (∃ y, here.fibre? here.me = some y ∧ y.region = here.self.region) ∧
    (handleForm (here.g 5) = true ∧ hKind (here.g 5) = 2 ∧ here.g 0 = 0 ∧ here.g 4 ≠ 0 ∧ hKind (here.g 4) = 1 ∧
      here.me = here.g 4) ∧
    (let s := here.hold here.me (here.g 5)
     ∃ y, s.fibre? s.me = some y ∧ y.refs.contains (s.g 5) = true) ∧
    (here.self.recording = none ∧
      (here.modSelf fun t => { t with recording := some (here.me, here.g 5) }).self.recording.isSome = true ∧
      here.liveFuture (mkHandle 0 0 2 2) = none) ∧
    (∃ u, here.roomForRef here.me = some u) ∧ ({ here with slotStores := [] } : State).roomForRef here.me = none ∧
    (let s := here.modFuture (here.g 5) fun f => { f with count := 2 ^ 24 - 1 }
     ∃ f, s.liveFuture (s.g 5) = some f ∧ f.count = 2 ^ 24 - 1) :=
  Chk.run (.and (.some fun _ => .dec) (.and (.dec (P := here.confirmed = true)) (.and (.some fun _ => .dec)
    (.and .dec (.and (.some fun _ => .dec) (.and .dec (.and .isSome (.and .dec (.some fun _ => .dec)))))))))

/-- The state in which the placed fibre's future has resolved. -/
def resolved : State := here.modFuture (here.g 5) fun f => { f with fstat := .resolved }

theorem test_meets_futures :
    (Confirmed here ∧ ∃ f, here.liveFuture (here.g 5) = some f) ∧
    (here.g 5 = futureHandle here.me ∧ useScope here 0 = .ok (sets0 here)) ∧
    (∃ g, (here.release (sets0 here)).future? (here.g 5) = some g ∧ g.fstat = .running) ∧
    (∃ g, (resolved.release (sets0 resolved)).future? (resolved.g 5) = some g ∧ g.fstat ≠ .running) ∧
    (NotReclaimed resolved ∧ resolved.self.sends = [] ∧ ∃ f, resolved.liveFuture (resolved.g 5) = some f ∧
      resolved.future? (resolved.g 5) = some f ∧ f.fstat = .resolved) ∧
    (∃ f, here.future? (here.g 5) = some f ∧ f.fstat ≠ .resolved) :=
  ⟨Chk.run (.and (.dec (P := here.confirmed = true)) .isSome), ⟨by decide +kernel, rfl⟩,
    Chk.run (.and (.some fun _ => .dec) (.and (.some fun _ => .dec) (.and (.and .unit (.and .dec (.some fun _ => .dec)))
      (.some fun _ => .dec))))⟩

theorem test_meets_continuations :
    (NotReclaimed here ∧ here.self.sends = [] ∧ handleForm (here.g 5) = true ∧ hKind (here.g 5) = 2 ∧
      (here.g 0).toNat < 2 ^ 12 ∧ here.installed here.self.region (hTile here.me) 0 = true) ∧
    (∃ y, here.fibre? here.me = some y ∧ y.cont = false) ∧
    (let t (s : State) : State :=
      s.modFibre s.me fun f => { f with cont := true, conth := 0, waitfut := s.g 5, settled := none }
     (∃ f, here.liveFuture (here.g 5) = some f) ∧
     (∃ g, (t here).liveFuture (here.g 5) = some g ∧ g.fstat ≠ .resolved) ∧
     (∃ f, resolved.liveFuture (resolved.g 5) = some f) ∧
     ∃ g, (t resolved).liveFuture (resolved.g 5) = some g ∧ g.fstat = .resolved) :=
  Chk.run (.and (.and .unit .dec) (.and (.some fun _ => .dec) (.and .isSome (.and (.some fun _ => .dec) (.and .isSome
    (.some fun _ => .dec))))))

/-- Every vector register has a tag, and v9 another. -/
def tagged (s : State) (t u : BitVec 4) : State :=
  s.modSelf fun x => { x with vtag := (Vector.replicate 32 t).set 9 u }

theorem test_meets_laneForms :
    (let s := tagged here 1 7
     Arithmetic (s.vtag 3) ∧ s.vtag 4 = s.vtag 3) ∧
    (let s := tagged here 10 7
     (tagClass (s.vtag 3) = .s ∨ tagClass (s.vtag 3) = .u ∨ tagClass (s.vtag 3) = .b) ∧ s.vtag 4 = s.vtag 3) ∧
    (let s := tagged here 2 7
     tagClass (s.vtag 3) = .f ∧ (∃ f, tagFmt (s.vtag 3) = some f) ∧ (3 : BitVec 3).toNat < 4 ∧ ∃ m, mode? 3 = some m) :=
  Chk.run (.and (.and (.inl .dec) .dec) (.and .dec (.and .dec (.and .isSome (.and .dec .isSome)))))

/-- The last element of a tag of 32 bits and of one of 4, and indices. -/
theorem test_meets_laneMoves :
    (let s := tagged here 1 tagIndex
     s.vtag 4 = s.vtag 3 ∧ s.vtag 9 = tagIndex ∧ 63 < 2048 / tagWidth (s.vtag 3)) ∧
    (tagClass (tagIndex) = .u ∨ tagClass tagIndex = .s) ∧ 511 < 2048 / tagWidth 6 := Chk.run .dec

theorem test_meets_compares : let s := tagged here 1 7
    Arithmetic (s.vtag 3) ∧ s.vtag 4 = s.vtag 3 := Chk.run (.and (.inl .dec) .dec)

/-- Scales, a rotation of both tags, and conversions: a retag, and one with random bits. -/
theorem test_meets_scaleRotateConvert :
    (let s := tagged here 1 tagE8m0
     tagClass (s.vtag 3) = .f ∧ (∃ f, tagFmt (s.vtag 3) = some f) ∧ s.vtag 9 = tagE8m0 ∧ s.vtag 3 = 1) ∧
    (tagged here 2 7).vtag 3 = 2 ∧
    ((0 : BitVec 4) ≠ tagMask ∧ (tagged here 1 tagIndex).vtag 3 ≠ tagMask ∧ (∃ m, mode? 4 = some m ∧ m = .sr) ∧
      (tagged here 1 tagIndex).vtag 9 = tagIndex ∧ (2 : BitVec 4) ≠ tagMask ∧ (2 : BitVec 4) ≠ 0 ∧
      ¬((tagged here 1 tagIndex).vtag 3 = 0 ∧ (0 : BitVec 2) = 0)) :=
  Chk.run (.and (.and .dec (.and .isSome .dec)) (.and .dec (.and .dec (.and .dec (.and (.some fun _ => .dec) .dec)))))

/-- Loads and stores of a whole register in the tile's own array, with every tag width that the forms treat apart, and
with a mask that has no active bit. -/
theorem test_meets_vectorMemory :
    let line (s : State) (tag : BitVec 4) (m : BitVec 3) : List ElemAccess :=
      let unit := if tagWidth tag = 64 then 8 else 4
      (activeUnits (tagWidth tag) (s.m m)).map fun k => ⟨k * unit, s.g 4 + BitVec.ofNat 64 (k * unit), unit⟩
    (let s := at4 own
     (s.g 4).toNat % 32 = 0 ∧ (∃ s1 l, judge false (line s 1 0) s = .ok (s1, l) ∧ ∃ s2 bs k, loadUnits l s1 = .ok (s2, bs, k) ∧
      l.length = 64) ∧ (∃ s1 l, judge true (line s (s.vtag 3) 0) s = .ok (s1, l) ∧ l.length = 64) ∧
      (∃ s1 l, judge false (line s 1 2) s = .ok (s1, l) ∧ l = [])) ∧
    (let s := regs (at4 own) [(6, 64)]
     tagWidth 1 ≠ 4 ∧
     ∃ s1 l, judge false (((List.range (2048 / tagWidth 1)).filter fun j => governed (s.m 0) (tagWidth 1) j).map fun j =>
        ⟨j * (tagWidth 1 / 8), s.g 4 + BitVec.ofNat 64 j * s.g 6, tagWidth 1 / 8⟩) s = .ok (s1, l) ∧
      ∃ s2 bs k, loadUnits l s1 = .ok (s2, bs, k) ∧ l.length = 64) ∧
    (let s := tagged (at4 own) 1 tagIndex
     s.vtag 9 = tagIndex ∧
     (∃ s1 l, judge false (indexedUnits s 4 9 0 (tagWidth 1)) s = .ok (s1, l) ∧
      ∃ s2 bs k, loadUnits l s1 = .ok (s2, bs, k) ∧ l.length = 64) ∧
     ∃ s1 l, judge true (indexedUnits s 4 9 0 (tagWidth (s.vtag 3))) s = .ok (s1, l) ∧ l.length = 64) ∧
    (let s := regs (at4 own) [(6, 64)]
     (s.g 4).toNat % 32 = 0 ∧ (s.g 6).toNat % 32 = 0 ∧
     ∃ s1 l, judge false ((activeRows (s.m 0) (tagWidth 2)).map fun r =>
          ⟨r, s.g 4 + BitVec.ofNat 64 r * s.g 6, 32⟩) s = .ok (s1, l) ∧
      ∃ s2 bs k, loadUnits l s1 = .ok (s2, bs, k) ∧ l.length = 8) :=
  Chk.run (.and (.and .dec (.and (.ok2 fun _ _ => .ok3 fun _ _ _ => .dec) (.and (.ok2 fun _ _ => .dec) (.ok2 fun _ _ => .dec))))
    (.and (.and .dec (.ok2 fun _ _ => .ok3 fun _ _ _ => .dec))
    (.and (.and .dec (.and (.ok2 fun _ _ => .ok3 fun _ _ _ => .dec) (.ok2 fun _ _ => .dec)))
      (.and .dec (.and .dec (.ok2 fun _ _ => .ok3 fun _ _ _ => .dec))))))

def Chk.issues {s : State} {c : BitVec 2} : Chk (CommandIssues s c) :=
  (Chk.and .unit .dec : Chk (NotReclaimed s ∧ s.hasRoom s.cur c = true))

def Chk.confirmed {s : State} : Chk (Confirmed s) := (Chk.dec : Chk (s.confirmed = true))

def Chk.privileged {s : State} : Chk (Privileged s) := (Chk.dec : Chk (s.privileged = true))

/-- The matrix operands: `g4` is 128-byte aligned in the tile's own array; the last tile register and accumulator that
the carve-out provides; and a scale register among them. -/
theorem test_meets_matrixCommands :
    (let s := at4 own
     CommandIssues s ctxMatrix ∧ (3 : BitVec 4).toNat < (s.tile s.cur.tile).tregs.toNat ∧
      (0 : BitVec 2).toNat < (s.tile s.cur.tile).accs.toNat ∧ (s.g 4).toNat % 128 = 0 ∧ (s.g 0).toNat < 2 ^ 9 ∧
      (∃ q x, matrixOperand s (s.g 4) 16384 .read = .ok (q, x)) ∧
      (∃ q x, matrixOperand s (s.g 4) 16384 .write = .ok (q, x) ∧ Confirmed q) ∧
      (∃ q x, matrixOperand s (s.g 4) 98304 .read = .ok (q, x)) ∧
      (∃ q x, matrixOperand s (s.g 4) 98304 .write = .ok (q, x) ∧ Confirmed q)) ∧
    (let s := here.modSelf fun t => { t with
       ttag := (Vector.replicate 16 2).set 3 7, tshape := (Vector.replicate 16 0x807F).set 3 0x807F }
     checkMma s 0 1 none = .ok ()) ∧
    (let s := here.modSelf fun t => { t with ttag := (Vector.replicate 16 4).set 3 7 }
     checkMma s 0 1 (some 3) = .ok ()) :=
  Chk.run (.and (.and .issues (.and .dec (.and .dec (.and .dec (.and .dec (.and .isOk2 (.and (.ok2 fun _ _ => .confirmed)
    (.and .isOk2 (.ok2 fun _ _ => .confirmed))))))))) (.and .unit .unit))

/-- Words of 8 bytes at the start of the tile's own array, where `g4` points. -/
def words (l : List (Nat × Nat)) : State :=
  { at4 own with mem := l.foldl (fun m p => writeNat m (tileBase 0 + p.1) 8 p.2) rcbBytes }

/-- A copy of no byte and one across lines, transforms, a promotion of each kind, and a place for every operand. -/
theorem test_meets_copyCommands :
    (let s := regs (at4 0x100) [(2, wd (own + 4)), (6, 300)]
     CommandIssues s ctxCopy ∧ (s.g 6).toNat < 2 ^ 32 ∧ useScope s 0 = .ok (sets0 s) ∧
      ∃ s1 src, operand s (s.g 4) 300 .read = .ok (s1, src) ∧ Confirmed s1 ∧
      (∃ s2 dst, operand s1 (s1.g 2) 300 .write = .ok (s2, dst) ∧ checkWrites s2 dst = .ok ()) ∧
      (∃ s2 dst, localOperand s1 (s1.g 2) 300 .write = .ok (s2, dst) ∧ Confirmed s2) ∧
      (xformOk 0x10000003 = true ∧ xKind 0x10000003 ≠ 5) ∧
      (∃ s2 dst, operand s1 (s1.g 2) (outputLength 0x10000003 300) .write = .ok (s2, dst) ∧ checkWrites s2 dst = .ok ()) ∧
      (∃ s2 dst, operand s1 (s1.g 4) 300 .write = .ok (s2, dst) ∧ (∀ y ∈ dst, y.pa < hbmEnd) ∧ Confirmed s2) ∧
      (∃ s2 dst, operand s1 (s1.g 0) 0 .write = .ok (s2, dst) ∧ dst = [])) ∧
    (let s := regs (words [(0, 3 + 8 * 2 ^ 20), (16, own + 0x100)]) [(2, wd (own + 0x200))]
     CommandIssues s ctxCopy ∧ ∃ s1 desc, readDesc s (s.g 4) = .ok (s1, desc) ∧ gsForm desc = true ∧
      (∃ s2 area, localOperand s1 (s1.g 2) (gsCount desc * gsElem desc) .write = .ok (s2, area) ∧
       ∃ s3 list, localOperand s2 (gsIdx desc) (8 * gsCount desc) .read = .ok (s3, list) ∧ checkWrites s3 area = .ok ()) ∧
      (∃ s2 area, localOperand s1 (s1.g 2) (gsCount desc * gsElem desc) .read = .ok (s2, area) ∧
       ∃ s3 list, localOperand s2 (gsIdx desc) (8 * gsCount desc) .read = .ok (s3, list) ∧ Confirmed s3)) :=
  ⟨⟨Chk.run .issues, by decide +kernel, rfl, Chk.run (.ok2 fun _ _ => .and .confirmed (.and (.ok2 fun _ _ => .unit)
      (.and (.ok2 fun _ _ => .confirmed) (.and .dec (.and (.ok2 fun _ _ => .unit) (.and (.ok2 fun _ _ => .and .dec .confirmed)
        (.ok2 fun _ _ => .dec)))))))⟩,
    Chk.run (.and .issues (.ok2 fun _ _ => .and .dec (.and (.ok2 fun _ _ => .ok2 fun _ _ => .unit)
      (.ok2 fun _ _ => .ok2 fun _ _ => .confirmed))))⟩

/-- The placed region with its whole range tree, whose one leaf is an entry. -/
def placed (e : RangeEntry) : State :=
  let s := State.reset.withProgram []
  { s with agenda := [], cur := ⟨0, 0⟩, mem := writeBytes s.mem (placeRoot + 0x100) e.bytes }

/-- A range that may move to other lines, and one that is SHARED. -/
theorem test_meets_rangeMove :
    (let s := regs (placed placeEntry) [(5, 0x3000000)]
     CommandIssues s ctxCopy ∧ (s.g 0).toNat < 2 ^ 56 ∧ useScope s 0 = .ok (sets0 s) ∧ Confirmed s ∧
      ∃ l, s.leafAt s.self.region 0 = some l ∧ l.entry.moveOk (s.g 5) = true ∧ s.moveAccess l.entry (s.g 5) = .ok () ∧
       l.entry.shared = false ∧ l.entry.forwarding = false) ∧
    (let s := regs (placed { placeEntry with shared := true }) [(5, 0x3000000)]
     ∃ l, s.leafAt s.self.region 0 = some l ∧ l.entry.moveOk (s.g 5) = true ∧ s.moveAccess l.entry (s.g 5) = .ok () ∧
      l.entry.shared = true) :=
  ⟨⟨Chk.run .issues, by decide +kernel, rfl, Chk.run .confirmed, Chk.run (.some fun _ => .and .dec (.and .unit .dec))⟩,
    Chk.run (.some fun _ => .and .dec (.and .unit .dec))⟩

/-- What `DrawCommands` asks of a draw form other than mode 2 of `accept`, with the descriptor at `g4` and the output at
`g2`. -/
abbrev DrawReady (f : DrawForm) (s : State) (mode2 : Bool) : Prop :=
  CommandIssues s ctxDraw ∧ ∃ s1 desc, readDesc s (s.g 4) = .ok (s1, desc) ∧ dwForm f desc = true ∧
  (f = .rng ∨ logitTag (dwTag desc) = true) ∧
  (f.twoStage desc = true → dwXaddr desc ≠ 0 ∧ dwMaddr desc = 0 ∧ (dwXaddr desc).toNat % 64 = 0) ∧
  (f.residual desc = true → dwXaddr desc ≠ 0) ∧ (mode2 = true ↔ (f = .accept ∧ dwMode desc = 2)) ∧
  ∃ s2 src, readAreas (f.areas desc) s1 = .ok (s2, src) ∧
  ∃ s3 dst, localOperand s2 (s2.g 2) (f.outBytes desc) .write = .ok (s3, dst) ∧ checkWrites s3 dst = .ok () ∧
  (mode2 = true → ∃ s4 block, loadChecked s3 (dwXaddr desc) 64 64 = .ok (s4, block) ∧
    (wordAt block 3).toNat % 2 ^ 56 ≠ 0 ∧ checkWrites s4 dst = .ok ())

def Chk.draw {f : DrawForm} {s : State} : Chk (DrawReady f s false) :=
  .and .issues (.ok2 fun _ _ => .and .dec (.and .dec (.and .dec (.and .dec (.and .dec (.ok2 fun _ _ => .ok2 fun _ _ =>
    .and .unit ⟨true, fun _ h => by simp at h⟩))))))

def Chk.drawMode2 {f : DrawForm} {s : State} : Chk (DrawReady f s true) :=
  .and .issues (.ok2 fun _ _ => .and .dec (.and .dec (.and .dec (.and .dec (.and .dec (.ok2 fun _ _ => .ok2 fun _ _ =>
    .and .unit (.imp (.ok2 fun _ _ => .and .dec .unit))))))))

/-- A descriptor of 8 logits in BF16, and what the two-stage forms, the residual mode and mode 2 add to it. -/
theorem test_meets_drawCommands :
    let N := 8 + 2 * 2 ^ 20
    let st (l : List (Nat × Nat)) : State := regs (words ((32, own + 0x100) :: l)) [(2, wd (own + 0x200))]
    DrawReady .rng (st [(0, N)]) false ∧ DrawReady .topk (st [(0, N)]) false ∧ DrawReady .gmask (st [(0, N)]) false ∧
    DrawReady .draw (st [(0, N)]) false ∧ DrawReady .drawv (st [(0, N), (48, own + 0x140)]) false ∧
    DrawReady .accept (st [(0, N), (48, own + 0x140)]) false ∧
    DrawReady .accept (st [(0, N + 2 ^ 24), (48, own + 0x140)]) false ∧
    DrawReady .accept (st [(0, N + 2 * 2 ^ 24), (48, own + 0x140), (0x158, own + 0x180)]) true :=
  Chk.run (.and .draw (.and .draw (.and .draw (.and .draw (.and .draw (.and .draw (.and .draw .drawMode2)))))))

/-- Descriptors of a router, of a collective and of a ring step, over the tile's own scope. -/
theorem test_meets_exchangeCommands :
    let x (s : State) : Sets := s.setsOf s.cur s.self.region 1
    (let s := regs (words [(0, 1 + 2 ^ 13 + 3 * 2 ^ 17 + 2 ^ 29 + 16 * 2 ^ 33), (8, own + 0x100), (16, own + 0x140),
        (24, own + 0x180)]) [(2, wd (own + 0x200))]
     CommandIssues s ctxExchange ∧ (∃ y, useScope s 1 = .ok y) ∧ ∃ s1 desc, readDesc s (s.g 4) = .ok (s1, desc) ∧
      rtForm desc = true ∧ logitTag (rtTag desc) = true ∧ ∃ s2 src, readAreas (rtAreas desc) s1 = .ok (s2, src) ∧
      ∃ s3 dst, localOperand s2 (s2.g 2) (8 * rtTokens desc * rtRanks desc) .write = .ok (s3, dst) ∧ Confirmed s3) ∧
    (let s := words [(0, 8), (8, 16), (16, own + 0x100), (24, own + 0x200)]
     CommandIssues s ctxExchange ∧ (∃ y, useScope s 1 = .ok y) ∧ ∃ s1 desc, readDesc s (s.g 4) = .ok (s1, desc) ∧
      collForm desc = true ∧ collFormat desc = true ∧ ∃ s2 src, localOperand s1 (collSrc desc) (collBytes desc) .read = .ok (s2, src) ∧
      ∃ s3 dst, localOperand s2 (collDst desc) (collOut desc (x s).tileList.length) .write = .ok (s3, dst) ∧ Confirmed s3) ∧
    (let s := words [(0, 256 * 64), (8, own + 0x1000), (16, own + 0x2000), (24, own + 0x3000)]
     CommandIssues s ctxExchange ∧ (∃ y, useScope s 1 = .ok y) ∧ ∃ s1 desc, readDesc s (s.g 4) = .ok (s1, desc) ∧
      ringForm desc = true ∧
      ∃ s2 held, localOperand s1 (ringHeld desc) (ringBytes desc) .write = .ok (s2, held) ∧
      ∃ s3 l, localOperand s2 (ringHeld desc) (ringBytes desc) .read = .ok (s3, l) ∧
      ∃ s4 fwd, localOperand s3 (ringFwd desc) (ringBytes desc) .read = .ok (s4, fwd) ∧
      ∃ s5 rcv, localOperand s4 (ringRcv desc) (ringBytes desc) .write = .ok (s5, rcv) ∧
      ∃ s6 m, localOperand s5 (ringRcv desc) (ringBytes desc) .read = .ok (s6, m) ∧ Confirmed s6) :=
  Chk.run (.and
    (.and .issues (.and .isOk (.ok2 fun _ _ => .and .dec (.and .dec (.ok2 fun _ _ => .ok2 fun _ _ => .confirmed)))))
    (.and (.and .issues (.and .isOk (.ok2 fun _ _ => .and .dec (.and .dec (.ok2 fun _ _ => .ok2 fun _ _ => .confirmed)))))
      (.and .issues (.and .isOk (.ok2 fun _ _ => .and .dec (.ok2 fun _ _ => .ok2 fun _ _ => .ok2 fun _ _ => .ok2 fun _ _ =>
        .ok2 fun _ _ => .confirmed))))))

/-- A context in the tile's own array with a depth and words at byte offsets: CSTATE 1, one layer and one head of
dimension 16 in E4M3, 256 tokens, the slab at 0x4000 of page 0, generation 1. `g4` holds its handle. -/
def context (depth : Nat) (l : List (Nat × Nat)) : State :=
  let all := [(0, 1 + 4 * depth + 8 * 2 ^ 7 + 4 * 2 ^ 35 + 4 * 2 ^ 39), (8, 0x4000), (64, 1)] ++ l
  { at4 (own + 1) with mem := all.foldl (fun m p => writeNat m (tileBase 0 + p.1) 8 p.2) (placeBytes [] []) }

/-- An append of the first token; attention over the context, from nothing and from a state; and `attn.fin`. -/
theorem test_meets_appendsAndAttention :
    (let s := regs (context 1 []) [(2, wd (own + 0x2000)), (3, wd (own + 0x2040)), (6, 0), (7, 5)]
     let x := s.setsOf s.cur s.self.region 1
     (s.g 4).toNat < 2 ^ 56 ∧ s.self.captured = none ∧ (s.modSelf fun t => { t with captured := some x }).self.captured = some x ∧
     (∃ y, useScope s 1 = .ok y ∧ y = x) ∧ (s.g 6).toNat < 2 ^ 39 ∧
     ∃ s1 cx, openCtx s (s.g 4) .write = .ok (s1, cx) ∧ (s.g 6).toNat / 2 ^ 32 % 2 ^ 7 ≤ s1.clayers cx ∧
      checkSlab s1 cx = .ok () ∧ judgeAppend s1 cx (s.g 4) ((s.g 6).toNat % 2 ^ 32) x = .ok () ∧
      ∃ s2 key, loadChecked s1 (s1.g 2) (s1.rowK cx) 32 = .ok (s2, key) ∧
      (∃ u, appendReady s1 cx 0 0 = .ok u) ∧
      ∃ s3 val, loadChecked s2 (s2.g 3) (s2.rowV cx) 32 = .ok (s3, val) ∧ ∃ s4 y, appendReady s3 cx 0 0 = .ok (s4, y)) ∧
    (∀ init ∈ [0, 1],
      let s := regs (context 1 [(0x1000, 2 ^ 51 * init), (0x1008, own + 0x2000), (0x1010, own + 0x3000)])
        [(2, wd (own + 0x1000))]
      CommandIssues s ctxMatrix ∧ (∃ x, useScope s 1 = .ok x) ∧
      ∃ s1 cx, openCtx s (s.g 4) .read = .ok (s1, cx) ∧ ∃ s2 desc, readDesc s1 (s.g 2) = .ok (s2, desc) ∧
       atForm desc = true ∧ atLayer desc ≤ s2.clayers cx ∧ atHead desc ≤ s2.kvh cx ∧ (atQaddr desc).toNat % 16 = 0 ∧
       (atSaddr desc).toNat % 16 = 0 ∧ atInit desc = (init = 1) ∧
       ∃ s3 q, matrixOperand s2 (atQaddr desc) (atRows desc * 4 * s2.cdim cx) .read = .ok (s3, q) ∧
       ∃ s4 y, matrixOperand s3 (atSaddr desc) (atRows desc * rowSize (s3.cdim cx)) .write = .ok (s4, y) ∧ Confirmed s4 ∧
        s4.fstart cx (s4.topFrame cx) ≤ atQpos desc ∧
        ∃ s5 z, matrixOperand s4 (atSaddr desc) (atRows desc * rowSize (s4.cdim cx)) .read = .ok (s5, z) ∧ Confirmed s5 ∧
         s5.fstart cx (s5.topFrame cx) ≤ atQpos desc) ∧
    (let s := regs (at4 (own + 0x2000)) [(2, wd (own + 0x3000))]
     CommandIssues s ctxMatrix ∧ (s.g 4).toNat % 16 = 0 ∧ (s.g 2).toNat % 16 = 0 ∧
     ∃ s1 y, matrixOperand s (s.g 4) 16 .read = .ok (s1, y) ∧
     ∃ s2 z, matrixOperand s1 (s.g 2) 64 .write = .ok (s2, z) ∧ Confirmed s2) :=
  ⟨Chk.run (.and .dec (.and .dec (.and .dec (.and (.ok fun _ => .dec) (.and .dec (.ok2 fun _ _ => .and .dec (.and .unit
      (.and .unit (.ok2 fun _ _ => .and .isOk (.ok2 fun _ _ => .isOk2)))))))))),
    fun init h => by
      simp only [List.mem_cons, List.not_mem_nil, or_false] at h
      rcases h with rfl | rfl <;>
      exact Chk.run (.and .issues (.and .isOk (.ok2 fun _ _ => .ok2 fun _ _ => .and .dec (.and .dec (.and .dec (.and .dec
        (.and .dec (.and .dec (.ok2 fun _ _ => .ok2 fun _ _ => .and .confirmed (.and .dec (.ok2 fun _ _ => .and .confirmed
          .dec))))))))))),
    Chk.run (.and .issues (.and .dec (.and .dec (.ok2 fun _ _ => .ok2 fun _ _ => .confirmed))))⟩

/-- A frame act: no context, the last push, an argument span of the whole frame below, a prologue, and both ends of
the selectors of `finfo`. -/
theorem test_meets_frameActs :
    (let s := context 15 []
     s.g 0 = 0 ∧ s.g 4 ≠ 0 ∧ (s.g 4).toNat < 2 ^ 56 ∧
     (∃ q cx, openCtx s (s.g 4) .read = .ok (q, cx) ∧ checkSlab q cx = .ok () ∧ q.boundHandle = 0 ∧
       ∃ u, needBlock q q.me = .ok u) ∧
     ((s.modFibre s.me fun f => { f with bound := some (s.g 4, tileBase 0) }).boundHandle ≠ 0) ∧
     ∃ q cx, openCtx s (s.g 4) .write = .ok (q, cx) ∧ checkSlab q cx = .ok () ∧ q.cstate cx ≠ 2 ∧ q.cstate cx ≠ 3 ∧
      q.cdepth cx = 15 ∧ q.cvalid cx = q.ccursor cx) ∧
    (let s := regs (context 2 [(16, 4), (24, 4), (320, 4)]) [(2, 0), (3, 4)]
     ∃ q cx, openCtx s (s.g 4) .write = .ok (q, cx) ∧ checkSlab q cx = .ok () ∧ q.fseal cx (q.topFrame cx) = 0 ∧
      q.spanOk cx (q.topFrame cx) (s.g 2).toNat (s.g (pair 2)).toNat = true ∧ q.fproset cx (q.topFrame cx) = 0 ∧
      q.ccursor cx - q.fstart cx (q.topFrame cx) ≤ 65535) :=
  Chk.run (.and (.and .dec (.and .dec (.and .dec (.and (.ok2 fun _ _ => .and .unit (.and .dec .isOk)) (.and .dec
    (.ok2 fun _ _ => .and .unit .dec)))))) (.ok2 fun _ _ => .and .unit .dec))

/-- A pop of a frame of one token, which is its result, and a fork. -/
theorem test_meets_popsAndForks :
    let s := regs (context 2 [(16, 5), (24, 5), (320, 4)]) [(2, 4), (3, 1)]
    (s.g 4).toNat < 2 ^ 56 ∧ ∃ q cx, openCtx s (s.g 4) .write = .ok (q, cx) ∧ checkSlab q cx = .ok () ∧
      q.cvalid cx = q.ccursor cx ∧ q.cstate cx ≠ 2 ∧ q.cdepth cx ≠ 1 ∧ q.seald cx ≤ q.topFrame cx ∧
      q.fseal cx (q.topFrame cx) = 0 ∧ q.fstart cx (q.topFrame cx) ≤ (s.g 2).toNat ∧
      (s.g 2).toNat + (s.g (pair 2)).toNat ≤ q.ccursor cx ∧ (s.g (pair 2)).toNat ≤ 2 ^ 20 ∧ q.otherReaders cx = 0 ∧
      q.chain cx ≠ 15 ∧ (∃ p, ((q.release setsDevice).sealFrames cx).forkCtx cx (s.g 4) = .ok p) ∧
      let layers := List.range (q.clayers cx + 1)
      ∃ q1, needSlab q [.read] ((List.range 1).flatMap fun i => q.tokenSpans cx (4 + i) layers) = .ok q1 ∧
        ∃ q2, needSlab q1 [.write] ((List.range 1).flatMap fun i =>
          q1.tokenSpans cx (q.fstart cx (q.topFrame cx) + i) layers) = .ok q2 :=
  Chk.run (.and .dec (.ok2 fun _ _ => .and .unit (.and .dec (.and .dec (.and .dec (.and .dec (.and .dec (.and .dec
    (.and .dec (.and .dec (.and .dec (.and .dec (.and .isOk (.ok fun _ => .isOk))))))))))))))

/-! Ranges, the system forms, and stops. -/

/-- A region whose node pool has free units. -/
def pooled (s : State) : State := s.modRegion 0 fun r => { r with freeUnits := [0x1005000, 0x1005100] }

/-- The placed tree with a second range behind the first one. -/
def placed2 : State :=
  let s := placed placeEntry
  { s with mem := writeBytes s.mem (placeRoot + 0x180) ({ placeEntry with vbase := 0x10000, limit := 0x20000 } : RangeEntry).bytes }

/-- The state with a running copy of the current thread that has translated page 0 and not finished it. -/
def busy4 : State :=
  let s := at4 0
  s.modTile 0 fun t => { t with cmds := [{ s.newCmd (.cpy 4 4 6) ctxCopy with
    running := true, opa := 0, opb := 4096, pages := [⟨false, 0, rangeAt 0 0x10000 placeImage⟩] }] }

/-- Probes of an address beyond 2^56, of a mapped one and of one that no entry covers; splits and merges that act and
that do not; an invalidation with nothing and with a copy under way; and compactions. -/
theorem test_meets_rangeActs :
    (2 ^ 56 ≤ ((at4 (2 ^ 56)).g 4).toNat ∧ ((at4 (2 ^ 56 - 1)).g 4).toNat < 2 ^ 56) ∧
    (∃ q e, here.lookup here.cur.tile here.self.region 0xFFFF = .ok (q, e)) ∧
    (∃ k, (placed placeEntry).lookup 0 0 0x10000 = .error k) ∧
    (let q := (pooled (placed placeEntry)).release setsDevice
     Confirmed (placed placeEntry) ∧ (∃ t, q.splitRange q.self.region 0x100 = .ok t) ∧
      (∃ e, q.splitRange q.self.region 0x10000 = .error e ∧ e = none) ∧
      ∃ e, q.mergeRanges q.self.region 0x10000 = .error e ∧ e = none) ∧
    (let q := placed2.release setsDevice
     ∃ t, q.mergeRanges q.self.region 0x10000 = .ok t) ∧
    (let s := at4 0
     let x := s.setsOf s.cur s.self.region 1
     s.self.captured = none ∧ (∃ y, useScope s 1 = .ok y ∧ y = x) ∧
      (s.release x).pagesBusy (s.treeOf s.self.region) x (fun e => e.covers 0) = false) ∧
    (let s := busy4
     let x := s.setsOf s.cur s.self.region 1
     (s.modSelf fun t => { t with captured := some x }).self.captured = some x ∧
      (s.release x).pagesBusy (s.treeOf s.self.region) x (fun e => e.covers 0) = true) ∧
    (Privileged here ∧ (here.g 6).toNat < 4 ∧ (here.g 6).toNat ≤ 16 ∧ (here.die 0).compact = none ∧
      ((here.modDie 3 fun d => { d with compact := some 16 }).die 3).compact ≠ none) :=
  Chk.run (.and .dec (.and .isOk2 (.and .err (.and (.and .confirmed (.and .isOk (.and (.er fun _ => .dec) (.er fun _ => .dec))))
    (.and .isOk (.and (.and .dec (.and (.ok fun _ => .dec) .dec)) (.and .dec (.and .privileged .dec))))))))

/-- A request for die 3 and order 16, free and under way; and requests with a die and with an order out of range. -/
theorem test_meets_compactionRequest :
    (let s := regs here [(4, 3), (5, 16)]
     Confirmed s ∧ Privileged s ∧ (s.g 4).toNat ≤ 3 ∧ (s.g 5).toNat ≤ 16 ∧
      (s.die ((s.g 4).setWidth 2)).compact = none ∧
      ((s.modDie 3 fun d => { d with compact := some 16 }).die ((s.g 4).setWidth 2)).compact ≠ none) ∧
    (3 < ((regs here [(4, 4)]).g 4).toNat ∧ 16 < ((regs here [(5, 17)]).g 5).toNat) :=
  Chk.run (.and (.and .confirmed (.and .privileged .dec)) .dec)

/-- The placed tree, `g4` at an image of an entry in page 0. -/
def image (e : RangeEntry) : State :=
  let s := pooled (placed placeEntry)
  regs { s with mem := writeBytes s.mem placeImage e.bytes } [(4, 0)]

theorem test_meets_rangeSetAndPin :
    (let s := image { placeEntry with vbase := 0x10000, limit := 0x20000 }
     let q := s.release setsDevice
     Confirmed s ∧ ∃ s1 bs, loadChecked q (q.g 4) 64 64 = .ok (s1, bs) ∧ rsetForm bs = true ∧
      (entryOfBytes bs).allowed = true ∧ s1.overlapsOther s1.self.region (entryOfBytes bs) = false ∧
      ∃ t, s1.rsetAct s1.self.region (entryOfBytes bs) = .ok t) ∧
    (let s := image { placeEntry with vbase := 0x10000, limit := 0x20000, permR := false, permW := false, permX := false }
     let q := s.release setsDevice
     Confirmed s ∧ ∃ s1 bs, loadChecked q (q.g 4) 64 64 = .ok (s1, bs) ∧ rsetForm bs = true ∧
      (entryOfBytes bs).allowed = true ∧ (entryOfBytes bs).removes = true ∧
      ∃ e, s1.rsetAct s1.self.region (entryOfBytes bs) = .error e ∧ e = none) ∧
    (let s := image { placeEntry with vbase := 0x8000, limit := 0x18000 }
     let q := s.release setsDevice
     ∃ s1 bs, loadChecked q (q.g 4) 64 64 = .ok (s1, bs) ∧ rsetForm bs = true ∧ (entryOfBytes bs).allowed = true ∧
      s1.overlapsOther s1.self.region (entryOfBytes bs) = true) ∧
    (let s := image { placeEntry with vbase := 0x10000, limit := 0x20000, tiered := true }
     let q := s.release setsDevice
     ∃ s1 bs, loadChecked q (q.g 4) 64 64 = .ok (s1, bs) ∧ (rsetForm bs = false ∨ (entryOfBytes bs).allowed = false)) ∧
    (here.g 6 = 0 ∧ (regs here [(6, 1)]).g 6 ≠ 0 ∧ ((regs here [(6, 1)]).g 6).toNat < 2 ^ 32) ∧
    (let s := at4 0
     ∃ s1 e, s.translate s.cur.tile s.self.region (s.lineage s.me) (s.g 4) 1 .read = .ok (s1, e) ∧ Confirmed s1 ∧
      e.tiered = false) ∧
    (let s := at4 (tier + 0xFFFF)
     ∃ s1 e, s.translate s.cur.tile s.self.region (s.lineage s.me) (s.g 4) 2 .read = .ok (s1, e) ∧ Confirmed s1 ∧
      e.tiered = true) :=
  Chk.run (.and (.and .confirmed (.ok2 fun _ _ => .and .dec (.and .dec (.and .dec .isOk))))
    (.and (.and .confirmed (.ok2 fun _ _ => .and .dec (.and .dec (.and .dec (.er fun _ => .dec)))))
      (.and (.ok2 fun _ _ => .dec) (.and (.ok2 fun _ _ => .dec) (.and .dec (.and (.ok2 fun _ _ => .and .confirmed .dec)
        (.ok2 fun _ _ => .and .confirmed .dec)))))))

/-- Numbers of system registers at the ends of the table's rows. -/
theorem test_meets_systemReads :
    Privileged here ∧ (0 : BitVec 5).toNat * 32 + (0 : BitVec 5).toNat = 0 ∧
    (0 : BitVec 5).toNat * 32 + (8 : BitVec 5).toNat = 8 + (0 : BitVec 2).toNat ∧
    (0 : BitVec 5).toNat * 32 + (15 : BitVec 5).toNat = 12 + (3 : BitVec 2).toNat ∧
    17 < (31 : BitVec 5).toNat * 32 + (31 : BitVec 5).toNat := Chk.run (.and .privileged .dec)

theorem test_meets_systemWrites :
    Privileged here ∧ (0 : BitVec 5).toNat * 32 + (11 : BitVec 5).toNat = 8 + (3 : BitVec 2).toNat ∧
    ((regs here [(2, 0x7FFFFF)]).g 2).toNat < 2 ^ 23 ∧ 2 ≤ ((regs here [(2, 2)]).g 2).toNat ∧
    ((regs here [(2, 15)]).g 2).toNat < 16 ∧ ((regs here [(2, 0x1FFFF)]).g 2).toNat < 2 ^ 17 ∧
    (0 : BitVec 5).toNat * 32 + (12 : BitVec 5).toNat < 16 ∧ 2 ^ 23 ≤ ((regs here [(2, 0x800000)]).g 2).toNat ∧
    16 ≤ ((regs here [(2, 16)]).g 2).toNat ∧ ((regs here [(2, 1)]).g 2).toNat < 2 ∧
    2 ^ 17 ≤ ((regs here [(2, 0x20000)]).g 2).toNat := Chk.run (.and .privileged .dec)

/-- The widest carve-out that R104 admits, on a quiescent tile and beside another activation; and a watch pair. -/
theorem test_meets_carveAndWatch :
    Privileged here ∧ (16 ≤ 16 ∧ 0 ≤ 4 ∧ 32 ≤ 32 ∧ 16 * 16 + 96 * 0 + 32 + 64 ≤ 384) ∧
    ¬(16 * 16 + 96 * 1 + 32 + 64 ≤ 384) ∧
    (here.tile here.cur.tile).quiescent (some here.cur.thread) = true ∧
    ((here.modThread ⟨0, 1⟩ fun t => { t with active := true }).tile 0).quiescent (some 0) = false ∧
    (let s := words [(0, tileBase 0), (8, 3 + 2 ^ 32)]
     ∃ s1 bs, loadChecked s (s.g 4) 16 16 = .ok (s1, bs) ∧ s1.pairOk (wordAt bs 0) (wordAt bs 1) (s1.g 0) = true ∧
      s1.pairOk (wordAt bs 0) (wordAt bs 1) (BitVec.allOnes 64) = false) :=
  Chk.run (.and .privileged (.and .dec (.and .dec (.and .dec (.and .dec (.ok2 fun _ _ => .dec))))))

/-- A fibre whose fault waits, the same fibre without one, a thread that may be stepped, and one that may not. -/
theorem test_meets_settleAndStep :
    (Privileged here ∧ (here.g 0).toNat < 4 ∧ handleForm (here.g 4) = true ∧ hKind (here.g 4) = 1 ∧
     ∃ f, here.fibre? (here.g 4) = some f ∧ here.atOrBelow here.self.region f.region = true ∧ f.fault = none) ∧
    (let s := here.modFibre (here.g 4) fun f => { f with fault := some FaultRec.reset }
     ∃ f, s.fibre? (s.g 4) = some f ∧ s.atOrBelow s.self.region f.region = true ∧ f.fault.isSome = true) ∧
    (let s := (here.modThread ⟨0, 7⟩ fun t => { t with active := true, suspended := true }).modRegion 0 fun r =>
       { r with frozen := true }
     s.steppable s.self.region ⟨0, 7⟩ = true ∧ s.steppable s.self.region ⟨1023, 7⟩ = false ∧ (4 : Nat) ≤ (4 : Word).toNat ∧
      2 ^ 13 ≤ (0x2000 : Word).toNat) :=
  Chk.run (.and (.and .privileged (.and .dec (.and .dec (.and .dec (.some fun _ => .dec))))) (.and (.some fun _ => .dec) .dec))

/-- The fates of the causes that have one of their own; and a thread that KV_RETRY stops in a region with a regeneration
handler, as the regeneration waits, with its message sent and not, has ended, and has become a dead letter. -/
theorem test_meets_fates :
    causeFate .watchdog = .w ∧ causeFate .doubleFault = .f ∧ causeFate .partialResidency = .p ∧
    causeFate .kvRetry = .k ∧ here.isSystem 0 0 here.self.handler = true ∧
    (let asked (f : RegenFate) (p : Nat) : State :=
       ((plain here).modSelf fun t =>
         { t with eff := { t.eff with regen := some (7, 0) },
                  deferred := [⟨ctxMatrix, 1, .kvRetry, 0, none, tileBase 0, f⟩] }).setCx
         (tileBase 0) 0 43 43 p
     let met (s : State) : Bool :=
       let t := s.self
       let q := s.actsFor (some t.eff)
       (q.regen? t.region).isSome && !(q.isSystem t.region s.cur.tile t.handler) && t.regenFate (tileBase 0) ≠ .lettered
     (met (asked .waiting 1) = true ∧ (asked .waiting 1).self.regenFate (tileBase 0) = .waiting ∧
       (asked .waiting 1).rgpend (tileBase 0) = 1) ∧
     (met (asked .waiting 0) = true ∧ (asked .waiting 0).rgpend (tileBase 0) ≠ 1) ∧
     (met (asked .ended 0) = true ∧ (asked .ended 0).self.regenFate (tileBase 0) ≠ .waiting) ∧
     met (asked .lettered 0) = false) := Chk.run .dec

/-- A stepped thread whose next instruction waits for a register, one whose step a command keeps open, and one of neither. -/
theorem test_meets_stepWaits :
    let p := placed placeEntry
    let s : State := { p with mem := writeNat p.mem (placeImage + placePc.toNat) 4 (encodeWord (.azero 0)) }.modSelf
      fun t => { t with suspended := true }
    let q := s.modTile 0 fun t =>
      { t with cmds := List.replicate 32 { here.newCmd (.azero 0) ctxMatrix with icnt := here.self.icnt } }
    s.powered = true ∧ s.stepWaits ⟨0, 0⟩ = false ∧ s.stepOpen ⟨0, 0⟩ = false ∧ q.stepOpen ⟨0, 0⟩ = true ∧
    q.stepWaits ⟨0, 0⟩ = true := Chk.run .dec

theorem test_meets_stops :
    (plain here).self.suspended = false ∧ (plain here).privileged = false ∧ causeFate .trap = .s ∧
    causeFate .breakpoint = .d ∧ (here.isSystem here.self.region 0 here.self.handler = true) ∧
    (plain here).isSystem here.self.region 0 (plain here).self.handler = false := Chk.run .dec

/-! Events. -/

/-- The module without memory or tiles, at a step of bring-up. -/
def step' (n : BitVec 4) : State := State.reset.modHub fun h => { h with phase := n }

/-- The module after bring-up, with a command of a code and an argument length that the mailbox has to process. -/
def mailbox (ready : Bool) (code len arg : Nat) : State :=
  here.modHub fun h => { h with
    ready := ready, mbxPending := some 0,
    request := bufferBytes (bufferBytes (bufferBytes [] 0 (leBytes 4 code)) 4 (leBytes 4 len)) 8 (leBytes 8 arg) }

theorem test_meets_resets : let s := mailbox true 8 0 0
    s.hub.mbxPending.isSome = true ∧ s.hub.freezing = none ∧ s.hub.mbxCode = 8 ∧ s.hub.mbxLen = 0 := Chk.run .dec

/-- Each step runs in a state of its own. What the boot ROM and the kernel accept is not the model's to say (log 5), so
either clause about it holds. -/
theorem test_meets_bringUp :
    (∀ n ∈ [1, 2, 3, 4, 5, 6, 7, 8, 9, 10], (step' n).hub.inStep n = true) ∧
    ((∃ b, (step' 2).hub.bootSlot = some b) ∨ (step' 2).hub.bootSlot = none) ∧
    (∀ k, (step' 10).hub.accepts k (step' 10).hub.runImage = true ∨
      (step' 10).hub.accepts k (step' 10).hub.runImage = false) := by
  refine ⟨by decide +kernel, ?_, fun k => ?_⟩
  · cases (step' 2).hub.bootSlot <;> simp
  · cases Hub.accepts _ k _ <;> simp

theorem test_meets_linksAndClock : let s := here.modHub fun h => { h with linkup := 0x8001, driveup := 0x8001, devnum := 1 }
    s.hub.phase ≠ 0 ∧ s.hub.fail = false ∧ s.hub.linkup.getLsbD 0 = true ∧ s.hub.linkup.getLsbD 15 = true ∧
    s.hub.ready = true ∧ s.hub.driveup.getLsbD 15 = true ∧ s.hub.devnum ≠ 0xFF ∧ (0xFE : BitVec 8) ≠ 0xFF ∧
    (∃ x, s.region? 0 = some x) := Chk.run (.and .dec (.and .dec (.and .dec (.and .dec (.and .dec (.and .dec (.and .dec
      (.and .dec .isSome))))))))

/-- A device that becomes the time master, one that stays synchronised to its master, and one whose master is new to it. -/
theorem test_meets_domains :
    let low : Route := ⟨0, 3⟩
    let h : Hub := { here.hub with ready := true, devnum := 5, routes := [low], tsync := true }
    let joined (r : List Route) : Hub := { h with devnum := 7, linkup := 8, routes := r }
    h.ready = true ∧ (joined []).master = true ∧ h.devnum ≠ 0xFF ∧ h.master = false ∧ h.tsync = true ∧
    (joined [low]).master = false ∧ (joined [low]).masterNumber = h.masterNumber ∧
    (let other : Route := { low with device := 1 }
     (joined [other]).master = false ∧ (joined [other]).masterNumber ≠ h.masterNumber) := Chk.run .dec

/-- A header flit for slot 0 with a payload of a length. -/
def flit (len : Nat) : List Byte := leBytes 16 0 ++ leBytes 8 len ++ leBytes 40 0

/-- A host range of 64 KiB of HBM that may be read and written. -/
def hosted : State := here.modHub fun h => { h with ranges := [(0, rangeAt 0 0x10000 0x6000000)] }

/-- A message for handler 0 of tile 0 of the placed region. -/
def letter : Message :=
  { uid := 0, kind := .plain, msgid := 0, dest := 0, arg := 0, cls := 0, region := 0, len := 0, payload := [], xform := 0,
    sets := none, colour := none }

/-- Window writes before and after READY, whole flits and broken ones, the headers with the longest payload in one flit,
a hub buffer with room and without, a message at its last tick and after it, the end of the request buffer, and host
accesses, one of them into the part of an array that no range maps. -/
theorem test_meets_hostActs :
    (step' 10).hub.ready = false ∧ here.hub.takes = true ∧ here.hub.stalled = [] ∧ here.hub.assemblies = [] ∧
    headerOk 0 (flit 40) = true ∧ flitLen (flit 40) ≤ 40 ∧ headerOk 1 (flit 40) = false ∧ headerOk 0 (flit 41) = true ∧
    40 < flitLen (flit 41) ∧ here.hubRoom (here.completes 0 (flit 40)) = true ∧
    (let m : Message := { letter with kind := .host, len := 4096 }
     let s := { here with net := List.replicate 8 m }
     s.hubRoom (s.completes 0 (flit 40)) = false) ∧
    (let a : Assembly := ⟨1023, flit 64, [], 0⟩
     let s (n : Word) : State := { here.modHub fun h => { h with assemblies := [a] } with time := n }
     (s 0).hub.assemblies.find? (fun a => decide (a.slot = (1023 : BitVec 10).toNat)) = some a ∧
      (s 0x100000).time.toNat ≤ a.since + 2 ^ 20 ∧ a.since + 2 ^ 20 < (s 0x100001).time.toNat) ∧
    (0x2FFF : BitVec 17).toNat < 0x3000 ∧ (leBytes 8 0).length = 8 ∧
    (∃ e, hosted.hub.hostRange 0xFFF8 8 true = some e ∧ (home? (hosted.forwarded 0xFFF8 (e.phys 0xFFF8))).isSome = true ∧
      hosted.arrayCheck (hosted.forwarded 0xFFF8 (e.phys 0xFFF8)) 8 .write = .ok ()) ∧
    (∃ e, hosted.hub.hostRange 0 16 false = some e ∧ (home? (hosted.forwarded 0 (e.phys 0))).isSome = true ∧
      hosted.arrayCheck (hosted.forwarded 0 (e.phys 0)) 16 .read = .ok ()) ∧
    (let s := here.modHub fun h => { h with ranges := [(0, rangeAt 0 0x10000 (tileBase 0 + 0x300000))] }
     ∃ e, s.hub.hostRange 0 8 true = some e ∧ (home? (s.forwarded 0 (e.phys 0))).isSome = true ∧
      (∃ k, s.arrayCheck (s.forwarded 0 (e.phys 0)) 8 .write = .error k) ∧
      ∃ k, s.arrayCheck (s.forwarded 0 (e.phys 0)) 8 .read = .error k) :=
  Chk.run (.and .dec (.and .dec (.and .dec (.and .dec (.and .dec (.and .dec (.and .dec (.and .dec (.and .dec (.and .dec
    (.and .dec (.and .dec (.and .dec (.and .dec (.and (.some fun _ => .and .dec .unit) (.and (.some fun _ => .and .dec .unit)
      (.some fun _ => .and .dec (.and .err .err))))))))))))))))))

/-- A gang slot whose staged flit and tick are good, at the first tick that an arming admits. -/
def ganged (state : BitVec 2) (tsync : Bool) : State :=
  here.modHub fun h => { (h.setGang 7 ⟨state, 0, 2000, bufferBytes [] 0 (flit 40)⟩) with tsync := tsync }

theorem test_meets_gangActs :
    ((ganged 0 true).hub.gang 7).state ≠ 1 ∧ (ganged 0 true).hub.takes = true ∧ (ganged 0 true).hub.tsync = true ∧
    ((ganged 0 true).hub.gang 7).flitOk = true ∧
    (ganged 0 true).time.toNat + 2000 ≤ ((ganged 0 true).hub.gang 7).tick.toNat ∧ (ganged 0 false).hub.tsync = false ∧
    (step' 10).hub.takes = false ∧ (here.modHub fun h => { h with fail := true }).hub.takes = false ∧
    (let s := { ganged 0 true with time := 1 }
     (s.hub.gang 7).tick.toNat < s.time.toNat + 2000) ∧
    (let g : Gang := ⟨0, 0, 2000, bufferBytes [] 0 (flit 41)⟩
     g.flitOk = false) ∧
    ((ganged 1 true).hub.gang 7).state = 1 ∧ (ganged 1 true).time.toNat < ((ganged 1 true).hub.gang 7).tick.toNat ∧
    (let s := { ganged 1 true with time := 2000 }
     (s.hub.gang 7).tick.toNat ≤ s.time.toNat ∧ s.hub.takes = true) := Chk.run .dec

/-- Each command of the mailbox with the length that its row takes, before and after READY. -/
theorem test_meets_mailboxCommands :
    (∀ p ∈ [(1, 0), (2, 64), (0, 0), (10, 0), (9, 0), (3, 40), (6, 8), (6, 4088), (7, 8), (4, 8), (5, 8)],
      let s := mailbox true p.1 p.2 0
      s.hub.mbxPending.isSome = true ∧ s.hub.freezing = none ∧ s.hub.mbxCode = p.1 ∧ s.hub.mbxLen = p.2 ∧
      s.hub.ready = true ∧ s.hub.mbxArg 0 ≤ 1) ∧
    (mailbox false 9 0 0).hub.ready = false ∧
    (∃ bs, (let s := mailbox true 3 40 0
      s.readback 9 0 0 0 8) = some bs) ∧
    (∃ x, (mailbox true 4 8 0).region? 0 = some x ∧ x.frozen = false ∧ x.stopping = false ∧ x.saved = none) ∧
    (∃ x, ((mailbox true 5 8 0).modRegion 0 fun x => { x with frozen := true }).region? 0 = some x ∧ x.frozen = true ∧
      x.saved = none) ∧
    (∃ x, ((mailbox true 5 8 0).modRegion 0 fun x => { x with stopping := true }).region? 0 = some x ∧ x.frozen = false ∧
      x.stopping = true ∧ x.saved = none) ∧
    (mailbox true 5 8 0).hub.hot = false ∧
    (let s := (mailbox true 5 8 0).modHub fun h => { h with fail := true, failstep := 0xE, hot := true }
     (∃ x, s.region? 0 = some x) ∧ s.hub.mbxPending.isSome = true ∧ s.hub.freezing = none ∧ s.hub.ready = true ∧
     s.hub.mbxCode = 5 ∧ s.hub.mbxLen = 8 ∧ s.hub.hot = true) ∧
    (∃ x, ((mailbox true 5 8 0).modRegion 0 fun x => { x with frozen := true, saved := some [] }).region? 0 = some x ∧
      x.saved.isSome = true) :=
  Chk.run (.and .dec (.and .dec (.and .isSome (.and (.some fun _ => .dec) (.and (.some fun _ => .dec)
    (.and (.some fun _ => .dec) (.and .dec (.and (.and .isSome .dec) (.some fun _ => .dec)))))))))

/-- Commands that are answered BADARG or NOREGION: the lengths next to the ones that fit, and values just beyond a limit. -/
theorem test_meets_mailboxErrors :
    (∀ p ∈ [(1, 1), (2, 63), (8, 1), (3, 39), (4, 7), (5, 9), (7, 7), (6, 7), (6, 4089), (9, 8)],
      let s := mailbox true p.1 p.2 0
      s.hub.mbxPending.isSome = true ∧ s.hub.freezing = none ∧ s.hub.mbxCode = p.1 ∧ s.hub.mbxLen = p.2 ∧
      s.hub.ready = true) ∧
    (let s := mailbox true 3 40 99
     s.hub.mbxLen = 40 ∧ s.readback (s.hub.mbxArg 0) (s.hub.mbxArg 1) (s.hub.mbxArg 2) (s.hub.mbxArg 3)
       (s.hub.mbxArg 4) = none) ∧
    1 < (mailbox true 7 8 2).hub.mbxArg 0 ∧ 2 ^ 16 ≤ (mailbox true 4 8 65536).hub.mbxArg 0 ∧
    (let s := mailbox true 5 8 65535
     s.hub.mbxLen = 8 ∧ s.region? (BitVec.ofNat 16 (s.hub.mbxArg 0)) = none) ∧
    (let s := (mailbox true 4 8 0).modHub fun h => { h with freezing := some 0 }
     s.hub.freezing = some 0 ∧ here.hub.freezing ≠ some 0) :=
  Chk.run (.and .dec (.and .dec (.and .dec (.and .dec (.and .dec .dec)))))

/-- System software's request for region 5 with one handler on tile 0: the RCB, a tree of one range of code, and blocks
for the store room of die 0. -/
def loading : LoadRequest :=
  let rcb := [(0, 5 + 0xD8 * 2 ^ 32), (16, 1), (24, 0x1002000), (32, 0x1001000), (40, 10), (48, 0x1003000), (56, 4)].foldl
    (fun m p => writeNat m p.1 8 p.2) ([] : List Host.Cell)
  let code : RangeEntry := { rangeAt 0x10000000 0x10001000 0x2000000 with permX := true, permW := false }
  let tree := writeBytes ([(0, 1), (8, 2 ^ 56), (128, 0x1001101), (136, 0x1001181)].foldl
    (fun m p => writeNat m p.1 8 p.2) ([] : List Host.Cell)) 0x100 code.bytes
  { rcb := 0x1000000, images := [⟨0x1000000, readBytes rcb 0 256⟩, ⟨0x1001000, readBytes tree 0 512⟩],
    handlers := [⟨0, 0, 0x10000000⟩], root := 0, keeps := [], ctxs := [], scopes := [], tregs := 0, accs := 0, lzb := some 8,
    forks := some 0, slab := none, code := [⟨0, 0x10000000, leBytes 4 0x4C000007⟩], blocks := [⟨0, 4096, 2048⟩],
    hostRanges := [] }

/-- A load that is accepted, one whose RCB no image gives a region number that is free, one whose number is loaded, and one
before READY. -/
theorem test_meets_regionLoad :
    let s := State.reset.modHub fun h => { h with ready := true }
    (∃ t, s.loadRegion loading = .ok t) ∧
    (∃ e, s.loadRegion { loading with images := [⟨0x1000000, leBytes 8 (2 ^ 63)⟩] } = .error e ∧ e = .noRegion) ∧
    (∃ e, ({ s with regions := [(5, placeRegion)] } : State).loadRegion loading = .error e ∧ e = .noRegion) ∧
    ∃ e, State.reset.loadRegion loading = .error e ∧ e = .refused :=
  Chk.run (.and .isOk (.and (.er fun _ => .dec) (.and (.er fun _ => .dec) (.er fun _ => .dec))))

/-- A module at READY. -/
def loadable : State := State.reset.modHub fun h => { h with ready := true }
/-- A context of 2^n tokens, of one layer and one head of dimension 16. -/
def ctxOf (n : BitVec 5) : CtxDecl := ⟨[0], n, 0, none, none, none, none⟩

/-- A load that a store room refuses for a slab. -/
theorem test_meets_loadSlabRefused :
    ∃ e, loadable.loadRegion { loading with ctxs := [ctxOf 20] } = .error e ∧ e = .noRoom 0 false := Chk.run (.er fun _ => .dec)

/-- A load that a store room refuses for the nodes of the tree. -/
theorem test_meets_loadNodesRefused :
    ∃ e, loadable.loadRegion { loading with blocks := [] } = .error e ∧ e = .noRoom 0 true := Chk.run (.er fun _ => .dec)

/-- A load that waits for a compaction under way, in a store room of one block of its own and two borrowed batches, which
serve no order above 6. -/
theorem test_meets_loadWaits :
    let m : Move := ⟨0, 0, 0x10000, 0, 0x10000, 0, setsDevice, .compaction 0, 0, [], none, 0, true⟩
    let q := { loadable with moves := [m] }.modDie 0 fun d =>
      { d with freeRuns := [⟨0x1000, 0⟩, ⟨0x400000, 6⟩, ⟨0x400040, 6⟩], borrowed := [⟨1, 0x400000⟩, ⟨1, 0x400040⟩],
               reserve := 0 }
    ∃ e, q.loadRegion { loading with blocks := [], ctxs := [ctxOf 15] } = .error e ∧ e = .later 0 7 :=
  Chk.run (.er fun _ => .dec)

/-- The placed region with its record changed, and no activation on its thread. -/
def region (f : Region → Region) : State :=
  ((here.modRegion 0 f).modTile 0 fun t => { t with slots := [] }).modThread ⟨0, 0⟩ fun _ => Thread.reset

/-- A region that runs, one that is unloading and at rest, one that is frozen, and one that was switched out. -/
theorem test_meets_regionMoves :
    (∃ x, here.region? 0 = some x ∧ x.saved = none ∧ x.unloading = false) ∧
    (let s := region fun x => { x with unloading := true }
     ∃ x, s.region? 0 = some x ∧ x.saved = none ∧ x.unloading = true ∧ s.quiet 0 = true) ∧
    (let s := region fun x => { x with frozen := true }
     ∃ x, s.region? 0 = some x ∧ x.saved = none ∧ x.unloading = false ∧ x.frozen = true) ∧
    (let s := region fun x => { x with frozen := true }
     let v := s.saveTile 0 ⟨0, 0, 0⟩
     let q := ((s.modRegion 0 fun y => { y with saved := some [v] }).clearTile 0 0)
     ∃ x, q.region? 0 = some x ∧ x.saved = some [v] ∧ q.canTake 0 0 v = true) :=
  Chk.run (.and (.some fun _ => .dec) (.and (.some fun _ => .dec) (.and (.some fun _ => .dec) (.some fun _ => .dec))))

/-- A stop under way on a tile with nothing to finish and on one whose engine still runs; a cut that closes; and a
region below the placed one. -/
theorem test_meets_freezeEvents :
    (let s := region fun x => { x with stopping := true }
     (∃ x, s.region? 0 = some x ∧ x.stopping = true ∧ x.thawing = false) ∧ (s.tilesOf 0).contains 0 = true ∧
     (s.cut 0 0).stopped = false ∧ (s.lastFaults 0 0).drained 0 0 = true ∧
     (let q := s.modCut 0 0 fun c => { c with stopped := true }
      let group := (q.group 0).filter fun k => match q.region? k with
        | some y => y.stopping
        | none => false
      group = [0] ∧ q.cutCloses group = true ∧ q.hub.freezing = none ∧
      (q.modHub fun h => { h with freezing := some 0, mbxThaw := true }).hub.mbxThaw = true ∧
      (q.modHub fun h => { h with freezing := some 0 }).hub.mbxThaw = false ∧ group.contains 7 = false ∧
      ∃ y, (q.freezeRegion 0).region? 0 = some y ∧ y.thawing = false)) ∧
    (let s := { here with regions := [(0, { placeRegion with stopping := true }),
                            (1, { placeRegion with stopping := true, thawing := true, rcb := placeRcb + 0x100 })],
                          mem := writeNat (writeBytes rcbBytes (placeRcb + 3) [9, 0xDC]) (placeRcb + 0x108) 8 placeRcb }
     let q := ((s.modThread ⟨0, 0⟩ fun _ => Thread.reset).modCut 0 0 fun c => { c with stopped := true }).modCut 0 1
       fun c => { c with stopped := true }
     let group := (q.group 1).filter fun k => match q.region? k with
        | some y => y.stopping
        | none => false
     group.length = 2 ∧ q.cutCloses group = true ∧
      ∃ y, (group.foldl (fun u k => u.freezeRegion k) q).region? 1 = some y ∧ y.thawing = true) ∧
    (let s := (region fun x => { x with stopping := true }).modTile 0 fun t =>
       { t with cmds := [here.newCmd (.azero 0) ctxMatrix] }
     (s.lastFaults 0 0).drained 0 0 = false) ∧
    (let s := { here with regions := mset here.regions 1 { placeRegion with rcb := placeRcb + 0x100 },
                          mem := writeNat rcbBytes (placeRcb + 0x108) 8 placeRcb }
     s.rgnctlOk 0 1 = true) :=
  Chk.run (.and (.and (.some fun _ => .dec) (.and .dec (.and .dec (.and .dec (.and .dec (.and .dec (.and .dec (.and .dec
    (.and .dec (.and .dec (.some fun _ => .dec))))))))))) (.and (.and .dec (.and .dec (.some fun _ => .dec))) .dec))

/-- The state with a fibre of handler 0 in a slot of a tile, made ready there. -/
def ready (s : State) (t : BitVec 10) (n : BitVec 12) : State :=
  let q := s.modSlot t n fun x => { x with fibre := some (Fibre.made 0 true false false 0 0 0 0 []) }
  q.makeReady (mkHandle t n 1 1) ⟨.first, 0, 0, 0, 0⟩

/-- The state with n entries in a tile's ready queue. -/
def crowd (n : Nat) : State := here.modTile 0 fun t => { t with ready := List.replicate n ⟨0, 0, false, 0⟩ }

/-- The last length that each queue event reads as too many and as too few, a tile that steals from its neighbour and
one that finds nothing, a spent budget, and holds that end. -/
theorem test_meets_schedulerEvents :
    (∃ p, ((here.land letter).dropStale 0).choice 0 = some p ∧ ∃ m, p.1.work = .message m) ∧
    (∃ p, ((ready here 0 1).dropStale 0).choice 0 = some p ∧ ∃ e, p.1.work = .entry e) ∧
    (56 < ((crowd 57).tile 0).ready.length ∧ ((crowd 7).tile 0).ready.length < 8 ∧ ((crowd 7).tile 0).backlog = [] ∧
      (((crowd 7).modTile 0 fun t => { t with backlog := [1] }).tile 0).backlog ≠ []) ∧
    ((here.modCmem 63 fun c => { c with queue := List.replicate 449 ⟨0, 0, false, 0⟩ }).cmem 63).queue.length = 449 ∧
    ((here.cmem 0).queue.length < 64) ∧
    (let s := ready (ready here 1 0) 1 1
     s.maySteal 0 = true ∧ ∃ v, s.victim 0 = some v) ∧
    (here.maySteal 0 = true ∧ here.victim 0 = none ∧
      ∀ d ∈ neighbours (dieOf 0), (here.die d).queue.any (here.entryFits 0) = false) ∧
    (let x := (here.modSelf fun t => { t with wdUsed := 0x100000 }).thread ⟨0, 0⟩
     x.active = true ∧ x.suspended = false ∧ 2 ^ x.eff.wdog ≤ x.wdUsed.toNat) ∧
    ((here.modSelf fun t => { t with hold := .barrier 0 }).thread ⟨0, 0⟩).hold = .barrier 0 ∧
    (let x := (here.modSelf fun t => { t with hold := .pause 0 }).thread ⟨0, 0⟩
     x.hold = .pause 0 ∧ x.counted = false ∧ 0 ≤ here.cyc.toNat) :=
  Chk.run (.and (.some fun _ => .message) (.and (.some fun _ => .entry) (.and .dec (.and .dec (.and .dec
    (.and (.and .dec .isSome) (.and .dec (.and .dec (.and .dec .dec)))))))))

/-- Two stores on their way, messages of each kind at the front of their pair, and a decrement. -/
theorem test_meets_arrivalEvents :
    (let a : Access := ⟨0, 0, 0, 0, 0, 0, 0, placeImage, [1], false, none⟩
     let s := { here with inflight := [a, { a with thread := 7 }] }
     s.inflight[1]? = some { a with thread := 7 } ∧ s.behind 1 { a with thread := 7 } = false) ∧
    (let s := { here with net := [letter] }
     s.net[0]? = some letter ∧ (∀ x ∈ s.net, s.holdsBack x letter = false) ∧
      (∀ d ∈ s.decs, s.decBefore d letter = false) ∧ s.leaves' letter = false ∧ s.undelivered letter = none ∧
      s.away letter.region = false ∧ letter.sums = false ∧ s.blocked letter = false) ∧
    (let m := { letter with dest := wd (2 ^ 34 + 7 * 2 ^ 26) }
     { here with net := [m] }.leaves' m = true) ∧
    (let m := { letter with region := 9 }
     here.leaves' m = false ∧ here.undelivered m = some 5) ∧
    (let m := { letter with xform := 5 }
     let s := here.modCut 0 0 fun c => { c with stopped := true }
     here.undelivered m = none ∧ m.sums = true ∧ here.heldAt (dTile m.dest) m.region = false ∧
      s.undelivered m = none ∧ s.heldAt (dTile m.dest) m.region = true ∧ s.blocked m = false) ∧
    (let d : Decrement := ⟨0, placeFibre, 1, 0, 0, none, none⟩
     let s := { here with decs := [d] }
     s.decs[0]? = some d ∧ s.net = [] ∧ (∀ x ∈ s.decs, ¬(x.uid < d.uid)) ∧ s.away d.region = false ∧
      s.heldAt (hTile d.handle) d.region = false ∧
      (s.modCut 0 0 fun c => { c with stopped := true }).heldAt (hTile d.handle) d.region = true) := Chk.run .dec

/-- A fibre to reclaim that runs nothing, a release whose range is in the tree and one whose range is not, and a
retiring entry that nothing uses. -/
theorem test_meets_endings :
    (let h := mkHandle 0 1 1 1
     let q := here.modSlot 0 1 fun x => { x with fibre := some (Fibre.made 0 true false false 0 0 0 0 []) }
     let s := { q with reclaims := [h] }
     s.reclaims.find? (fun y => decide (hTile y = hTile h) && decide (hSlot y = hSlot h)) = some h ∧
      s.recordsFor h = false ∧ ∃ f, s.fibre? h = some f ∧ f.runsOn = none ∧ s.still f.region = false) ∧
    (let r : Release := ⟨0, 0, mkHandle 0 1 1 1, 0, false, none⟩
     let own (s : State) : List Leaf := (s.leaves r.region).filter fun l =>
       decide (l.entry.vbase = r.vbase) && l.entry.priv && decide (l.entry.owner = r.owner)
     let slab (s : State) (c : Nat) : List Leaf := (s.leaves (s.ctxRegion c)).filter fun l => s.inSlab c l.entry.vbase
     let s := { placed { placeEntry with priv := true, owner := mkHandle 0 1 1 1 } with releases := [r] }
     let q := { placed { placeEntry with forwarding := true } with releases := [{ r with freed := some 0x6000000 }] }
     s.releases[0]? = some r ∧ s.commandsOf r.owner = false ∧ s.still r.region = false ∧ own here = [] ∧
      (own s).length = 1 ∧ (∀ l ∈ own s, l.entry.forwarding = false ∧
       s.pagesBusy (s.treeOf r.region) setsDevice l.entry.overlaps = false) ∧
      q.releases[0]? = some { r with freed := some 0x6000000 } ∧ (slab q 0x6000000).any (·.entry.forwarding) = true) ∧
    (let s := here.setScopeCopy 0 13 { ScopeCopy.reset with state := 2 }
     (s.scopeCopy 0 13).state = 2 ∧ s.scopeInFlight 0 13 (s.scopeCopy 0 13).gen = false) :=
  Chk.run (.and (.and .dec (.and .dec (.some fun _ => .dec))) .dec)

/-- The state with one engine command. -/
def busy (c : Cmd) : State := here.modTile 0 fun t => { t with cmds := [c] }

/-- The command that an instruction has entered, as it runs. -/
def entered (i : Instr) (s : State) : State × Cmd :=
  match exec i s with
  | .next t =>
    match (t.tile 0).cmds with
    | c :: _ => (busy { c with running := true }, { c with running := true })
    | [] => (s, s.newCmd i 0)
  | _ => (s, s.newCmd i 0)

/-- A copy, a collective and a ring step of the tile alone, and a copy from an address that nothing maps. -/
def copied : State × Cmd := entered (.cpy 2 4 6) (regs (at4 0x100) [(2, wd (own + 4)), (6, 300)])
/-- A collective. -/
def collected : State × Cmd := entered (.coll 4 1) (words [(0, 8), (8, 16), (16, own + 0x100), (24, own + 0x200)])
/-- A ring step. -/
def ringed : State × Cmd :=
  entered (.ring 4 1) (words [(0, 256 * 64), (8, own + 0x1000), (16, own + 0x2000), (24, own + 0x3000)])

def Chk.waits {α : Type} {x : Except EStop α} : Chk (∃ q, x = .error (.wait q)) :=
  match x with
  | .error (.wait q) => ⟨true, fun _ => ⟨q, rfl⟩⟩
  | .error (.cancel _) => ⟨false, fun h => by simp at h⟩
  | .error (.fault _ _) => ⟨false, fun h => by simp at h⟩
  | .error (.hole _) => ⟨false, fun h => by simp at h⟩
  | .ok _ => ⟨false, fun h => by simp at h⟩

def Chk.cancels {α : Type} {x : Except EStop α} : Chk (∃ q, x = .error (.cancel q)) :=
  match x with
  | .error (.cancel q) => ⟨true, fun _ => ⟨q, rfl⟩⟩
  | .error (.wait _) => ⟨false, fun h => by simp at h⟩
  | .error (.fault _ _) => ⟨false, fun h => by simp at h⟩
  | .error (.hole _) => ⟨false, fun h => by simp at h⟩
  | .ok _ => ⟨false, fun h => by simp at h⟩

/-- Commands that run and wait, finish and are cancelled; a copy that may start; evictions with and without a block left; and
exchanges that end, wait and are cancelled. -/
theorem test_meets_engineEvents2 :
    (let c := { copied.2 with running := false }
     ((busy c).tile 0).cmds[0]? = some c ∧ c.insn = .cpy 2 4 6 ∧ usesChannel c.insn = true ∧
      (((busy c).asCommand c).scoreboard 0).startable 0 (((busy c).asCommand c).footprint 0 c) = true) ∧
    (copied.2.running = true ∧ copied.2.cancelled = false ∧
      ∃ q, runEffect 0 { copied.2 with opa := wd (2 ^ 40) } (copied.1.asCommand copied.2) = .error (.cancel q)) ∧
    (let c : Cmd := { copied.2 with opa := wd tier }
     let s : State := { copied.1 with blocks := [(0x4000000, ⟨0, .fetching, 0, false, false, false, 1, 0x5000000, tier⟩)] }
     ∃ q, runEffect 0 c (s.asCommand c) = .error (.wait q)) ∧
    (let c : Cmd := { here.newCmd (.evict 4 6) ctxCopy with running := true }
     c.insn = .evict 4 6 ∧ c.blocks = [] ∧ ({ c with blocks := [0x4000000] } : Cmd).blocks ≠ []) ∧
    (collected.2.insn = .coll 4 1 ∧ ∃ u, finishColl 0 collected.2 (collected.1.asCommand collected.2) = .ok u) ∧
    (let s := collected.1.modCut 0 0 fun c => { c with stopped := true }
     ∃ u, finishColl 0 collected.2 (s.asCommand collected.2) = .error (.wait u)) ∧
    (ringed.2.insn = .ring 4 1 ∧ ∃ u, finishRing 0 ringed.2 (ringed.1.asCommand ringed.2) = .ok u) ∧
    (let c := { ringed.2 with sets := some setsDevice }
     (∃ u, finishRing 0 c ((busy c).asCommand c) = .error (.wait u)) ∧
     let d : Cmd := { c with progress := 1, desc := c.desc.take 24 ++ leBytes 8 (2 ^ 40) ++ c.desc.drop 32 }
     ∃ u, finishRing 0 d ((busy d).asCommand d) = .error (.cancel u)) :=
  Chk.run (.and .dec (.and (.and .dec (.and .dec .cancels)) (.and .waits (.and .dec (.and (.and .dec .isOk) (.and .waits
    (.and (.and .dec .isOk) (.and .waits .cancels))))))))

/-- A command that may start, one that was cancelled before it started, and one that runs and finishes. -/
theorem test_meets_engineEvents :
    let c := here.newCmd (.azero 0) ctxMatrix
    ((busy c).tile 0).cmds[0]? = some c ∧
    (let q := (busy c).asCommand c
     let d := q.footprint 0 c
     (q.scoreboard 0).startable 0 d = true) ∧ usesChannel c.insn = false ∧
    c.running = false ∧ ({ c with cancelled := true } : Cmd).cancelled = true ∧ c.insn = .azero 0 ∧
    (let d : Cmd := { c with running := true }
     d.running = true ∧ d.cancelled = false ∧ ∃ q ok, runEffect 0 d ((busy d).asCommand d) = .ok (q, ok) ∧ ok = true) :=
  Chk.run (.and .dec (.and .dec (.and .dec (.and .dec (.and .dec (.and .dec (.and .dec (.and .dec (.ok2 fun _ _ =>
    .dec)))))))))

/-- A move, a compaction, a die that may borrow and one that may return what it borrowed, and blocks whose fetch and
write-back end. -/
theorem test_meets_memoryEvents :
    (∃ q e, here.lookup 0 0 (2 ^ 16 - 1) = .ok (q, e)) ∧ (∃ e, (placed placeEntry).lookup 0 0 0x10000 = .error e) ∧
    (let m : Move := ⟨0, 0, 2 ^ 56, 0, 0x10000, 0, setsDevice, .compaction 0, 0, [], none, 2 ^ 56, true⟩
     min (m.fbase + 65536) m.limit < m.limit ∧ m.limit ≤ 2 ^ 56) ∧
    (let c : CtxSlot := ⟨0x6000000, true, 0, [(0, ⟨32, 0⟩)], 0, 0⟩
     let s := ((placed { placeEntry with offset := wd 0x200000 }).modRegion 0 fun x => { x with ctxs := [c] }).modDie 0 fun d =>
       { d with freeRuns := [⟨16, 0⟩], allocated := [⟨32, 0⟩], compact := some 1 }
     (s.die 0).compact = some 1 ∧ s.compacting 0 = false ∧ (s.die 0).hasRun 1 = false ∧
      ∃ x, s.nextShift 0 = some x ∧ x.1 = ⟨16, 0⟩ ∧ x.2.1 = ⟨16, 0⟩ ∧ x.2.2.length = 1) ∧
    (let m (fbase : Nat) (started : Bool) : Move :=
       ⟨0, 0, 0x10000, 0, 0x10000, fbase, setsDevice, .compaction 0, 0, [], none, 0, started⟩
     let s (fbase : Nat) (started : Bool) : State :=
       { placed { placeEntry with forwarding := true } with moves := [m fbase started] }
     (s 0 false).moves[0]? = some (m 0 false) ∧ (∃ l, (s 0 false).moveLeaf (m 0 false) = some l) ∧
      (s 0 false).moveTurn 0 (m 0 false) = true ∧ (s 0 true).moveTurn 0 (m 0 true) = true ∧
      (s 0x10000 true).moveTurn 0 (m 0x10000 true) = true ∧
      ∀ c ∈ lineHomes (imageOf (m 0 true).oldOff 0) 65536, ((s 0 true).cmem c).forward.length < 64) ∧
    (let s := here.modDie 3 fun d => { d with compact := some 16 }
     (s.die 3).compact = some 16 ∧ s.compacting 3 = false ∧ (s.die 3).hasRun 16 = false ∧ (s.nextShift 3).isNone = true) ∧
    ((here.die 0).free < (here.die 0).reserve.toNat) ∧
    (let b : Batch := ⟨1, 0x30000⟩
     let s := here.modDie 0 fun d => { d with borrowed := [b], freeRuns := [⟨b.base, 6⟩, ⟨0x1000, 10⟩] }
     (s.die 0).borrowed[0]? = some b ∧ (s.die 0).freeRuns.contains ⟨b.base, 6⟩ = true ∧
      (s.die 0).reserve.toNat + 64 ≤ (s.die 0).free) ∧
    (let b : Block := ⟨0, .fetching, 0, false, false, false, 1, 0x5000000, tier⟩
     let s := { here with blocks := [(0x4000000, b)] }
     mfind s.blocks (0x4000000 : BitVec 52).toNat = some b ∧ b.state = .fetching ∧ b.evictPending = false ∧ b.btier = 1 ∧
      ({ b with btier := 2 } : Block).btier ≠ 1) ∧
    (let b : Block := ⟨0, .evicting, 0, true, false, false, 1, 0x5000000, tier⟩
     let s := { here with blocks := [(0x4000000, b)] }
     mfind s.blocks (0x4000000 : BitVec 52).toNat = some b ∧ b.state = .evicting ∧ b.btier ≠ 2 ∧
      s.hub.driveWorks b.backing = false) :=
  Chk.run (.and .isOk2 (.and .err (.and .dec (.and (.and .dec (.and .dec (.and .dec (.some fun _ => .dec))))
    (.and (.and .dec (.and .isSome (.and .dec (.and .dec (.and .dec .dec))))) .dec)))))

/-- A pc in no range, bits that are no instruction, and units of a memory and of a host. -/
theorem test_meets_errorEvents :
    (let s := here.modSelf fun t => { t with pc := 0x100000000 }
     s.self.active = true ∧ ∃ q c a w, s.fetch s.cur = .stop q c a w ∧ c ≠ .partialResidency) ∧
    (let p := placed placeEntry
     let s := { p with mem := writeNat p.mem (placeImage + placePc.toNat) 4 1 }
     s.self.active = true ∧ ∃ q w, s.fetch s.cur = .word q w ∧ refuses w = some .reservedMajor) ∧
    (∃ h, home? (0 : BitVec 52).toNat = some h ∧ h ≠ .host) ∧
    (∃ h, home? (BitVec.ofNat 52 hostBase).toNat = some h ∧ h = .host) ∧
    (let a : Access := ⟨0, 0, 0, 0, 0, 0, 0, hostBase + 127, [1], false, none⟩
     let s := { here with inflight := [a] }
     s.inflight = [a] ∧ a.pa / 128 * 128 = hostBase / 128 * 128) ∧
    (here.inflight = [] ∧ poisoned here.poison (hostBase / 128 * 128) 128 = false) :=
  Chk.run (.and (.and .dec (.stop fun _ _ _ _ => .dec)) (.and (.and .dec (.word fun _ _ => .dec)) (.and (.some fun _ => .dec)
    (.and (.some fun _ => .dec) (.and .dec .dec)))))

theorem test_meets_heldPlaces :
    (let a : Access := ⟨0, 0, 0, 0, 0, 0, 0, placeImage, [1], false, none⟩
     let s := { here with inflight := [a] }.hostTakes placeImage 1
     s.inflight[0]? = some a ∧ s.behind 0 a = false ∧ s.hostHolds (s.forwarded a.va a.pa) a.data.length = true) ∧
    (let s := (ready here 0 1).modRegion 0 fun x => { x with stopping := true }
     let e : ReadyEntry := ⟨mkHandle 0 1 1 1, 0, false, 0⟩
     (∃ f, s.fibre? e.handle = some f ∧ f.region = 0) ∧ (∃ x, s.region? 0 = some x ∧ x.stopping = true) ∧
     (∃ y, (s.tile 0).ready.head? = some y ∧ y.handle = e.handle) ∧
     let q := s.modCmem 0 fun c => { c with queue := [e] }
     e ∈ (q.cmem (clusterOf 0)).queue) :=
  Chk.run (.and .dec (.and (.some fun _ => .dec) (.and (.some fun _ => .dec) (.and (.some fun _ => .dec) .dec))))

/-- A release of a range with a pinned block, and a cancelled
command of a fibre. -/
theorem test_meets_heldEndings :
    (let r : Release := ⟨0, 0, mkHandle 0 1 1 1, 0, false, none⟩
     let own (s : State) : List Leaf := (s.leaves r.region).filter fun l =>
       decide (l.entry.vbase = r.vbase) && l.entry.priv && decide (l.entry.owner = r.owner)
     let p := placed { placeEntry with priv := true, owner := mkHandle 0 1 1 1, tiered := true }
     let s := { p with releases := [r], blocks := [(placeImage, ⟨0, .resident, 1, false, false, false, 1, 0x5000000, 0⟩)] }
     s.releases[0]? = some r ∧ r.freed = none ∧ r.slab = false ∧ r.heir = 0 ∧ (own s).length = 1 ∧
     (own s).all (fun l => (blocksOf l.entry.vbase (l.entry.limit - l.entry.vbase)).any (s.blockPinned r.region l.entry)) = true ∧
     (∃ x, s.region? 0 = some x ∧ x.unloading = false)) ∧
    (let c := { here.newCmd (.azero 0) ctxMatrix with cancelled := true, fibre := fibreHandle (mkHandle 0 1 1 1) }
     let s := here.modTile 0 fun t => { t with cmds := [c] }
     (s.tile 0).cmds[0]? = some c ∧ c.cancelled = true ∧ c.fibre = fibreHandle (mkHandle 0 1 1 1)) :=
  Chk.run (.and (.and .dec (.and .dec (.and .dec (.and .dec (.and .dec (.and .dec (.some fun _ => .dec))))))) .dec)

/-- A step of an `rmove` whose blocks are RESIDENT, and one that has to wait for a block. -/
theorem test_meets_moveResidency :
    let m : Move := ⟨0, 0, 0x10000, 0, 0x10000, 0, setsDevice, .command 0 0 1, 0, [], none, 0, true⟩
    let s (b : BState) : State :=
      { placed { placeEntry with forwarding := true, tiered := true } with
        moves := [m], blocks := [(placeImage, ⟨0, b, 0, false, false, false, 1, 0x5000000, 0⟩)] }
    m.hard = false ∧ m.started = true ∧ m.fbase < m.limit ∧
    (∃ l, (s .resident).moveLeaf m = some l ∧ (s .resident).moveTurn 0 m = true ∧
      (s .resident).residency m.region l.entry m.fbase (min 65536 (m.limit - m.fbase)) = .ok ()) ∧
    (∃ l, (s .fetching).moveLeaf m = some l ∧ (s .fetching).moveTurn 0 m = true ∧
      ∃ e, (s .fetching).residency m.region l.entry m.fbase (min 65536 (m.limit - m.fbase)) = .error e) :=
  Chk.run (.and .dec (.and .dec (.and .dec (.and (.some fun _ => .and .dec .unit) (.some fun _ => .and .dec .err)))))

/-! Words and results that the spec works out. -/

theorem test_spec_words_memory :
    reads 0x652A4001 = some (.st 9 10 2 0) ∧ reads 0x6829FC01 = some (.stRel 1 9 3 14 0) ∧
    reads 0x68497C01 = some (.ldAcq 2 9 3 14 0) ∧ reads 0x70080005 = some (.pref 8 2) ∧
    reads 0x78681707 = some (.cas 3 8 2 14 1) ∧ reads 0x756C6961 = some (.amoD 11 12 13 2 0) ∧
    reads 0x74083953 = some (.amoFFp32 0 8 7 2) ∧ reads 0x7C080707 = some (.barWait 8 0 14) := by decide

theorem test_spec_words_fibres :
    reads 0x81CA8101 = some (.send 14 10 16 2) ∧ reads 0x8148610B = some (.spawnG 10 8 12 2) ∧
    reads 0x800A5F0D = some (.fibDec 10 11 14) ∧ reads 0x80053895 = some (.fput 5 7 1) ∧
    reads 0x800A5819 = some (.fon 10 11) := by decide

theorem test_spec_words_vectors :
    reads 0x90840901 = some (.vadd 4 4 1 2) ∧ reads 0x94610805 = some (.vexp2 3 1 1 0) ∧
    reads 0x98213805 = some (.vcmp 1 1 7 0 2) ∧ reads 0x984700A1 = some (.vbcast 2 7 1) ∧
    reads 0x9C814041 = some (.vcvt 4 1 4 0 0 1 0) ∧ reads 0xA0AC0011 = some (.vst 5 12 0) := by decide

theorem test_spec_words_engines :
    reads 0xB02C0103 = some (.tldT 1 12 2) ∧ reads 0xB814B009 = some (.fpop 20 22) ∧
    reads 0xBB14B70F = some (.kvapp 24 20 22 14) ∧ reads 0xC14B070D = some (.route 10 11 14) ∧
    reads 0xC9884911 = some (.promo 12 8 9 2) ∧ reads 0xD0084F0B = some (.rmove 8 9 14) ∧
    reads 0xE0E08807 = some (.sysw 7 0 17) := by decide

/-- R280: `sra` of 0x8000000000000010 by 4. -/
theorem test_sra : ∃ t, exec (.sra 3 4 5) (regs here [(4, 0x8000000000000010), (5, 4)]) = .next t ∧
    t.g 3 = 0xF800000000000001 ∧ t.pc = here.pc + 4 := Chk.run (.nextAnd fun _ => .dec)

/-- R281: -7 by 3, and the limit cases. -/
theorem test_division :
    divSigned (-7) 3 = -2 ∧ remSigned (-7) 3 = -1 ∧ divSigned 5 0 = BitVec.allOnes 64 ∧ remSigned 5 0 = 5 ∧
    divSigned 0x8000000000000000 (-1) = 0x8000000000000000 ∧ remSigned 0x8000000000000000 (-1) = 0 := by decide

/-- R282: `ctz` of 0x40. -/
theorem test_ctz : ∃ t, exec (.ctz 2 3) (regs here [(3, 0x40)]) = .next t ∧ t.g 2 = 6 := Chk.run (.nextAnd fun _ => .dec)

/-- R283: the descriptor 0x408 names bits 11 to 8, and a write to `g0` is discarded. -/
theorem test_ext : (∃ t, exec (.ext 9 7 8) (regs here [(7, 0x5C3A1), (8, 0x408)]) = .next t ∧ t.g 9 = 3) ∧
    ∃ t, exec (.ext 0 7 8) (regs here [(7, 0x5C3A1), (8, 0x408)]) = .next t ∧ t.g 0 = 0 :=
  Chk.run (.and (.nextAnd fun _ => .dec) (.nextAnd fun _ => .dec))

/-- R293: `loop` with a counter of 1 falls through, and `loop g0` branches. -/
theorem test_loop : (∃ t, exec (.loop 6 0x3FFFF) (regs here [(6, 1)]) = .next t ∧ t.g 6 = 0 ∧ t.pc = here.pc + 4) ∧
    ∃ t, exec (.loop 0 0x3FFFF) here = .next t ∧ t.pc = here.pc - 2 :=
  Chk.run (.and (.nextAnd fun _ => .dec) (.nextAnd fun _ => .dec))

/-- R292: `callr lk` jumps to the old link. -/
theorem test_callr_lk : ∃ t, exec (.callr 31) (regs here [(31, 0x2000)]) = .next t ∧ t.pc = 0x2000 ∧ t.g 31 = here.pc + 4 :=
  Chk.run (.nextAnd fun _ => .dec)

/-- R296: a load of a byte is zero-extended, from the address at the offset times the size. -/
theorem test_ld : ∃ t, exec (.ld 6 4 0 0xFF) (let s := words [(0, 0xFF)]; s.setG 4 (wd (own + 1))) = .next t ∧ t.g 6 = 0xFF :=
  Chk.run (.nextAnd fun _ => .dec)

/-- R302: two sums of BF16. -/
theorem test_bf16_pair : addBf16Pair 0x3FC04000 0x3F803F80 = 0x40204040 := by decide +kernel

/-- R247: the generator with K = 0 at 1 and 2. -/
theorem test_generator : gen 0 1 = 0x609DFCDC ∧ gen 0 2 = 0x6657F4C6 := by decide +kernel

/-- R245: exact points of the functions in FP32. -/
theorem test_functions :
    fp32.pack .rne (Val.exp2 (fp32.value 0x40400000)).1 (Val.exp2 (fp32.value 0x40400000)).2 = 0x41000000 ∧
    fp32.pack .rne (Val.rsqrt (fp32.value 0x40800000)).1 (Val.rsqrt (fp32.value 0x40800000)).2 = 0x3F000000 ∧
    fp32.pack .rne (Val.rcp (fp32.value 0x80000000)).1 (Val.rcp (fp32.value 0x80000000)).2 = 0xFF800000 := by decide +kernel

/-- R406, R210: `trap` aborts the activation of a thread that is not a system handler, and `bkpt` suspends it. -/
theorem test_stops :
    (∃ t, exec .trap (plain here) = .next t ∧ t.self.active = false) ∧
    ∃ t, exec .bkpt (plain here) = .next t ∧ t.self.active = true ∧ t.self.suspended = true :=
  Chk.run (.and (.nextAnd fun _ => .dec) (.nextAnd fun _ => .dec))

/-- R420: a privileged form in another activation takes the stop PRIVILEGED. -/
theorem test_privileged : ∃ t, exec (.sysr 6 0 0) (plain here) = .next t ∧ t.self.active = false ∧
    t.self.record.cause = causeCode .privileged := Chk.run (.nextAnd fun _ => .dec)

/-! What commands write. -/

/-- A running command of thread 0 with operands. -/
def running (i : Instr) (f : Cmd → Cmd) : Cmd := f { here.newCmd i ctxMatrix with running := true }

/-- A copy's operands in one piece, and a line at an end of it. -/
theorem test_meets_operandBytes :
    (∃ u x, copied.1.cmdSpan 0 copied.2 copied.2.opa.toNat 64 .read = .ok (u, x) ∧ x.len = 64 ∧
      (home? ((u.drainStep 0 x.pa x.len).spanAt x)).isSome = true) ∧
    (∃ u x, copied.1.cmdSpan 0 copied.2 copied.2.opd.toNat 64 .write = .ok (u, x) ∧ x.len = 64 ∧
      u.cmdWrites copied.2 x.entry = true ∧ (home? (u.spanAt x)).isSome = true) :=
  Chk.run (.and (.ok2 fun _ _ => .dec) (.ok2 fun _ _ => .dec))

/-- Loads and stores of whole registers and accumulators, a product, and rows of an accumulator, poisoned and not. -/
theorem test_meets_tileBytes :
    let s := at4 own
    let c (i : Instr) : Cmd := running i fun c => { c with opa := wd own, tags := [8, 8] }
    (∃ a, Machine.ready 0 (c (.tldT 1 4 8)) .read (wd own) 16384 s = .ok a ∧
      ∃ u b, readSome 0 (c (.tldT 1 4 8)) (wd own) 16384 a = .ok (u, b)) ∧
    (∃ a, Machine.ready 0 (c (.tst 1 4)) .write (wd own) 16384 s = .ok a) ∧
    (∃ a, Machine.ready 0 (c (.ald 1 4)) .read (wd own) 98304 s = .ok a ∧
      ∃ u b, readSome 0 (c (.ald 1 4)) (wd own) 98304 a = .ok (u, b)) ∧
    (∃ a, Machine.ready 0 (c (.ast 1 4)) .write (wd own) 98304 s = .ok a) ∧
    (let at' := tileBase 0 + (s.tile 0).accOff 0 3 + 6 * (128 * 127 + 32 * 3)
     (c (.arow 1 3 4)).owned = true ∧ poisoned s.poison at' 192 = false ∧ poisoned (s.mark (at' + 191) 1).poison at' 192 = true) :=
  Chk.run (.and (.ok fun _ => .isOk2) (.and .isOk (.and (.ok fun _ => .isOk2) (.and .isOk .dec))))

/-- Rows of attention from nothing and from a state of the context's dimension, a command with an empty context, and a
finished output. -/
theorem test_meets_attentionBytes :
    let row : List (Nat × Nat) := [(0x3008, 16)]
    (∀ init ∈ [0, 1],
      let s := context 1 (row ++ [(0x1000, 2 ^ 51 * init), (0x1008, own + 0x2000), (0x1010, own + 0x3000)])
      let d := leBytes 8 (2 ^ 51 * init) ++ leBytes 8 (own + 0x2000) ++ leBytes 48 (own + 0x3000)
      let c := running (.attn 4 2 1) fun c => { c with desc := d, snapshot := some ⟨0, [], [], [], []⟩, opb1 := wd (tileBase 0) }
      s.cdim (tileBase 0) = 16 ∧ atRows d = 1 ∧
      ∃ a, Machine.ready 0 c .read (atQaddr d) 64 s = .ok a ∧ ∃ q, Machine.ready 0 c .write (atSaddr d) (rowSize 16) a = .ok q ∧
      (∃ y, slabTokens 0 c (tileBase 0) ⟨0, [], [], [], []⟩ 0 (atLo d) q = .ok y) ∧
      ∃ v l, readAll 0 c (atQaddr d) 64 q = .ok (v, l) ∧
      (init = 1 ∧ atInit d = true ∨ init = 0 ∧ atInit d = false ∧
        (∃ w n, rowsPerformed 0 c 16 1 0 q = .ok (w, n)) ∧
        ∃ w old, readAll 0 c (atSaddr d) (rowSize 16) v = .ok (w, old) ∧ rowD old = 16)) ∧
    (let s := { at4 own with mem := writeNat rcbBytes (tileBase 0 + 8) 4 16 }
     let c := running (.attnFin 2 4) fun c => { c with opa := wd own, opd := wd (own + 0x1000) }
     c.owned = true ∧ ∃ a, Machine.ready 0 c .read c.opa 16 s = .ok a ∧ ∃ u head, readAll 0 c c.opa 16 a = .ok (u, head) ∧
     rowD head = 16 ∧ ((head.drop 8).take 4).any (·.2) = false ∧ ∃ v, Machine.ready 0 c .read c.opa 80 u = .ok v ∧
     ∃ q, Machine.ready 0 c .write c.opd 64 v = .ok q ∧ (localPart 0 c .read (c.opa + 16) 64 q).2 = 64 ∧
     ∃ z rest, readAll 0 c (c.opa + 16) 64 (localPart 0 c .read (c.opa + 16) 64 q).1 = .ok (z, rest)) :=
  ⟨fun init h => by
      simp only [List.mem_cons, List.not_mem_nil, or_false] at h
      rcases h with rfl | rfl
      · exact Chk.run (.and .dec (.and .dec (.ok fun _ => .ok fun _ => .and .isOk (.ok2 fun _ _ => .inr (.and .dec (.and .dec
          (.and .isOk2 (.ok2 fun _ _ => .dec))))))))
      · exact Chk.run (.and .dec (.and .dec (.ok fun _ => .ok fun _ => .and .isOk (.ok2 fun _ _ => .inl .dec)))),
    Chk.run (.and .dec (.ok fun _ => .ok2 fun _ _ => .and .dec (.and .dec (.ok fun _ => .ok fun _ => .and .dec .isOk2))))⟩

/-- A beat of a copy; a multicast beat whose destination still translates and one whose no longer does; a decoded one; a
list, elements that are performed, poisoned, and not aligned. -/
theorem test_meets_copyBytes :
    (let c := copied.2
     ∃ a, Machine.ready 0 c .read (c.opa + BitVec.ofNat 64 0) 64 copied.1 = .ok a ∧
      (∃ b, Machine.ready 0 c .write (c.opd + BitVec.ofNat 64 0) 64 a = .ok b ∧
        ∃ u bs, readAll 0 c (c.opa + BitVec.ofNat 64 0) 64 b = .ok (u, bs)) ∧
      ∃ u bs, readAll 0 c (c.opa + BitVec.ofNat 64 0) 64 a = .ok (u, bs) ∧
       (cmdPieces 0 c .write 64 u (c.opd + BitVec.ofNat 64 0).toNat 64).2.2 = true ∧
       (cmdPieces 0 { c with opd := wd (2 ^ 40) } .write 64 u (2 ^ 40) 64).2.2 = false) ∧
    (let c := running (.cpyT 2 4 6) fun c =>
       { c with opa := wd 0x100, opd := wd (own + 4), opb := 16, opb1 := 0x10000002 }
     c.cancelled = false ∧ c.opb1 ≠ 0 ∧ (copied.1.cmdNow 0 c).output = none ∧
     (∃ a, Machine.ready 0 c .read c.opa 16 copied.1 = .ok a ∧ ∃ u b, readSome 0 c c.opa 16 a = .ok (u, b)) ∧
     (∃ b out, decoded 0 c copied.1 = .ok (b, out)) ∧ ∃ a, Machine.ready 0 c .write (c.opd + BitVec.ofNat 64 0) 32 copied.1 = .ok a) ∧
    (let c := running (.cpyMc 2 4 6 1) fun c => { c with sets := some setsDevice }
     c.cancelled = false ∧ c.sets = some setsDevice) ∧
    (let d := leBytes 8 (1 + 8 * 2 ^ 20) ++ leBytes 8 0x100 ++ leBytes 48 (own + 0x100)
     let c := running (.gath 2 4) fun c => { c with desc := d, opd := wd (own + 0x200) }
     let e : GsElem := ⟨0, 0x100, false⟩
     (∃ a bs, readAll 0 c (gsIdx d) (8 * gsCount d) here = .ok (a, bs) ∧
       ∃ b, gsReady 0 c .read (gsElems c bs) a = .ok b) ∧
     (∀ k ∈ [Kind.read, Kind.write], (gsPerforms 0 c k e here).2 = true ∧
       (gsPerforms 0 c k { e with addr := 0x102 } here).2 = false) ∧
     (∃ u bs, readAll 0 c e.addr (gsElem d) (gsPerforms 0 c .read e here).1 = .ok (u, bs)) ∧
     ∃ u bs, readAll 0 c (c.opd + BitVec.ofNat 64 0) (gsElem d) (gsPerforms 0 c .write e here).1 = .ok (u, bs)) :=
  Chk.run (.and (.ok fun _ => .and (.ok fun _ => .isOk2) (.ok2 fun _ _ => .dec))
    (.and (.and .dec (.and .dec (.and .dec (.and (.ok fun _ => .isOk2) (.and .isOk2 .isOk)))))
      (.and .dec (.and (.ok2 fun _ _ => .isOk) (.and .dec (.and .isOk2 .isOk2))))))

/-- A filtered set with members and an empty one, of the mask that keeps none; clusters with a set of tokens, full and
empty; logits to mask; and a router. -/
theorem test_meets_drawBytes :
    let N := 8 + 2 * 2 ^ 20
    let d (mask : Nat) : List Byte := leBytes 32 N ++ leBytes 8 (own + 0x100) ++ leBytes 24 mask
    let c (i : Instr) (mask : Nat) : Cmd := running i fun c => { c with desc := d mask, opd := wd (own + 0x200) }
    (∃ q cs, (Reader.flat 0 (c (.topk 2 4) 0) (dwLaddr (d 0)) ⟨here, false⟩) = .ok (q, cs) ∧
      filterSet (dwTau (d 0)) (dwTopk (d 0)) (dwTopp (d 0)) cs ≠ []) ∧
    (∃ q cs, (Reader.flat 0 (c (.draw 2 4) (own + 0x180)) (dwLaddr (d (own + 0x180))) ⟨here, false⟩) = .ok (q, cs) ∧
      filterSet (dwTau (d (own + 0x180))) (dwTopk (d (own + 0x180))) (dwTopp (d (own + 0x180))) cs = []) ∧
    (∀ m ∈ [0, own + 0x180], let k : Block2 := ⟨0, 0, 16, wd m⟩
      let x : Cluster := ⟨0, 1, wd (own + 0x140)⟩
      ∃ q ms, tokenSet 0 (c (.drawv 2 4) 0) k [] x ⟨here, false⟩ = .ok (q, ms) ∧ ((m = 0 ∧ ms ≠ []) ∨ (m ≠ 0 ∧ ms = []))) ∧
    (let x := c (.gmask 2 4) (own + 0x180)
     ∃ a, Machine.ready 0 x .read (dwLaddr x.desc) 16 here = .ok a ∧ (∃ b, Machine.ready 0 x .read (dwMaddr x.desc) 1 a = .ok b) ∧
      (dwMaddr x.desc ≠ 0 ∧ dwMaddr (c (.gmask 2 4) 0).desc = 0 ∧ (tagFmt (dwTag x.desc)).isSome = true) ∧
      ∃ u bs, readAll 0 x (dwLaddr x.desc) 16 a = .ok (u, bs) ∧ ∃ v mask, readAll 0 x (dwMaddr x.desc) 1 u = .ok (v, mask)) ∧
    (let r : List Byte := leBytes 8 (1 + 2 ^ 13 + 3 * 2 ^ 17 + 2 ^ 29 + 16 * 2 ^ 33) ++ leBytes 8 (own + 0x100) ++
       leBytes 8 (own + 0x140) ++ leBytes 40 (own + 0x180)
     let x := running (.route 2 4 1) fun c => { c with desc := r, opd := wd (own + 0x200) }
     ∃ a, Machine.ready 0 x .read (rtLaddr r) (logitBytes (rtTag r) (rtTokens r * rtExperts r)) here = .ok a ∧
     ∃ b, Machine.ready 0 x .read (rtXaddr r) (rtTokens r * rtRow r) a = .ok b ∧
     ∃ u, Machine.ready 0 x .read (rtDaddr r) (8 * rtExperts r) b = .ok u ∧
     ∃ q ls, readAll 0 x (rtLaddr r) (logitBytes (rtTag r) (rtTokens r * rtExperts r)) u = .ok (q, ls) ∧
     ∃ w xs, readAll 0 x (rtXaddr r) (rtTokens r * rtRow r) q = .ok (w, xs) ∧
     ∃ z ds, readAll 0 x (rtDaddr r) (8 * rtExperts r) w = .ok (z, ds)) :=
  ⟨Chk.run (.ok2 fun _ _ => .dec), Chk.run (.ok2 fun _ _ => .dec),
    fun m h => by
      simp only [List.mem_cons, List.not_mem_nil, or_false] at h
      rcases h with rfl | rfl
      · exact Chk.run (.ok2 fun _ _ => .inl .dec)
      · exact Chk.run (.ok2 fun _ _ => .inr .dec),
    Chk.run (.ok fun _ => .and .isOk (.and .dec (.ok2 fun _ _ => .isOk2))),
    Chk.run (.ok fun _ => .ok fun _ => .ok fun _ => .ok2 fun _ _ => .ok2 fun _ _ => .isOk2)⟩

/-- A collective and a ring step of the tile alone: the parts, what they read, and what they write. -/
theorem test_meets_exchangeBytes :
    (let s := collected.1
     let c := collected.2
     c.members.contains 0 = true ∧ s.firstColl 0 c = true ∧ (∀ i ∈ c.members, (s.cut i c.region).stopped = false) ∧
     ∃ parts, s.collParts c c.members = some parts ∧ collAgrees c c.members parts = true ∧
     (∃ a xs, collRead parts s = .ok (a, xs)) ∧
     ∃ u, writeAll 0 c (collDst c.desc) (List.replicate 32 (0, false)) s = .ok u) ∧
    (let s := ringed.1
     let c := ringed.2
     nextMember c.members 0 = some 0 ∧ (∃ e, s.ringPart c 0 = some e) ∧
     (∃ a bs, readAll 0 c (ringFwd c.desc) (ringBytes c.desc) s = .ok (a, bs) ∧
       ∃ u, writeAll 0 c (ringRcv c.desc) (smearRows (ringDim c.desc) bs) a = .ok u) ∧
     ∃ a rcv, readAll 0 c (ringRcv c.desc) (ringBytes c.desc) s = .ok (a, rcv) ∧
       ∃ u held, readAll 0 c (ringHeld c.desc) (ringBytes c.desc) a = .ok (u, held)) :=
  Chk.run (.and (.and .dec (.and .dec (.and .dec (.some fun _ => .and .dec (.and .isOk2 .isOk)))))
    (.and .dec (.and .isSome (.and (.ok2 fun _ _ => .isOk) (.ok2 fun _ _ => .isOk2)))))

/-! More states for the statements about the host, about freezing, and about commands. -/

/-- A window write of two flits at the last aligned offset, register writes at either end of what a write may reach without
touching MBXDB, and the ends of each writable area. -/
theorem test_meets_hostActs2 :
    here.hub.takes = true ∧ (0xFF80 : BitVec 16).toNat % 64 = 0 ∧ (List.replicate 128 (0 : Byte)).length % 64 = 0 ∧
    (0x0FFF : BitVec 17).toNat + 1 ≤ 0x1000 ∧ 0x1008 ≤ (0x1008 : BitVec 17).toNat ∧ (7 < 8 ∧ 63 < 64) ∧
    ((ganged 1 true).hub.gang 7).state = 1 ∧ ((ganged 0 true).hub.gang 7).state ≠ 1 ∧
    (let a : List Nat := [0, 1, 3, 0x23F, 0x280, 0x1FFF, 0x3000, 0x5FFF, 0x6200]
     ∀ x ∈ a, x ≠ 2 ∧ (x < 0x240 ∨ 0x280 ≤ x) ∧ (x < 0x2000 ∨ 0x3000 ≤ x) ∧ (x < 0x6000 ∨ 0x6200 ≤ x)) := Chk.run .dec

/-- R42: a 1 clears EARLY, a 0 keeps HMERR; R55: an armed slot keeps its tick, and one that has been refused takes a new
one. -/
theorem test_register_writes :
    let s := (ganged 1 true).modHub fun h => { h with early := true, hmerr := true }
    let q := (ganged 3 true)
    (∃ t, exec (.registerWrite 0 [0, 0, 2]) s = .next t ∧ t.hub.early = false ∧ t.hub.hmerr = true) ∧
    (∃ t, exec (.registerWrite 0x278 [9]) s = .next t ∧ (t.hub.gang 7).tick = 2000) ∧
    (∃ t, exec (.registerWrite 0x279 [9]) q = .next t ∧ (t.hub.gang 7).tick = 0x9D0) :=
  Chk.run (.and (.nextAnd fun _ => .dec) (.and (.nextAnd fun _ => .dec) (.nextAnd fun _ => .dec)))

/-- An armed slot at its tick in a module that has failed, whose ready bit is still set, and one that is armed as it is
fired or refused. -/
theorem test_meets_gangActs2 :
    (let s := { (ganged 1 true).modHub fun h => { h with fail := true } with time := 2000 }
     (s.hub.gang 7).state = 1 ∧ (s.hub.gang 7).tick.toNat ≤ s.time.toNat ∧ s.hub.takes = false ∧ s.hub.ready = true) ∧
    (step' 10).hub.ready = false ∧ (ganged 0 true).hub.ready = true ∧ (ganged 0 false).hub.ready = true ∧
    ((ganged 2 true).hub.gang 7).state ≠ 1 ∧ ((ganged 3 true).hub.gang 7).state ≠ 1 := Chk.run .dec

/-- A region that runs, one that is frozen, and one that stops while a THAW waits for its cut. -/
theorem test_meets_freezing :
    (placeRegion.frozen = false ∧ placeRegion.thawing = false) ∧
    ({ placeRegion with frozen := true } : Region).frozen = true ∧
    (let x : Region := { placeRegion with stopping := true, thawing := true }
     x.frozen = false ∧ x.stopping = true ∧ x.thawing = true) ∧
    ∃ x, here.region? 0 = some x ∧ x.frozen = false :=
  Chk.run (.and .dec (.and .dec (.and .dec (.some fun _ => .dec))))

/-- A stop that a store on its way keeps open; and a cut with a pending FREEZE that it answers, and with one that was asked
for after a THAW which waits. -/
theorem test_meets_freezeEvents2 :
    (let a : Access := ⟨0, 0, 0, 0, 0, 0, 0, placeImage, [1], false, none⟩
     let s := { region (fun x => { x with stopping := true }) with inflight := [a] }
     s.inflight = [a] ∧ (a.tile = 0 ∧ a.region = 0) ∧ (s.lastFaults 0 0).drained 0 0 = false) ∧
    (let s (again : Bool) := (region (fun x => { x with stopping := true, thawing := again, again := again })).modCut 0 0
       fun c => { c with stopped := true }
     let q (again : Bool) := (s again).modHub fun h => { h with freezing := some 0 }
     let group (s : State) : List (BitVec 16) := (s.group 0).filter fun k => match s.region? k with
       | some y => y.stopping
       | none => false
     let f (again : Bool) := (group (q again)).foldl (fun u k => u.freezeRegion k) (q again)
     group (q false) = [0] ∧ (q false).cutCloses (group (q false)) = true ∧ (f false).hub.freezing = some 0 ∧
      (f false).hub.mbxThaw = false ∧ (f false).lastFreeze 0 = true ∧
      group (q true) = [0] ∧ (q true).cutCloses (group (q true)) = true ∧ (f true).lastFreeze 0 = false ∧
      ∃ y, (f true).region? 0 = some y ∧ y.thawing = true) :=
  Chk.run (.and .dec (.and .dec (.and .dec (.and .dec (.and .dec (.and .dec (.and .dec (.and .dec (.and .dec
    (.some fun _ => .dec))))))))))

/-- Of a reclaimed issuer, a stream that goes on, and a command that does not stream. -/
theorem test_meets_cancelledCommands :
    (let c := { copied.2 with cancelled := true }
     c.running = true ∧ c.cancelled = true ∧ streams c.insn = true ∧
      ∃ q ok, runEffect 0 c ((busy c).asCommand c) = .ok (q, ok)) ∧
    (let c : Cmd := { here.newCmd (.azero 0) ctxMatrix with running := true, cancelled := true }
     c.running = true ∧ c.cancelled = true ∧ streams c.insn = false ∧ ((busy c).tile 0).cmds[0]? = some c) :=
  Chk.run (.and (.and .dec (.and .dec (.and .dec .isOk2))) .dec)

/-- A `coll` that finds an unfinished one of its scope and SEQ on its tile. -/
theorem test_meets_secondColl :
    let s := (words [(0, 8), (8, 16), (16, own + 0x100), (24, own + 0x200)]).modTile 0 fun t => { t with cmds := [collected.2] }
    CommandIssues s ctxExchange ∧ ∃ x, useScope s 1 = .ok x ∧
      ∃ s1 desc, readDesc s (s.g 4) = .ok (s1, desc) ∧ collForm desc = true ∧ collFormat desc = true ∧
      ∃ s2 src, localOperand s1 (collSrc desc) (collBytes desc) .read = .ok (s2, src) ∧
      ∃ s3 dst, localOperand s2 (collDst desc) (collOut desc x.tileList.length) .write = .ok (s3, dst) ∧ Confirmed s3 ∧
        ∃ e ∈ (s3.tile s3.cur.tile).cmds, Cmd.isColl { s3.newCmd (.coll 4 1) ctxExchange with
          opa := s3.g 4, desc := desc, sets := some x, reads := ownIntervals s3.cur.tile src,
          writes := ownIntervals s3.cur.tile dst } e = true :=
  Chk.run (.and .issues (.ok fun _ => .ok2 fun _ _ => .and .dec (.and .dec (.ok2 fun _ _ => .ok2 fun _ _ => .and .confirmed .dec))))

/-- A collective on a stopped tile whose part a single step has issued. -/
theorem test_meets_steppedColl :
    let c := collected.2
    let s := (collected.1.modCut 0 0 fun c => { c with stopped := true }).modThread ⟨0, 1⟩ fun t =>
      { t with hold := .stepping ⟨0, c.thr⟩ }
    (s.cut 0 c.region).stopped = true ∧ s.firstColl 0 c = true ∧ s.inStep 0 c = true ∧
    ∃ parts, s.collParts c c.members = some parts ∧ (parts.any fun p => s.inStep p.1 p.2) = true ∧
      collAgrees c c.members parts = true ∧ ∃ a xs, collRead parts s = .ok (a, xs) :=
  Chk.run (.and .dec (.and .dec (.and .dec (.some fun _ => .and .dec (.and .dec .isOk2)))))

end Sys2Proof.Tests
end

section
/-! SUPPORT. The arithmetic of the scalar instructions (R280 to R284, R290): what the model's operations on words compute,
as bit vectors, as integers or bit by bit. -/

namespace Sys2Proof.Machine

/-! Words of numbers and of integers. -/

@[simp] theorem getLsbD_wd (n k : Nat) : (wd n).getLsbD k = (decide (k < 64) && n.testBit k) :=
  BitVec.getLsbD_ofNat 64 n k

/-- A number that a word can hold is read back from its word. -/
theorem wd_eq_of_toNat_eq {n : Nat} {x : Word} (h : x.toNat = n) : wd n = x := by
  subst h
  exact BitVec.ofNat_toNat 64 x |>.trans (BitVec.setWidth_eq x)

/-! Shifts (R280, R285). -/

theorem shiftLeft_eq (x n : Word) : shiftLeft x n = if 64 ≤ n.toNat then 0 else x <<< n.toNat := by
  have h : wd (x.toNat * 2 ^ n.toNat) = x <<< n.toNat :=
    BitVec.eq_of_toNat_eq (by rw [BitVec.toNat_shiftLeft, Nat.shiftLeft_eq]; rfl)
  rw [shiftLeft, h]

theorem shiftRight_eq (x n : Word) : shiftRight x n = if 64 ≤ n.toNat then 0 else x >>> n.toNat := by
  have h : wd (x.toNat / 2 ^ n.toNat) = x >>> n.toNat :=
    wd_eq_of_toNat_eq (by rw [BitVec.toNat_ushiftRight, Nat.shiftRight_eq_div_pow])
  rw [shiftRight, h]

theorem shiftArith_eq (x n : Word) : shiftArith x n = x.sshiftRight (if 64 ≤ n.toNat then 63 else n.toNat) := by
  have hn : min n.toNat 63 = if 64 ≤ n.toNat then 63 else n.toNat := by split <;> omega
  rw [shiftArith, hn, BitVec.sshiftRight, Int.shiftRight_eq_div_pow]
  rfl

/-! No amount of an immediate shift reaches 64 (R285), so that the large amounts of R280 do not arise. -/

theorem toNat_zimm {n : Nat} (hn : n ≤ 64) (i : BitVec n) : (zimm i).toNat = i.toNat := BitVec.toNat_setWidth_of_le hn

theorem shiftLeft_zimm (x : Word) (n : BitVec 6) : shiftLeft x (zimm n) = x <<< n.toNat := by
  rw [shiftLeft_eq, toNat_zimm (by decide), if_neg (Nat.not_le.mpr n.isLt)]

theorem shiftRight_zimm (x : Word) (n : BitVec 6) : shiftRight x (zimm n) = x >>> n.toNat := by
  rw [shiftRight_eq, toNat_zimm (by decide), if_neg (Nat.not_le.mpr n.isLt)]

theorem shiftArith_zimm (x : Word) (n : BitVec 6) : shiftArith x (zimm n) = x.sshiftRight n.toNat := by
  rw [shiftArith_eq, toNat_zimm (by decide), if_neg (Nat.not_le.mpr n.isLt)]

/-! Division (R281). -/

/-- The rule's overflow case is no case of its own in the model: -2^63 / -1 wraps to 2^63 by itself. -/
theorem divSigned_eq (x y : Word) : divSigned x y =
    if y = 0 then BitVec.allOnes 64
    else if x.toInt = -2 ^ 63 ∧ y.toInt = -1 then BitVec.ofNat 64 (2 ^ 63)
    else BitVec.ofInt 64 (x.toInt.tdiv y.toInt) := by
  unfold divSigned
  split
  · rfl
  · split
    next h => rw [h.1, h.2]; decide
    next => rfl

/-- Truncated division leaves the dividend less the divisor times the quotient, and 0 in the overflow case. -/
theorem remSigned_eq (x y : Word) : remSigned x y =
    if y = 0 then x
    else if x.toInt = -2 ^ 63 ∧ y.toInt = -1 then 0
    else BitVec.ofInt 64 (x.toInt - y.toInt * x.toInt.tdiv y.toInt) := by
  unfold remSigned
  split
  · rfl
  · split
    next h => rw [h.1, h.2]; decide
    next => rw [Int.tmod_def]; rfl

theorem divUnsigned_eq (x y : Word) : divUnsigned x y = if y = 0 then BitVec.allOnes 64 else x / y := by
  rw [divUnsigned, wd_eq_of_toNat_eq (BitVec.toNat_udiv (x := x) (y := y))]

theorem remUnsigned_eq (x y : Word) : remUnsigned x y = if y = 0 then x else x % y := by
  rw [remUnsigned, wd_eq_of_toNat_eq (BitVec.toNat_umod (x := x) (y := y))]

/-- The exact identity of truncated division, wrapped to a word. -/
theorem mul_divSigned_add_remSigned {x y : Word} (h : y ≠ 0) : y * divSigned x y + remSigned x y = x :=
  calc y * divSigned x y + remSigned x y
      = BitVec.ofInt 64 y.toInt * BitVec.ofInt 64 (x.toInt.tdiv y.toInt) + BitVec.ofInt 64 (x.toInt.tmod y.toInt) := by
        rw [divSigned, remSigned, if_neg h, if_neg h, BitVec.ofInt_toInt]; rfl
    _ = BitVec.ofInt 64 (y.toInt * x.toInt.tdiv y.toInt + x.toInt.tmod y.toInt) := by
        rw [BitVec.ofInt_add, BitVec.ofInt_mul]
    _ = x := by rw [Int.mul_tdiv_add_tmod, BitVec.ofInt_toInt]

/-- The exact identity of unsigned division, wrapped to a word. -/
theorem mul_divUnsigned_add_remUnsigned {x y : Word} (h : y ≠ 0) : y * divUnsigned x y + remUnsigned x y = x :=
  calc y * divUnsigned x y + remUnsigned x y
      = wd y.toNat * wd (x.toNat / y.toNat) + wd (x.toNat % y.toNat) := by
        rw [divUnsigned, remUnsigned, if_neg h, if_neg h, wd_eq_of_toNat_eq (x := y) rfl]
    _ = wd (y.toNat * (x.toNat / y.toNat) + x.toNat % y.toNat) := by
        simp only [wd, BitVec.ofNat_add, BitVec.ofNat_mul]
    _ = x := by rw [Nat.div_add_mod, wd_eq_of_toNat_eq rfl]

/-! Counts of bits (R282). -/

/-- What `leadingZeros` counts among the low n bits of a number. -/
theorem leadingZeros_spec (x n : Nat) : leadingZeros x n ≤ n ∧
    (∀ k < leadingZeros x n, x.testBit (n - 1 - k) = false) ∧
    (leadingZeros x n < n → x.testBit (n - 1 - leadingZeros x n) = true) := by
  induction n with
  | zero => simp [leadingZeros]
  | succ n ih =>
    obtain ⟨hle, hzero, hone⟩ := ih
    by_cases hb : x.testBit n = true
    · simp [leadingZeros, hb]
    · have hcount : leadingZeros x (n + 1) = leadingZeros x n + 1 := by simp [leadingZeros, hb, Nat.add_comm]
      rw [hcount]
      refine ⟨by omega, fun k hk => ?_, fun hlt => ?_⟩
      · cases k with
        | zero => simpa using hb
        | succ k => rw [show n + 1 - 1 - (k + 1) = n - 1 - k by omega]; exact hzero k (by omega)
      · rw [show n + 1 - 1 - (leadingZeros x n + 1) = n - 1 - leadingZeros x n by omega]; exact hone (by omega)

/-- What `trailingZeros` counts among the n bits of a number from bit k upward. -/
theorem trailingZeros_spec (x k n : Nat) : trailingZeros x k n ≤ n ∧
    (∀ j < trailingZeros x k n, x.testBit (k + j) = false) ∧
    (trailingZeros x k n < n → x.testBit (k + trailingZeros x k n) = true) := by
  induction n generalizing k with
  | zero => simp [trailingZeros]
  | succ n ih =>
    obtain ⟨hle, hzero, hone⟩ := ih (k + 1)
    by_cases hb : x.testBit k = true
    · simp [trailingZeros, hb]
    · have hcount : trailingZeros x k (n + 1) = trailingZeros x (k + 1) n + 1 := by
        simp [trailingZeros, hb, Nat.add_comm]
      rw [hcount]
      refine ⟨by omega, fun j hj => ?_, fun hlt => ?_⟩
      · cases j with
        | zero => simpa using hb
        | succ j => rw [← Nat.add_assoc, Nat.add_right_comm]; exact hzero j (by omega)
      · rw [← Nat.add_assoc, Nat.add_right_comm]; exact hone (by omega)

/-- The number 0 has no 1 bit to end the count. -/
@[simp] theorem leadingZeros_zero (n : Nat) : leadingZeros 0 n = n := by
  induction n with
  | zero => rfl
  | succ n ih => simp [leadingZeros, ih, Nat.add_comm]

@[simp] theorem trailingZeros_zero (k n : Nat) : trailingZeros 0 k n = n := by
  induction n generalizing k with
  | zero => rfl
  | succ n ih => simp [trailingZeros, ih, Nat.add_comm]

theorem onesCount_eq_countP (x n : Nat) : onesCount x n = (List.range n).countP fun k => x.testBit k := by
  induction n with
  | zero => rfl
  | succ n ih => rw [onesCount, ih, List.range_succ, List.countP_append, List.countP_singleton, Nat.add_comm]; rfl

/-! Fields (R283). -/

theorem fieldPos_eq (b : Word) : fieldPos b = b.toNat % 64 := by simp [fieldPos, bits]

theorem fieldWidth_eq (b : Word) : fieldWidth b = min (b.toNat / 256 % 128) (64 - fieldPos b) := rfl

theorem getLsbD_extractField (x b : Word) {k : Nat} (hk : k < 64) :
    (extractField x b).getLsbD k = (decide (k < fieldWidth b) && x.getLsbD (fieldPos b + k)) := by
  rw [extractField, getLsbD_wd, Nat.testBit_mod_two_pow, Nat.testBit_div_two_pow, decide_eq_true hk, Bool.true_and,
    Nat.add_comm]
  rfl

/-- The mask of `ins` has exactly the bits of the field. -/
theorem getLsbD_fieldMask (w p : Nat) {k : Nat} (hk : k < 64) :
    (wd ((2 ^ w - 1) * 2 ^ p)).getLsbD k = decide (p ≤ k ∧ k < p + w) := by
  rw [getLsbD_wd, Nat.testBit_mul_two_pow, Nat.testBit_two_pow_sub_one, decide_eq_true hk, Bool.true_and,
    ← Bool.decide_and, decide_eq_decide]
  omega

theorem getLsbD_insertField (old x b : Word) {k : Nat} (hk : k < 64) :
    (insertField old x b).getLsbD k =
      if fieldPos b ≤ k ∧ k < fieldPos b + fieldWidth b then x.getLsbD (k - fieldPos b) else old.getLsbD k := by
  simp only [insertField, BitVec.getLsbD_or, BitVec.getLsbD_and, BitVec.getLsbD_not, getLsbD_fieldMask _ _ hk]
  rw [getLsbD_wd, Nat.testBit_mul_two_pow, BitVec.testBit_toNat]
  split
  next h => simp [h, hk]
  next h => simp [h, hk]

/-! Targets (R289). -/

/-- The low 56 bits of the word of an integer are the integer modulo 2^56. -/
theorem addr56_ofInt (z : Int) : addr56 (BitVec.ofInt 64 z) = BitVec.ofInt 64 (z % 2 ^ 56) := by
  apply BitVec.eq_of_toNat_eq
  have hlow : (addr56 (BitVec.ofInt 64 z)).toNat = (BitVec.ofInt 64 z).toNat % 2 ^ 56 :=
    Nat.and_two_pow_sub_one_eq_mod _ 56
  rw [hlow, BitVec.toNat_ofInt, BitVec.toNat_ofInt]
  omega

/-- A target is the address plus twice the signed offset, modulo 2^56, computed on exact integers. -/
theorem target_eq_ofInt {n : Nat} (pc : Word) (o : BitVec n) :
    target pc o = BitVec.ofInt 64 ((pc.toNat + 2 * o.toInt) % 2 ^ 56) := by
  have hword : pc + 2 * simm o = BitVec.ofInt 64 (pc.toNat + 2 * o.toInt) := by
    rw [BitVec.ofInt_add, BitVec.ofInt_mul, BitVec.ofInt_natCast, ← wd, wd_eq_of_toNat_eq rfl]
    rfl
  rw [target, hword, addr56_ofInt]

end Sys2Proof.Machine
end

section
/-! SUPPORT. Fields of a word (R257): a field reads back what the encoding placed there. -/

namespace Sys2Proof

/-- A field holds a value if the number of its bits is the value's. -/
theorem bf_eq {w lo n : Nat} {x : BitVec n} (h : nf w lo n = x.toNat) : bf w lo n = x :=
  BitVec.eq_of_toNat_eq ((BitVec.toNat_ofNat _ n).trans h)

/-- A 32-bit word with major 0x10 (R257, R260). -/
theorem decodeWord_major10 {w : Nat} (hodd : w % 2 = 1) (hmajor : nf w 26 6 = 0x10) : decodeWord w = major10 w := by
  simp [decodeWord, decode32, hodd, hmajor]

/-- A 32-bit word with major 0x01 (R257, R260). -/
theorem decodeWord_major01 {w : Nat} (hodd : w % 2 = 1) (hmajor : nf w 26 6 = 0x01) : decodeWord w = major01 w := by
  simp [decodeWord, decode32, hodd, hmajor]

/-- The word of `sel` (R284): p in bits 9 to 7, and bit 10 zero. -/
theorem decodeWord_sel (d a b : BitVec 5) (p : BitVec 3) :
    decodeWord (2 ^ 26 + d.toNat * 2 ^ 21 + a.toNat * 2 ^ 16 + b.toNat * 2 ^ 11 + p.toNat * 2 ^ 7 + 0x18 * 2 + 1) =
      .ok (.sel d a b p) := by
  generalize hw : 2 ^ 26 + d.toNat * 2 ^ 21 + a.toNat * 2 ^ 16 + b.toNat * 2 ^ 11 + p.toNat * 2 ^ 7 + 0x18 * 2 + 1 = w
  have hd := d.isLt
  have ha := a.isLt
  have hb := b.isLt
  have hp := p.isLt
  have hminor : nf w 1 6 = 0x18 := by unfold nf; omega
  have hzero : nf w 10 1 = 0 := by unfold nf; omega
  have hd' : bf w 21 5 = d := bf_eq (by unfold nf; omega)
  have ha' : bf w 16 5 = a := bf_eq (by unfold nf; omega)
  have hb' : bf w 11 5 = b := bf_eq (by unfold nf; omega)
  have hp' : bf w 7 3 = p := bf_eq (by unfold nf; omega)
  rw [decodeWord_major01 (by omega) (by unfold nf; omega)]
  simp [major01, hminor, hzero, hd', ha', hb', hp', accept, Instr.wf]

/-- The word of `b` (R290): the format B has no reserved bit. -/
theorem decodeWord_b (p : BitVec 3) (e : BitVec 1) (o : BitVec 21) :
    decodeWord (0x10 * 2 ^ 26 + p.toNat * 2 ^ 23 + e.toNat * 2 ^ 22 + o.toNat * 2 + 1) = .ok (.b p e o) := by
  generalize hw : 0x10 * 2 ^ 26 + p.toNat * 2 ^ 23 + e.toNat * 2 ^ 22 + o.toNat * 2 + 1 = w
  have hp := p.isLt
  have he := e.isLt
  have ho := o.isLt
  have hp' : bf w 23 3 = p := bf_eq (by unfold nf; omega)
  have he' : bf w 22 1 = e := bf_eq (by unfold nf; omega)
  have ho' : bf w 1 21 = o := bf_eq (by unfold nf; omega)
  rw [decodeWord_major10 (by omega) (by unfold nf; omega)]
  simp [major10, hp', he', ho', accept, Instr.wf]

end Sys2Proof
end

section
/-! SUPPORT. What the scalar instructions of R280 to R284 and R290 do. -/

namespace Sys2Proof.Machine

open Sys2Proof.Claims

/-- `p0` reads 1 (R263). -/
@[simp] theorem State.p_zero (s : State) : s.p 0#3 = true := rfl

@[simp] theorem State.pc_jump (s : State) (a : Word) : (s.jump a).pc = a := by simp [State.pc, State.jump]

@[simp] theorem State.pc_advance (s : State) (n : Nat) : (s.advance n).pc = s.pc + wd n := by
  simp [State.pc, State.advance]

/-- An instruction writes whatever its result is equal to: its arm of `exec` and the law of its operation meet here. -/
theorem does_putG_of_eq {i : Instr} {s : State} {d : BitVec 5} {x y : Word} (hexec : Does i s (s.putG d x))
    (hxy : x = y) : Does i s (s.putG d y) := hxy ▸ hexec

/-- `trailingZeros_spec` from bit 0, in the words of R282. -/
theorem trailingZeros_word (x : Word) : TrailingZeros x (trailingZeros x.toNat 0 64) := by
  have h := trailingZeros_spec x.toNat 0 64
  simp only [Nat.zero_add] at h
  exact h

theorem leadingZeros_word (x : Word) : LeadingZeros x (leadingZeros x.toNat 64) := leadingZeros_spec x.toNat 64

/-- The branch as the rule's own text has it: the predicate is compared with the sense bit, and the target is computed
on exact integers (R290). -/
theorem does_b (s : State) (p : BitVec 3) (e : BitVec 1) (o : BitVec 21) :
    Does (.b p e o) s (if s.p p = (e == 1) then s.jump (BitVec.ofInt 64 ((s.pc.toNat + 2 * o.toInt) % 2 ^ 56))
      else s.advance 4) := by
  have hexec : exec (.b p e o) s = .next (s.branch (s.p p = (e = 1)) (target s.pc o)) := rfl
  have htaken : ((s.p p = true) = (e = 1)) ↔ s.p p = (e == 1) := by
    rw [eq_iff_iff, Bool.eq_iff_iff (b := e == 1), beq_iff_eq]
  rw [Does, hexec, target_eq_ofInt, State.branch]
  simp only [htaken, decide_eq_true_eq]

/-- Settles O9: the limit cases by the laws of the four operations, the identity by exact division wrapped to a word. -/
theorem divisionResults : Obligations.DivisionResults := by
  unfold Obligations.DivisionResults
  refine ⟨fun s d a b => ⟨?_, ?_, ?_, ?_⟩, fun x y hy => ⟨?_, ?_⟩⟩
  · exact does_putG_of_eq rfl (divSigned_eq _ _)
  · exact does_putG_of_eq rfl (remSigned_eq _ _)
  · exact does_putG_of_eq rfl (divUnsigned_eq _ _)
  · exact does_putG_of_eq rfl (remUnsigned_eq _ _)
  · exact (mul_divSigned_add_remSigned hy).symm
  · exact (mul_divUnsigned_add_remUnsigned hy).symm

/-- Settles O10: the counts are the model's recursions, each with its specification by induction on the bits. -/
theorem bitCounts : Obligations.BitCounts := by
  unfold Obligations.BitCounts
  refine fun s d a => ⟨⟨_, rfl, leadingZeros_word (s.g a), fun h => ?_⟩,
    ⟨_, rfl, trailingZeros_word (s.g a), fun h => ?_⟩, ?_⟩
  · rw [h]; exact leadingZeros_zero 64
  · rw [h]; exact trailingZeros_zero 0 64
  · exact does_putG_of_eq rfl (congrArg wd (onesCount_eq_countP (s.g a).toNat 64))

/-- Settles O11: bit by bit, through the bits of the mask of `ins`. -/
theorem fieldResults : Obligations.FieldResults := by
  unfold Obligations.FieldResults
  intro s d a b pos w hpos hw
  rw [← fieldPos_eq] at hpos
  subst hpos
  rw [← fieldWidth_eq] at hw
  subst hw
  exact ⟨⟨_, rfl, fun k hk => getLsbD_extractField _ _ hk⟩, ⟨_, rfl, fun k hk => getLsbD_insertField _ _ _ hk⟩⟩

/-- Settles O16: `does_b` at any predicate and at `p0`, and the fields of the word. -/
theorem conditionalBranch : Obligations.ConditionalBranch := by
  unfold Obligations.ConditionalBranch
  refine ⟨fun s p e o => ⟨does_b s p e o, ?_, ?_, State.pc_advance s 4, State.pc_jump s _, ?_, ?_,
    decodeWord_b p e o⟩, rfl⟩
  · simpa using does_b s 0 1 o
  · simpa using does_b s 0 0 o
  · exact BitVec.le_toInt o
  · exact Int.le_sub_one_of_lt (BitVec.toInt_lt (x := o))

/-- Settles O8. -/
theorem shiftResults : Obligations.ShiftResults := by
  unfold Obligations.ShiftResults
  refine fun s d a b n => ⟨?_, ?_, ?_, ?_, ?_, ?_⟩
  · exact does_putG_of_eq rfl (shiftLeft_eq _ _)
  · exact does_putG_of_eq rfl (shiftRight_eq _ _)
  · exact does_putG_of_eq rfl (shiftArith_eq _ _)
  · exact does_putG_of_eq rfl (shiftLeft_zimm _ _)
  · exact does_putG_of_eq rfl (shiftRight_zimm _ _)
  · exact does_putG_of_eq rfl (shiftArith_zimm _ _)

/-- Settles O15: the arm of `sel`, at `p0` too, and the fields of its word. -/
theorem selectForm : Obligations.SelectForm := by
  unfold Obligations.SelectForm
  exact ⟨fun s d a b p => ⟨rfl, rfl, decodeWord_sel d a b p⟩, rfl⟩

end Sys2Proof.Machine
end

section
/-! SUPPORT. What the guards of an instruction's body come to, and what `rcompact` does past them (R143, R404). -/

namespace Sys2Proof.Machine

open Sys2Proof.Claims

/-! Guards. -/

theorem need_of_true {s : State} {b : Bool} {c : Cause} (h : b = true) : need s b c = .ok () := if_pos h

theorem need_of_false {s : State} {b : Bool} {c : Cause} (h : b = false) : need s b c = stopWith s c :=
  if_neg (Bool.eq_false_iff.mp h)

/-- The system handler passes the check of privilege (R420). -/
theorem needPrivilege_of_privileged {s : State} (h : Privileged s) : needPrivilege s = .ok () := need_of_true h

/-- A confirmed fibre is not held (R78). -/
theorem checkHeld_of_confirmed {s : State} (h : Confirmed s) (allowed : Bool) : checkHeld s allowed = .ok () :=
  if_pos (Bool.or_eq_true_iff.mpr (.inl h))

/-! `rcompact`. -/

/-- What a request for a run of 2^k blocks leaves, by whether a compaction of the die is under way. -/
def State.requestCompaction (s : State) (die : BitVec 2) (k : BitVec 5) : State :=
  (if (s.die die).compact.isNone then s.modDie die fun y => { y with compact := some k } else s).putP 7
    (s.die die).compact.isNone

theorem State.requestCompaction_of_none {s : State} {die : BitVec 2} (h : (s.die die).compact = none) (k : BitVec 5) :
    s.requestCompaction die k = (s.modDie die fun y => { y with compact := some k }).putP 7 true := by
  simp [State.requestCompaction, h]

theorem State.requestCompaction_of_ne_none {s : State} {die : BitVec 2} (h : (s.die die).compact ≠ none) (k : BitVec 5) :
    s.requestCompaction die k = s.putP 7 false := by
  have hbusy : (s.die die).compact.isNone = false := Option.isNone_eq_false_iff.mpr (Option.isSome_iff_ne_none.mpr h)
  simp [State.requestCompaction, hbusy]

/-- Past the guards of privilege and of speculation only the limits of the die and of the order are left to judge. -/
theorem execRcompact_eq {s : State} (hconf : Confirmed s) (hpriv : Privileged s) (a b : BitVec 5) :
    execRcompact a b s = settle (do
      let _ ← need s (decide ((s.g a).toNat < 4) && decide ((s.g b).toNat ≤ 16)) .reservedField
      .ok (s.requestCompaction ((s.g a).setWidth 2) ((s.g b).setWidth 5))) := by
  rw [execRcompact, needPrivilege_of_privileged hpriv, checkHeld_of_confirmed hconf, ← BitVec.ofNat_toNat,
    ← BitVec.ofNat_toNat]
  rfl

theorem does_rcompact {s : State} (hconf : Confirmed s) (hpriv : Privileged s) {a b : BitVec 5}
    (hdie : (s.g a).toNat ≤ 3) (horder : (s.g b).toNat ≤ 16) :
    Does (.rcompact a b) s (s.requestCompaction ((s.g a).setWidth 2) ((s.g b).setWidth 5)) := by
  have hlimits : (decide ((s.g a).toNat < 4) && decide ((s.g b).toNat ≤ 16)) = true := by
    simp only [Bool.and_eq_true, decide_eq_true_eq]
    omega
  exact (execRcompact_eq hconf hpriv a b).trans (by rw [need_of_true hlimits]; rfl)

theorem does_rcompact_reservedField {s : State} (hconf : Confirmed s) (hpriv : Privileged s) {a b : BitVec 5}
    (h : 3 < (s.g a).toNat ∨ 16 < (s.g b).toNat) :
    Does (.rcompact a b) s (s.stop ⟨.reservedField, 0, 0, none, none⟩) := by
  have hlimits : (decide ((s.g a).toNat < 4) && decide ((s.g b).toNat ≤ 16)) = false := by
    simp only [Bool.and_eq_false_iff, decide_eq_false_iff_not]
    omega
  exact (execRcompact_eq hconf hpriv a b).trans (by rw [need_of_false hlimits]; rfl)

/-- Settles O47: within the limits by whether a compaction of the die is under way, beyond them at the check of the
limits. -/
theorem compactionRequest : Obligations.CompactionRequest := by
  unfold Obligations.CompactionRequest
  intro s a b hconf hpriv
  refine ⟨fun hdie horder => ?_, does_rcompact_reservedField hconf hpriv⟩
  have hdoes := does_rcompact hconf hpriv hdie horder
  exact ⟨fun hfree => State.requestCompaction_of_none hfree _ ▸ hdoes,
    fun hbusy => State.requestCompaction_of_ne_none hbusy _ ▸ hdoes⟩

end Sys2Proof.Machine
end

section
/-! SUPPORT. Fields of words (R257): what a field of a sum of fields reads, and a word as the sum of its fields. -/

namespace Sys2Proof

/-! A field x placed at bit p of a word: what the fields below it, at its place and above it read. -/

@[simp] theorem nf_add_low {k w p lo n : Nat} (x : BitVec k) (h : lo + n ≤ p) :
    nf (w + x.toNat <<< p) lo n = nf w lo n := by
  obtain ⟨q, rfl⟩ := Nat.exists_eq_add_of_le h
  unfold nf
  rw [Nat.shiftLeft_eq, Nat.pow_add, Nat.pow_add, Nat.mul_assoc, Nat.mul_left_comm,
    Nat.add_mul_div_left _ _ (Nat.two_pow_pos lo), Nat.mul_left_comm, Nat.add_mul_mod_self_left]

/-- Where the bits of the field are free, no carry leaves it. -/
theorem div_add_field {k w p lo : Nat} (x : BitVec k) (hfree : nf w p k = 0) (h : p + k ≤ lo) :
    (w + x.toNat <<< p) / 2 ^ lo = w / 2 ^ lo := by
  obtain ⟨q, rfl⟩ := Nat.exists_eq_add_of_le h
  unfold nf at hfree
  have hx := x.isLt
  have hfield : (w + x.toNat <<< p) / 2 ^ p = w / 2 ^ p + x.toNat := by
    rw [Nat.shiftLeft_eq, Nat.add_mul_div_right _ _ (Nat.two_pow_pos p)]
  have habove : (w / 2 ^ p + x.toNat) / 2 ^ k = w / 2 ^ p / 2 ^ k := by
    rw [Nat.add_div (Nat.two_pow_pos k), hfree, Nat.mod_eq_of_lt hx, Nat.div_eq_of_lt hx, if_neg (by omega)]
    rfl
  rw [Nat.pow_add, Nat.pow_add, ← Nat.div_div_eq_div_mul, ← Nat.div_div_eq_div_mul, hfield, habove,
    Nat.div_div_eq_div_mul, Nat.div_div_eq_div_mul, Nat.mul_assoc]

@[simp] theorem nf_add_high {k w p lo n : Nat} (x : BitVec k) (hfree : nf w p k = 0) (h : p + k ≤ lo) :
    nf (w + x.toNat <<< p) lo n = nf w lo n := by rw [nf, div_add_field x hfree h, nf]

@[simp] theorem nf_add_at {k w p n : Nat} (x : BitVec k) (hfree : nf w p k = 0) (h : k ≤ n) :
    nf (w + x.toNat <<< p) p n = nf w p n + x.toNat := by
  obtain ⟨q, rfl⟩ := Nat.exists_eq_add_of_le h
  unfold nf at *
  have hx := x.isLt
  rw [Nat.shiftLeft_eq, Nat.add_mul_div_right _ _ (Nat.two_pow_pos p), Nat.pow_add, Nat.mod_mul, Nat.mod_mul,
    Nat.add_mod, hfree, Nat.zero_add, Nat.mod_mod, Nat.mod_eq_of_lt hx, Nat.add_div (Nat.two_pow_pos k), hfree,
    Nat.mod_eq_of_lt hx, Nat.div_eq_of_lt hx, if_neg (by omega)]
  simp only [Nat.add_zero, Nat.zero_add, Nat.add_comm]

@[simp] theorem bf_add_high {k w p lo n : Nat} (x : BitVec k) (hfree : nf w p k = 0) (h : p + k ≤ lo) :
    bf (w + x.toNat <<< p) lo n = bf w lo n := by rw [bf, div_add_field x hfree h, bf]

@[simp] theorem bf_add_at {k w p : Nat} (x : BitVec k) (hfree : nf w p k = 0) :
    bf (w + x.toNat <<< p) p k = x := by
  apply bf_eq
  rw [nf_add_at x hfree (Nat.le_refl k), hfree, Nat.zero_add]

/-- A field of a numeral is computed. -/
@[simp] theorem nf_ofNat (n lo k : Nat) : nf (no_index (OfNat.ofNat n)) lo k = OfNat.ofNat n / 2 ^ lo % 2 ^ k := by
  rw [nf]

/-! A word cut into fields. -/

theorem nf_one_eq (w lo : Nat) : nf w lo 1 = 0 ∨ nf w lo 1 = 1 := by unfold nf; omega

theorem nf_add (w lo m n : Nat) : nf w lo (m + n) = nf w lo m + 2 ^ m * nf w (lo + m) n := by
  rw [nf, nf, nf, Nat.pow_add, Nat.pow_add, Nat.mod_mul, Nat.div_div_eq_div_mul]

/-- A choice by a condition is the choice by an equivalent one. -/
theorem ite_of_iff {α : Sort _} {p q : Prop} [Decidable p] [Decidable q] (h : p ↔ q) (x y : α) :
    (if p then x else y) = if q then x else y :=
  ite_congr (propext h) (fun _ => rfl) fun _ => rfl

/-- The low k bits of a word. -/
def low (w k : Nat) : Nat := w % 2 ^ k

theorem low_add (w lo n : Nat) : low w (lo + n) = low w lo + nf w lo n * 2 ^ lo := by
  rw [low, low, nf, Nat.pow_add, Nat.mod_mul, Nat.mul_comm (2 ^ lo)]

/-- The value of a field as an equation between low parts of the word: such equations chain over adjacent fields. -/
theorem nf_eq_iff {w lo n c : Nat} : nf w lo n = c ↔ low w (lo + n) = low w lo + c * 2 ^ lo := by
  rw [low_add, Nat.add_left_cancel_iff, Nat.mul_left_inj (Nat.ne_of_gt (Nat.two_pow_pos lo))]

/-- A field in its place is a difference of low parts of the word. -/
theorem toNat_bf_mul (w lo n : Nat) : ((bf w lo n).toNat : Int) * 2 ^ lo = low w (lo + n) - low w lo := by
  rw [low_add, bf, BitVec.toNat_ofNat, ← nf]
  push_cast
  omega

end Sys2Proof
end

section
/-! SUPPORT. The decoder reads every instruction back from its word (R253 to R277). -/

namespace Sys2Proof

open Machine

/-- The decoder reads the instruction back from its word. -/
def RoundTrips (i : Instr) : Prop := i.wf = true → decodeWord (encodeWord i) = .ok i

@[simp] theorem accept_of_wf {i : Instr} (h : i.wf = true) : accept true i = .ok i := by simp [accept, h]

theorem decodeWord_eq (w : Nat) : decodeWord w = if nf w 0 1 = 0 then decode16 w else decode32 w := by
  simp [decodeWord, nf]

/-- A halfword whose operation is not 0 is not the halfword 0 (R256). -/
theorem halfword_ne_zero {w : Nat} (h : nf w 12 4 ≠ 0) : w % 2 ^ 16 ≠ 0 := by
  unfold nf at h
  omega

/-! Each instruction by itself: the fields of its word, in the order of the encoding tables. -/

/-- The operation 0 of the lane form takes any operands but three zeros (R256). -/
theorem roundTrips_vadd16 (d b : BitVec 5) (s : BitVec 1) : RoundTrips (.vadd16 d b s) := by
  intro hwf
  have hsome : d.toNat ≠ 0 ∨ b.toNat ≠ 0 ∨ s.toNat ≠ 0 := by simpa [Instr.wf, or_assoc] using hwf
  show decodeWord (0 + d.toNat * 2 ^ 7 + b.toNat * 2 ^ 2 + s.toNat * 2 ^ 1) = _
  generalize hw : 0 + d.toNat * 2 ^ 7 + b.toNat * 2 ^ 2 + s.toNat * 2 ^ 1 = w
  have hd := d.isLt
  have hb := b.isLt
  have hs := s.isLt
  have heven : w % 2 = 0 := by omega
  have hnonzero : w % 2 ^ 16 ≠ 0 := by omega
  have hop : nf w 12 4 = 0 := by unfold nf; omega
  have hd' : bf w 7 5 = d := bf_eq (by unfold nf; omega)
  have hb' : bf w 2 5 = b := bf_eq (by unfold nf; omega)
  have hs' : bf w 1 1 = s := bf_eq (by unfold nf; omega)
  simp only [decodeWord, heven, decode16, hnonzero, hop, hd', hb', hs', if_true, if_false]

/-- The minor of the integer atomics holds their operation (R266). -/
theorem roundTrips_amoW (d a b : BitVec 5) (c o : BitVec 4) : RoundTrips (.amoW d a b c o) := by
  delta RoundTrips encodeWord
  simp only [layD25_21A20_16B15_11C10_7O4_1, ← Nat.shiftLeft_eq]
  intro hwf
  have ho : o.toNat < 9 := of_decide_eq_true hwf
  simp [decodeWord_eq, decode32, major1D, hwf]
  split
  case h_3 => rw [if_pos (by omega)]
  all_goals omega

theorem roundTrips_amoD (d a b : BitVec 5) (c o : BitVec 4) : RoundTrips (.amoD d a b c o) := by
  delta RoundTrips encodeWord
  simp only [layD25_21A20_16B15_11C10_7O4_1, ← Nat.shiftLeft_eq]
  intro hwf
  have ho : o.toNat < 9 := of_decide_eq_true hwf
  simp [decodeWord_eq, decode32, major1D, hwf]
  split
  case h_3 => rw [if_neg (by omega), if_pos (by omega)]
  all_goals omega

/-- The minor of `vcmp` is its condition (R269). -/
theorem roundTrips_vcmp (d : BitVec 3) (a b : BitVec 5) (m c : BitVec 3) : RoundTrips (.vcmp d a b m c) := by
  delta RoundTrips encodeWord
  simp only [layD23_21A20_16B15_11M9_7C3_1, ← Nat.shiftLeft_eq]
  intro hwf
  have hc : c.toNat < 6 := of_decide_eq_true (Bool.and_eq_true_iff.mp hwf).2
  simp [decodeWord_eq, decode32, major26]
  split
  case h_11 => simp [hc, hwf]
  all_goals omega

theorem roundTrips_cmp (p : BitVec 3) (a b : BitVec 5) (c : BitVec 6) : RoundTrips (.cmp p a b c) := by
  delta RoundTrips encodeWord
  simp only [layP23_21A20_16B15_11C6_1, ← Nat.shiftLeft_eq]
  intro hwf
  have hc : c.toNat < 10 := of_decide_eq_true hwf
  simp [decodeWord_eq, decode32, major0A, hc, hwf]

theorem roundTrips_major01 :
    (∀ d a b, RoundTrips (.add d a b)) ∧
    (∀ d a b, RoundTrips (.sub d a b)) ∧
    (∀ d a b, RoundTrips (.and d a b)) ∧
    (∀ d a b, RoundTrips (.or d a b)) ∧
    (∀ d a b, RoundTrips (.xor d a b)) ∧
    (∀ d a b, RoundTrips (.shl d a b)) ∧
    (∀ d a b, RoundTrips (.shr d a b)) ∧
    (∀ d a b, RoundTrips (.sra d a b)) ∧
    (∀ d a b, RoundTrips (.mul d a b)) ∧
    (∀ d a b, RoundTrips (.mulh d a b)) ∧
    (∀ d a b, RoundTrips (.mulhu d a b)) ∧
    (∀ d a b, RoundTrips (.div d a b)) ∧
    (∀ d a b, RoundTrips (.divu d a b)) ∧
    (∀ d a b, RoundTrips (.rem d a b)) ∧
    (∀ d a b, RoundTrips (.remu d a b)) ∧
    (∀ d a b, RoundTrips (.min d a b)) ∧
    (∀ d a b, RoundTrips (.max d a b)) ∧
    (∀ d a b, RoundTrips (.minu d a b)) ∧
    (∀ d a b, RoundTrips (.maxu d a b)) ∧
    (∀ d a, RoundTrips (.clz d a)) ∧
    (∀ d a, RoundTrips (.ctz d a)) ∧
    (∀ d a, RoundTrips (.pop d a)) ∧
    (∀ d a b, RoundTrips (.ext d a b)) ∧
    (∀ d a b, RoundTrips (.ins d a b)) ∧
    (∀ d a b p, RoundTrips (.sel d a b p)) := by
  delta RoundTrips encodeWord
  simp only [layD25_21A20_16B15_11, layD25_21A20_16, layD25_21A20_16B15_11P9_7, ← Nat.shiftLeft_eq]
  refine ⟨?_, ?_, ?_, ?_, ?_, ?_, ?_, ?_, ?_, ?_, ?_, ?_, ?_, ?_, ?_, ?_, ?_, ?_, ?_, ?_, ?_, ?_, ?_, ?_, ?_⟩
  all_goals simp +contextual [decodeWord_eq, decode32, major01]

theorem roundTrips_major02 : ∀ d a i, RoundTrips (.addi d a i) := by
  delta RoundTrips encodeWord
  simp only [layD25_21A20_16I15_1, ← Nat.shiftLeft_eq]
  simp +contextual [decodeWord_eq, decode32, major02]

theorem roundTrips_major03 : ∀ d a i, RoundTrips (.andi d a i) := by
  delta RoundTrips encodeWord
  simp only [layD25_21A20_16I15_1, ← Nat.shiftLeft_eq]
  simp +contextual [decodeWord_eq, decode32, major03]

theorem roundTrips_major04 : ∀ d a i, RoundTrips (.ori d a i) := by
  delta RoundTrips encodeWord
  simp only [layD25_21A20_16I15_1, ← Nat.shiftLeft_eq]
  simp +contextual [decodeWord_eq, decode32, major04]

theorem roundTrips_major05 : ∀ d a i, RoundTrips (.xori d a i) := by
  delta RoundTrips encodeWord
  simp only [layD25_21A20_16I15_1, ← Nat.shiftLeft_eq]
  simp +contextual [decodeWord_eq, decode32, major05]

theorem roundTrips_major06 :
    (∀ d a n, RoundTrips (.shli d a n)) ∧
    (∀ d a n, RoundTrips (.shri d a n)) ∧
    (∀ d a n, RoundTrips (.srai d a n)) := by
  delta RoundTrips encodeWord
  simp only [layD25_21A20_16N6_1, ← Nat.shiftLeft_eq]
  refine ⟨?_, ?_, ?_⟩
  all_goals simp +contextual [decodeWord_eq, decode32, major06]

theorem roundTrips_major07 : ∀ d i, RoundTrips (.li d i) := by
  delta RoundTrips encodeWord
  simp only [layD25_21I20_1, ← Nat.shiftLeft_eq]
  simp +contextual [decodeWord_eq, decode32, major07]

theorem roundTrips_major08 : ∀ d i, RoundTrips (.lih d i) := by
  delta RoundTrips encodeWord
  simp only [layD25_21I20_1, ← Nat.shiftLeft_eq]
  simp +contextual [decodeWord_eq, decode32, major08]

theorem roundTrips_major09 : ∀ d i, RoundTrips (.addpc d i) := by
  delta RoundTrips encodeWord
  simp only [layD25_21I20_1, ← Nat.shiftLeft_eq]
  simp +contextual [decodeWord_eq, decode32, major09]

theorem roundTrips_major0B : ∀ p a c i, RoundTrips (.cmpi p a c i) := by
  delta RoundTrips encodeWord
  simp only [layP23_21A20_16C15_12I11_1, ← Nat.shiftLeft_eq]
  simp +contextual [decodeWord_eq, decode32, major0B]

theorem roundTrips_major0C :
    (∀ d a b, RoundTrips (.pand d a b)) ∧
    (∀ d a b, RoundTrips (.por d a b)) ∧
    (∀ d a b, RoundTrips (.pxor d a b)) ∧
    (∀ d a, RoundTrips (.pnot d a)) := by
  delta RoundTrips encodeWord
  simp only [layD23_21A18_16B13_11, layD23_21A18_16, ← Nat.shiftLeft_eq]
  refine ⟨?_, ?_, ?_, ?_⟩
  all_goals simp +contextual [decodeWord_eq, decode32, major0C]

theorem roundTrips_major10 : ∀ p s o, RoundTrips (.b p s o) := by
  delta RoundTrips encodeWord
  simp only [layP25_23S22_22O21_1, ← Nat.shiftLeft_eq]
  simp +contextual [decodeWord_eq, decode32, major10]

theorem roundTrips_major11 : ∀ o, RoundTrips (.j o) := by
  delta RoundTrips encodeWord
  simp only [layO25_1, ← Nat.shiftLeft_eq]
  simp +contextual [decodeWord_eq, decode32, major11]

theorem roundTrips_major12 : ∀ o, RoundTrips (.call o) := by
  delta RoundTrips encodeWord
  simp only [layO25_1, ← Nat.shiftLeft_eq]
  simp +contextual [decodeWord_eq, decode32, major12]

theorem roundTrips_major13 :
    (∀ a, RoundTrips (.jr a)) ∧
    (∀ a, RoundTrips (.callr a)) ∧
    RoundTrips .ret ∧
    RoundTrips .nop := by
  delta RoundTrips encodeWord
  simp only [layA20_16, ← Nat.shiftLeft_eq]
  refine ⟨?_, ?_, ?_, ?_⟩
  all_goals simp +contextual [decodeWord_eq, decode32, major13]

theorem roundTrips_major14 :
    (∀ r o, RoundTrips (.loop r o)) ∧
    (∀ r o, RoundTrips (.bz r o)) ∧
    (∀ r o, RoundTrips (.bnz r o)) := by
  delta RoundTrips encodeWord
  simp only [layR25_21O18_1, ← Nat.shiftLeft_eq]
  refine ⟨?_, ?_, ?_⟩
  all_goals simp +contextual [decodeWord_eq, decode32, major14]

theorem roundTrips_major18 : ∀ d b s o, RoundTrips (.ld d b s o) := by
  delta RoundTrips encodeWord
  simp only [layD25_21B20_16S14_13O8_1, ← Nat.shiftLeft_eq]
  simp +contextual [decodeWord_eq, decode32, major18]

theorem roundTrips_major19 : ∀ d b s o, RoundTrips (.st d b s o) := by
  delta RoundTrips encodeWord
  simp only [layD25_21B20_16S14_13O8_1, ← Nat.shiftLeft_eq]
  simp +contextual [decodeWord_eq, decode32, major19]

theorem roundTrips_major1A :
    (∀ d b s c o, RoundTrips (.ldAcq d b s c o)) ∧
    (∀ d b s c o, RoundTrips (.stRel d b s c o)) := by
  delta RoundTrips encodeWord
  simp only [layD25_21B20_16S14_13C12_9O8_1, ← Nat.shiftLeft_eq]
  refine ⟨?_, ?_⟩
  all_goals simp +contextual [decodeWord_eq, decode32, major1A]

theorem roundTrips_major1B :
    (∀ d b s o, RoundTrips (.ldVol d b s o)) ∧
    (∀ d b s o, RoundTrips (.stVol d b s o)) := by
  delta RoundTrips encodeWord
  simp only [layD25_21B20_16S14_13O8_1, ← Nat.shiftLeft_eq]
  refine ⟨?_, ?_⟩
  all_goals simp +contextual [decodeWord_eq, decode32, major1B]

theorem roundTrips_major1C : ∀ b o, RoundTrips (.pref b o) := by
  delta RoundTrips encodeWord
  simp only [layB20_16O8_1, ← Nat.shiftLeft_eq]
  simp +contextual [decodeWord_eq, decode32, major1C]

theorem roundTrips_major1D :
    (∀ d a b c, RoundTrips (.amoFFp32 d a b c)) ∧
    (∀ d a b c, RoundTrips (.amoFBf16 d a b c)) := by
  delta RoundTrips encodeWord
  simp only [layD25_21A20_16B15_11C10_7, ← Nat.shiftLeft_eq]
  refine ⟨?_, ?_⟩
  all_goals simp +contextual [decodeWord_eq, decode32, major1D]

theorem roundTrips_major1E : ∀ d a b c s, RoundTrips (.cas d a b c s) := by
  delta RoundTrips encodeWord
  simp only [layD25_21A20_16B15_11C10_7S1_1, ← Nat.shiftLeft_eq]
  simp +contextual [decodeWord_eq, decode32, major1E]

theorem roundTrips_major1F :
    (∀ c, RoundTrips (.fence c)) ∧
    (∀ a b c, RoundTrips (.barInit a b c)) ∧
    (∀ a b c, RoundTrips (.barArrive a b c)) ∧
    (∀ a b c, RoundTrips (.barWait a b c)) ∧
    RoundTrips .wfe ∧
    (∀ c, RoundTrips (.sev c)) ∧
    (∀ b t, RoundTrips (.tlwait b t)) ∧
    (∀ d t, RoundTrips (.tlread d t)) ∧
    (∀ a c, RoundTrips (.scopeSet a c)) ∧
    (∀ d c, RoundTrips (.scopeGet d c)) ∧
    (∀ c, RoundTrips (.scopeRetire c)) ∧
    (∀ b, RoundTrips (.pause b)) := by
  delta RoundTrips encodeWord
  simp only [layC10_7, layA20_16B15_11C10_7, layB15_11T8_7, layD25_21T8_7, layA20_16C10_7, layD25_21C10_7, layB15_11,
    ← Nat.shiftLeft_eq]
  refine ⟨?_, ?_, ?_, ?_, ?_, ?_, ?_, ?_, ?_, ?_, ?_, ?_⟩
  all_goals simp +contextual [decodeWord_eq, decode32, major1F]

theorem roundTrips_major20 :
    (∀ d a b c, RoundTrips (.send d a b c)) ∧
    (∀ d a b c, RoundTrips (.sendT d a b c)) ∧
    RoundTrips .done ∧
    (∀ d a b, RoundTrips (.fibNew d a b)) ∧
    (∀ d a, RoundTrips (.spawn d a)) ∧
    (∀ d a b c, RoundTrips (.spawnG d a b c)) ∧
    (∀ a b c, RoundTrips (.fibDec a b c)) ∧
    (∀ a b, RoundTrips (.fref a b)) ∧
    (∀ a, RoundTrips (.fdrop a)) ∧
    (∀ a, RoundTrips (.fconfirm a)) ∧
    (∀ a b c, RoundTrips (.fput a b c)) ∧
    (∀ d a, RoundTrips (.fget d a)) ∧
    (∀ a b, RoundTrips (.fon a b)) ∧
    RoundTrips .keep := by
  delta RoundTrips encodeWord
  simp only [layD25_21A20_16B15_11C10_7, layD25_21A20_16B15_11, layD25_21A20_16, layA20_16B15_11C10_7,
    layA20_16B15_11, layA20_16, ← Nat.shiftLeft_eq]
  refine ⟨?_, ?_, ?_, ?_, ?_, ?_, ?_, ?_, ?_, ?_, ?_, ?_, ?_, ?_⟩
  all_goals simp +contextual [decodeWord_eq, decode32, major20]

theorem roundTrips_major24 :
    (∀ d a b m, RoundTrips (.vadd d a b m)) ∧
    (∀ d a b m, RoundTrips (.vsub d a b m)) ∧
    (∀ d a b m, RoundTrips (.vmul d a b m)) ∧
    (∀ d a b m, RoundTrips (.vmax d a b m)) ∧
    (∀ d a b m, RoundTrips (.vmin d a b m)) ∧
    (∀ d a b m, RoundTrips (.vand d a b m)) ∧
    (∀ d a b m, RoundTrips (.vor d a b m)) ∧
    (∀ d a b m, RoundTrips (.vxor d a b m)) ∧
    (∀ d a b m, RoundTrips (.vshl d a b m)) ∧
    (∀ d a b m, RoundTrips (.vshr d a b m)) ∧
    (∀ d a b m, RoundTrips (.vfma d a b m)) ∧
    (∀ d a b m, RoundTrips (.vsel d a b m)) ∧
    (∀ d a b m, RoundTrips (.vperm d a b m)) := by
  delta RoundTrips encodeWord
  simp only [layD25_21A20_16B15_11M9_7, ← Nat.shiftLeft_eq]
  refine ⟨?_, ?_, ?_, ?_, ?_, ?_, ?_, ?_, ?_, ?_, ?_, ?_, ?_⟩
  all_goals simp +contextual [decodeWord_eq, decode32, major24]

theorem roundTrips_major25 :
    (∀ d a m, RoundTrips (.vabs d a m)) ∧
    (∀ d a m, RoundTrips (.vneg d a m)) ∧
    (∀ d a r m, RoundTrips (.vexp2 d a r m)) ∧
    (∀ d a r m, RoundTrips (.vlog2 d a r m)) ∧
    (∀ d a r m, RoundTrips (.vrcp d a r m)) ∧
    (∀ d a r m, RoundTrips (.vrsqrt d a r m)) ∧
    (∀ d a m, RoundTrips (.vmov d a m)) := by
  delta RoundTrips encodeWord
  simp only [layD25_21A20_16M9_7, layD25_21A20_16R13_11M9_7, ← Nat.shiftLeft_eq]
  refine ⟨?_, ?_, ?_, ?_, ?_, ?_, ?_⟩
  all_goals simp +contextual [decodeWord_eq, decode32, major25]

theorem roundTrips_lane16 :
    (∀ d b s, RoundTrips (.vsub16 d b s)) ∧
    (∀ d b s, RoundTrips (.vmul16 d b s)) ∧
    (∀ d b s, RoundTrips (.vmax16 d b s)) ∧
    (∀ d b s, RoundTrips (.vmin16 d b s)) ∧
    (∀ d b s, RoundTrips (.vabs16 d b s)) ∧
    (∀ d b s, RoundTrips (.vneg16 d b s)) ∧
    (∀ d b s, RoundTrips (.vexp216 d b s)) ∧
    (∀ d b s, RoundTrips (.vrcp16 d b s)) ∧
    (∀ d b s, RoundTrips (.vrsqrt16 d b s)) ∧
    (∀ d b s, RoundTrips (.vand16 d b s)) ∧
    (∀ d b s, RoundTrips (.vor16 d b s)) ∧
    (∀ d b s, RoundTrips (.vxor16 d b s)) ∧
    (∀ d b s, RoundTrips (.vshl16 d b s)) ∧
    (∀ d b s, RoundTrips (.vshr16 d b s)) ∧
    (∀ d b s, RoundTrips (.vmov16 d b s)) := by
  delta RoundTrips encodeWord
  simp only [layD11_7B6_2S1_1, ← Nat.shiftLeft_eq]
  refine ⟨?_, ?_, ?_, ?_, ?_, ?_, ?_, ?_, ?_, ?_, ?_, ?_, ?_, ?_, ?_⟩
  all_goals
    intros
    rw [decodeWord_eq, if_pos (by simp), decode16, if_neg (halfword_ne_zero (by simp))]
    simp

theorem roundTrips_major26 :
    (∀ d a m, RoundTrips (.vredAdd d a m)) ∧
    (∀ d a m, RoundTrips (.vredMax d a m)) ∧
    (∀ d a m, RoundTrips (.vredMin d a m)) ∧
    (∀ d a f, RoundTrips (.vbcast d a f)) ∧
    (∀ d f, RoundTrips (.viota d f)) ∧
    (∀ d a i j, RoundTrips (.vlane d a i j)) ∧
    (∀ d a i j, RoundTrips (.vins d a i j)) ∧
    (∀ d a b m, RoundTrips (.vscale d a b m)) ∧
    (∀ d a b m, RoundTrips (.vrope d a b m)) ∧
    (∀ d a b, RoundTrips (.vrng d a b)) := by
  delta RoundTrips encodeWord
  simp only [layD25_21A20_16M9_7, layD25_21A20_16F10_7, layD25_21F10_7, layD25_21A20_16I15_11J10_7,
    layD25_21A20_16B15_11M9_7, layD25_21A20_16B15_11, ← Nat.shiftLeft_eq]
  refine ⟨?_, ?_, ?_, ?_, ?_, ?_, ?_, ?_, ?_, ?_⟩
  all_goals simp +contextual [decodeWord_eq, decode32, major26]

theorem roundTrips_major27 : ∀ d a t s m o r, RoundTrips (.vcvt d a t s m o r) := by
  delta RoundTrips encodeWord
  simp only [layD25_21A20_16T15_12S11_10M9_7O6_6R5_1, ← Nat.shiftLeft_eq]
  simp +contextual [decodeWord_eq, decode32, major27]

theorem roundTrips_major28 :
    (∀ d a f m, RoundTrips (.vld d a f m)) ∧
    (∀ d a m, RoundTrips (.vst d a m)) ∧
    (∀ d a b f m, RoundTrips (.vlds d a b f m)) ∧
    (∀ d a b f m, RoundTrips (.vgath d a b f m)) ∧
    (∀ d a b m, RoundTrips (.vscat d a b m)) ∧
    (∀ d a b f m, RoundTrips (.vldt d a b f m)) := by
  delta RoundTrips encodeWord
  simp only [layD25_21A20_16F10_7M3_1, layD25_21A20_16M3_1, layD25_21A20_16B15_11F10_7M3_1, layD25_21A20_16B15_11M3_1,
    ← Nat.shiftLeft_eq]
  refine ⟨?_, ?_, ?_, ?_, ?_, ?_⟩
  all_goals simp +contextual [decodeWord_eq, decode32, major28]

theorem roundTrips_major2C :
    (∀ d a f, RoundTrips (.tld d a f)) ∧
    (∀ d a f, RoundTrips (.tldT d a f)) ∧
    (∀ d a, RoundTrips (.tst d a)) ∧
    (∀ d a b, RoundTrips (.mma d a b)) ∧
    (∀ d a b k, RoundTrips (.mmaS d a b k)) ∧
    (∀ d, RoundTrips (.azero d)) ∧
    (∀ d a, RoundTrips (.ald d a)) ∧
    (∀ d a, RoundTrips (.ast d a)) ∧
    (∀ d a b, RoundTrips (.arow d a b)) := by
  delta RoundTrips encodeWord
  simp only [layD24_21A20_16F10_7, layD24_21A20_16, layD22_21A19_16B14_11, layD22_21A19_16B14_11K10_7, layD22_21,
    layD22_21A20_16, layD25_21A17_16B15_11, ← Nat.shiftLeft_eq]
  refine ⟨?_, ?_, ?_, ?_, ?_, ?_, ?_, ?_, ?_⟩
  all_goals simp +contextual [decodeWord_eq, decode32, major2C]

theorem roundTrips_major2E :
    (∀ a, RoundTrips (.ctxBind a)) ∧
    (∀ a, RoundTrips (.fpush a)) ∧
    (∀ a b, RoundTrips (.farg a b)) ∧
    (∀ a, RoundTrips (.fpro a)) ∧
    (∀ a b, RoundTrips (.fpop a b)) ∧
    (∀ d a, RoundTrips (.ffork d a)) ∧
    (∀ d a s, RoundTrips (.finfo d a s)) ∧
    (∀ d a b c, RoundTrips (.kvapp d a b c)) ∧
    (∀ a b c, RoundTrips (.attn a b c)) ∧
    (∀ d a, RoundTrips (.attnFin d a)) := by
  delta RoundTrips encodeWord
  simp only [layA20_16, layA20_16B15_11, layD25_21A20_16, layD25_21A20_16S10_7, layD25_21A20_16B15_11C10_7,
    layA20_16B15_11C10_7, ← Nat.shiftLeft_eq]
  refine ⟨?_, ?_, ?_, ?_, ?_, ?_, ?_, ?_, ?_, ?_⟩
  all_goals simp +contextual [decodeWord_eq, decode32, major2E]

theorem roundTrips_major30 :
    (∀ d a, RoundTrips (.rng d a)) ∧
    (∀ d a, RoundTrips (.topk d a)) ∧
    (∀ d a, RoundTrips (.gmask d a)) ∧
    (∀ d a, RoundTrips (.draw d a)) ∧
    (∀ d a, RoundTrips (.drawv d a)) ∧
    (∀ d a, RoundTrips (.accept d a)) ∧
    (∀ d a c, RoundTrips (.route d a c)) := by
  delta RoundTrips encodeWord
  simp only [layD25_21A20_16, layD25_21A20_16C10_7, ← Nat.shiftLeft_eq]
  refine ⟨?_, ?_, ?_, ?_, ?_, ?_, ?_⟩
  all_goals simp +contextual [decodeWord_eq, decode32, major30]

theorem roundTrips_major32 :
    (∀ d a b, RoundTrips (.cpy d a b)) ∧
    (∀ d a b, RoundTrips (.cpyT d a b)) ∧
    (∀ d a b c, RoundTrips (.cpyMc d a b c)) ∧
    (∀ d a, RoundTrips (.gath d a)) ∧
    (∀ d a, RoundTrips (.scat d a)) ∧
    (∀ a c, RoundTrips (.coll a c)) ∧
    (∀ a c, RoundTrips (.ring a c)) ∧
    (∀ d h, RoundTrips (.wptr d h)) ∧
    (∀ d a b k, RoundTrips (.promo d a b k)) ∧
    (∀ a b, RoundTrips (.evict a b)) ∧
    (∀ a b, RoundTrips (.pin a b)) ∧
    (∀ a b, RoundTrips (.unpin a b)) := by
  delta RoundTrips encodeWord
  simp only [layD25_21A20_16B15_11, layD25_21A20_16B15_11C10_7, layD25_21A20_16, layA20_16C10_7, layD25_21H8_7,
    layD25_21A20_16B15_11K8_7, layA20_16B15_11, ← Nat.shiftLeft_eq]
  refine ⟨?_, ?_, ?_, ?_, ?_, ?_, ?_, ?_, ?_, ?_, ?_, ?_⟩
  all_goals simp +contextual [decodeWord_eq, decode32, major32]

theorem roundTrips_major34 :
    (∀ d a, RoundTrips (.rprobe d a)) ∧
    (∀ a, RoundTrips (.rsplit a)) ∧
    (∀ a, RoundTrips (.rmerge a)) ∧
    (∀ a c, RoundTrips (.rinv a c)) ∧
    (∀ a, RoundTrips (.rset a)) ∧
    (∀ a b c, RoundTrips (.rmove a b c)) ∧
    (∀ a b, RoundTrips (.rcompact a b)) := by
  delta RoundTrips encodeWord
  simp only [layD25_21A20_16, layA20_16, layA20_16C10_7, layA20_16B15_11C10_7, layA20_16B15_11, ← Nat.shiftLeft_eq]
  refine ⟨?_, ?_, ?_, ?_, ?_, ?_, ?_⟩
  all_goals simp +contextual [decodeWord_eq, decode32, major34]

theorem roundTrips_major38 :
    RoundTrips .trap ∧
    (∀ a b, RoundTrips (.eret a b)) ∧
    (∀ d n m, RoundTrips (.sysr d n m)) ∧
    (∀ d n m, RoundTrips (.sysw d n m)) ∧
    RoundTrips .halt ∧
    (∀ a, RoundTrips (.carve a)) ∧
    RoundTrips .bkpt ∧
    (∀ a b, RoundTrips (.wpset a b)) ∧
    (∀ a, RoundTrips (.sstep a)) := by
  delta RoundTrips encodeWord
  simp only [layA20_16B15_11, layD25_21N20_16M15_11, layA20_16, ← Nat.shiftLeft_eq]
  refine ⟨?_, ?_, ?_, ?_, ?_, ?_, ?_, ?_, ?_⟩
  all_goals simp +contextual [decodeWord_eq, decode32, major38]

theorem roundTrips {i : Instr} (hi : isEvent i = false) : RoundTrips i := by
  cases i
  all_goals delta isEvent Instr.size at hi
  all_goals simp at hi
  all_goals
    simp only [roundTrips_vadd16, roundTrips_amoW, roundTrips_amoD, roundTrips_vcmp, roundTrips_cmp,
      roundTrips_major01, roundTrips_major02, roundTrips_major03, roundTrips_major04, roundTrips_major05,
      roundTrips_major06, roundTrips_major07, roundTrips_major08, roundTrips_major09, roundTrips_major0B,
      roundTrips_major0C, roundTrips_major10, roundTrips_major11, roundTrips_major12, roundTrips_major13,
      roundTrips_major14, roundTrips_major18, roundTrips_major19, roundTrips_major1A, roundTrips_major1B,
      roundTrips_major1C, roundTrips_major1D, roundTrips_major1E, roundTrips_major1F, roundTrips_major20,
      roundTrips_major24, roundTrips_major25, roundTrips_lane16, roundTrips_major26, roundTrips_major27,
      roundTrips_major28, roundTrips_major2C, roundTrips_major2E, roundTrips_major30, roundTrips_major32,
      roundTrips_major34, roundTrips_major38]

/-! From words to bytes (R20, R253). -/

theorem size_cases (i : Instr) : i.size = 0 ∨ i.size = 2 ∨ i.size = 4 := by
  cases i
  all_goals delta Instr.size
  all_goals simp

theorem encodeWord_lt (i : Instr) : encodeWord i < 2 ^ (8 * i.size) := by
  cases i
  all_goals delta Instr.size encodeWord
  all_goals simp only [layD25_21A20_16B15_11, layD25_21A20_16, layD25_21A20_16B15_11P9_7, layD25_21A20_16I15_1,
    layD25_21A20_16N6_1, layD25_21I20_1, layP23_21A20_16B15_11C6_1, layP23_21A20_16C15_12I11_1, layD23_21A18_16B13_11,
    layD23_21A18_16, layP25_23S22_22O21_1, layO25_1, layA20_16, layR25_21O18_1, layD25_21B20_16S14_13O8_1,
    layD25_21B20_16S14_13C12_9O8_1, layB20_16O8_1, layD25_21A20_16B15_11C10_7O4_1, layD25_21A20_16B15_11C10_7,
    layD25_21A20_16B15_11C10_7S1_1, layC10_7, layA20_16B15_11C10_7, layB15_11T8_7, layD25_21T8_7, layA20_16C10_7,
    layD25_21C10_7, layB15_11, layA20_16B15_11, layD25_21A20_16B15_11M9_7, layD25_21A20_16M9_7,
    layD25_21A20_16R13_11M9_7, layD11_7B6_2S1_1, layD23_21A20_16B15_11M9_7C3_1, layD25_21A20_16F10_7, layD25_21F10_7,
    layD25_21A20_16I15_11J10_7, layD25_21A20_16T15_12S11_10M9_7O6_6R5_1, layD25_21A20_16F10_7M3_1,
    layD25_21A20_16M3_1, layD25_21A20_16B15_11F10_7M3_1, layD25_21A20_16B15_11M3_1, layD24_21A20_16F10_7,
    layD24_21A20_16, layD22_21A19_16B14_11, layD22_21A19_16B14_11K10_7, layD22_21, layD22_21A20_16,
    layD25_21A17_16B15_11, layD25_21A20_16S10_7, layD25_21A20_16C10_7, layD25_21H8_7, layD25_21A20_16B15_11K8_7,
    layD25_21N20_16M15_11]
  all_goals omega

/-- The lowest bit of a word gives its length (R253). -/
theorem encodeWord_mod_two (i : Instr) : encodeWord i % 2 = i.size / 4 := by
  cases i
  all_goals delta Instr.size encodeWord
  all_goals simp only [layD25_21A20_16B15_11, layD25_21A20_16, layD25_21A20_16B15_11P9_7, layD25_21A20_16I15_1,
    layD25_21A20_16N6_1, layD25_21I20_1, layP23_21A20_16B15_11C6_1, layP23_21A20_16C15_12I11_1, layD23_21A18_16B13_11,
    layD23_21A18_16, layP25_23S22_22O21_1, layO25_1, layA20_16, layR25_21O18_1, layD25_21B20_16S14_13O8_1,
    layD25_21B20_16S14_13C12_9O8_1, layB20_16O8_1, layD25_21A20_16B15_11C10_7O4_1, layD25_21A20_16B15_11C10_7,
    layD25_21A20_16B15_11C10_7S1_1, layC10_7, layA20_16B15_11C10_7, layB15_11T8_7, layD25_21T8_7, layA20_16C10_7,
    layD25_21C10_7, layB15_11, layA20_16B15_11, layD25_21A20_16B15_11M9_7, layD25_21A20_16M9_7,
    layD25_21A20_16R13_11M9_7, layD11_7B6_2S1_1, layD23_21A20_16B15_11M9_7C3_1, layD25_21A20_16F10_7, layD25_21F10_7,
    layD25_21A20_16I15_11J10_7, layD25_21A20_16T15_12S11_10M9_7O6_6R5_1, layD25_21A20_16F10_7M3_1,
    layD25_21A20_16M3_1, layD25_21A20_16B15_11F10_7M3_1, layD25_21A20_16B15_11M3_1, layD24_21A20_16F10_7,
    layD24_21A20_16, layD22_21A19_16B14_11, layD22_21A19_16B14_11K10_7, layD22_21, layD22_21A20_16,
    layD25_21A17_16B15_11, layD25_21A20_16S10_7, layD25_21A20_16C10_7, layD25_21H8_7, layD25_21A20_16B15_11K8_7,
    layD25_21N20_16M15_11]
  all_goals omega

theorem leNat_leBytes (n w : Nat) : leNat (leBytes n w) = w % 2 ^ (8 * n) := by
  induction n generalizing w with
  | zero => rw [Nat.mul_zero, Nat.pow_zero, Nat.mod_one]; rfl
  | succ n ih =>
    rw [leBytes, leNat, ih, BitVec.toNat_ofNat, Nat.mul_succ, Nat.add_comm (8 * n), Nat.pow_add, Nat.mod_mul]

theorem decode_leBytes_two {w : Nat} {i : Instr} (rest : List Byte) (hlt : w < 2 ^ 16) (heven : w % 2 = 0)
    (h : decodeWord w = .ok i) : decode (leBytes 2 w ++ rest) = .ok (i, rest) := by
  have hfirst : (BitVec.ofNat 8 w).toNat % 2 = 0 := by rw [BitVec.toNat_ofNat]; omega
  have hword : leNat (leBytes 2 w) = w := (leNat_leBytes 2 w).trans (Nat.mod_eq_of_lt hlt)
  rw [decodeWord, if_pos heven] at h
  simp only [leBytes] at hword
  simp only [leBytes, List.cons_append, List.nil_append, decode, hfirst, hword, h, if_true]

theorem decode_leBytes_four {w : Nat} {i : Instr} (rest : List Byte) (hlt : w < 2 ^ 32) (hodd : w % 2 = 1)
    (h : decodeWord w = .ok i) : decode (leBytes 4 w ++ rest) = .ok (i, rest) := by
  have hfirst : (BitVec.ofNat 8 w).toNat % 2 ≠ 0 := by rw [BitVec.toNat_ofNat]; omega
  have hword : leNat (leBytes 4 w) = w := (leNat_leBytes 4 w).trans (Nat.mod_eq_of_lt hlt)
  rw [decodeWord, if_neg (by omega)] at h
  simp only [leBytes] at hword
  simp only [leBytes, List.cons_append, List.nil_append, decode, hfirst, hword, h, if_false]

/-- Settles O2: the word of an instruction decodes to it by the fields of its row, and the bytes of the word are read
back by the length that its lowest bit gives. -/
theorem decodeEncode : Obligations.DecodeEncode := by
  unfold Obligations.DecodeEncode
  intro i rest hwf hi
  have hword := roundTrips hi hwf
  rw [encode]
  have hlt := encodeWord_lt i
  have hparity := encodeWord_mod_two i
  obtain hsize | hsize | hsize := size_cases i
  · exact absurd hsize (of_decide_eq_false hi)
  · rw [hsize] at hlt hparity ⊢; exact decode_leBytes_two rest hlt hparity hword
  · rw [hsize] at hlt hparity ⊢; exact decode_leBytes_four rest hlt hparity hword

end Sys2Proof
end

section
/-! SUPPORT. Each word has one meaning (R256 to R260): an accepted word is the word of its instruction, and only the
majors that the map of R260 does not assign are refused as such. -/

namespace Sys2Proof

open Machine

/-- What the map of R260 promises of the result of an assigned major: the major is not refused, and an accepted word
consists of the bits of its instruction. -/
structure Assigned (w : Nat) (r : Except Bad Instr) : Prop where
  ne_reservedMajor : r ≠ .error .reservedMajor
  encodes : ∀ i, r = .ok i → i.wf = true ∧ isEvent i = false ∧ encodeWord i = low w (8 * i.size)

theorem assigned_error {w : Nat} {e : Bad} (he : e ≠ .reservedMajor) : Assigned w (.error e) where
  ne_reservedMajor h := he (Except.error.inj h)
  encodes _ h := nomatch h

theorem assigned_accept {w : Nat} {b : Bool} {i : Instr} (hi : isEvent i = false)
    (hsize : i.size = 4) (h : b = true → (encodeWord i : Int) = low w 32) : Assigned w (accept b i) := by
  unfold accept
  split
  next hb =>
    obtain ⟨hb, hwf⟩ := Bool.and_eq_true_iff.mp hb
    refine ⟨(nomatch ·), fun j hj => ?_⟩
    obtain rfl := Except.ok.inj hj
    exact ⟨hwf, hi, by rw [hsize]; exact Int.natCast_inj.mp (h hb)⟩
  next => exact assigned_error (by decide)

/-- The lane form takes every operand, whatever its operation, but the halfword 0. -/
theorem assigned_lane {w : Nat} {i : Instr} (hwf : i.wf = true) (hi : isEvent i = false)
    (hsize : i.size = 2) (h : (encodeWord i : Int) = low w 16) : Assigned w (.ok i) where
  ne_reservedMajor h := nomatch h
  encodes j hj := by
    obtain rfl := Except.ok.inj hj
    exact ⟨hwf, hi, by rw [hsize]; exact Int.natCast_inj.mp h⟩

/-! The rows of each major. The fields of a row and its zero bits are all of the word, so that the equations of their
values (`nf_eq_iff`, `toNat_bf_mul`) chain to the whole word. -/

section

variable {w : Nat} (hodd : low w 1 = 1)
include hodd

theorem assigned_major01 (hmajor : nf w 26 6 = 0x01) : Assigned w (major01 w) := by
  unfold major01
  split
  case h_26 => exact assigned_error (by decide)
  all_goals
    rename_i hminor
    refine assigned_accept rfl rfl fun hzero => ?_
    delta encodeWord
    simp only [layD25_21A20_16B15_11, layD25_21A20_16, layD25_21A20_16B15_11P9_7, Int.natCast_add, Int.natCast_mul,
      Int.natCast_pow, Int.cast_ofNat_Int, toNat_bf_mul]
    simp only [Bool.and_eq_true, beq_iff_eq, nf_eq_iff, Nat.reduceAdd, Nat.reducePow,
      Nat.reduceMul] at hminor hzero hmajor ⊢
    omega

theorem assigned_major02 (hmajor : nf w 26 6 = 0x02) : Assigned w (major02 w) := by
  unfold major02
  refine assigned_accept rfl rfl fun _ => ?_
  delta encodeWord
  simp only [layD25_21A20_16I15_1, Int.natCast_add, Int.natCast_mul, Int.natCast_pow, Int.cast_ofNat_Int, toNat_bf_mul]
  simp only [Bool.and_eq_true, beq_iff_eq, nf_eq_iff, Nat.reduceAdd, Nat.reducePow, Nat.reduceMul] at hmajor ⊢
  omega

theorem assigned_major03 (hmajor : nf w 26 6 = 0x03) : Assigned w (major03 w) := by
  unfold major03
  refine assigned_accept rfl rfl fun _ => ?_
  delta encodeWord
  simp only [layD25_21A20_16I15_1, Int.natCast_add, Int.natCast_mul, Int.natCast_pow, Int.cast_ofNat_Int, toNat_bf_mul]
  simp only [Bool.and_eq_true, beq_iff_eq, nf_eq_iff, Nat.reduceAdd, Nat.reducePow, Nat.reduceMul] at hmajor ⊢
  omega

theorem assigned_major04 (hmajor : nf w 26 6 = 0x04) : Assigned w (major04 w) := by
  unfold major04
  refine assigned_accept rfl rfl fun _ => ?_
  delta encodeWord
  simp only [layD25_21A20_16I15_1, Int.natCast_add, Int.natCast_mul, Int.natCast_pow, Int.cast_ofNat_Int, toNat_bf_mul]
  simp only [Bool.and_eq_true, beq_iff_eq, nf_eq_iff, Nat.reduceAdd, Nat.reducePow, Nat.reduceMul] at hmajor ⊢
  omega

theorem assigned_major05 (hmajor : nf w 26 6 = 0x05) : Assigned w (major05 w) := by
  unfold major05
  refine assigned_accept rfl rfl fun _ => ?_
  delta encodeWord
  simp only [layD25_21A20_16I15_1, Int.natCast_add, Int.natCast_mul, Int.natCast_pow, Int.cast_ofNat_Int, toNat_bf_mul]
  simp only [Bool.and_eq_true, beq_iff_eq, nf_eq_iff, Nat.reduceAdd, Nat.reducePow, Nat.reduceMul] at hmajor ⊢
  omega

theorem assigned_major06 (hmajor : nf w 26 6 = 0x06) : Assigned w (major06 w) := by
  unfold major06
  split
  case h_4 => exact assigned_error (by decide)
  all_goals
    rename_i hminor
    refine assigned_accept rfl rfl fun hzero => ?_
    delta encodeWord
    simp only [layD25_21A20_16N6_1, Int.natCast_add, Int.natCast_mul, Int.natCast_pow, Int.cast_ofNat_Int, toNat_bf_mul]
    simp only [Bool.and_eq_true, beq_iff_eq, nf_eq_iff, Nat.reduceAdd, Nat.reducePow,
      Nat.reduceMul] at hminor hzero hmajor ⊢
    omega

theorem assigned_major07 (hmajor : nf w 26 6 = 0x07) : Assigned w (major07 w) := by
  unfold major07
  refine assigned_accept rfl rfl fun _ => ?_
  delta encodeWord
  simp only [layD25_21I20_1, Int.natCast_add, Int.natCast_mul, Int.natCast_pow, Int.cast_ofNat_Int, toNat_bf_mul]
  simp only [Bool.and_eq_true, beq_iff_eq, nf_eq_iff, Nat.reduceAdd, Nat.reducePow, Nat.reduceMul] at hmajor ⊢
  omega

theorem assigned_major08 (hmajor : nf w 26 6 = 0x08) : Assigned w (major08 w) := by
  unfold major08
  refine assigned_accept rfl rfl fun _ => ?_
  delta encodeWord
  simp only [layD25_21I20_1, Int.natCast_add, Int.natCast_mul, Int.natCast_pow, Int.cast_ofNat_Int, toNat_bf_mul]
  simp only [Bool.and_eq_true, beq_iff_eq, nf_eq_iff, Nat.reduceAdd, Nat.reducePow, Nat.reduceMul] at hmajor ⊢
  omega

theorem assigned_major09 (hmajor : nf w 26 6 = 0x09) : Assigned w (major09 w) := by
  unfold major09
  refine assigned_accept rfl rfl fun _ => ?_
  delta encodeWord
  simp only [layD25_21I20_1, Int.natCast_add, Int.natCast_mul, Int.natCast_pow, Int.cast_ofNat_Int, toNat_bf_mul]
  simp only [Bool.and_eq_true, beq_iff_eq, nf_eq_iff, Nat.reduceAdd, Nat.reducePow, Nat.reduceMul] at hmajor ⊢
  omega

theorem assigned_major0A (hmajor : nf w 26 6 = 0x0A) : Assigned w (major0A w) := by
  unfold major0A
  split
  case isFalse => exact assigned_error (by decide)
  all_goals
    rename_i hminor
    refine assigned_accept rfl rfl fun hzero => ?_
    delta encodeWord
    simp only [layP23_21A20_16B15_11C6_1, Int.natCast_add, Int.natCast_mul, Int.natCast_pow, Int.cast_ofNat_Int,
      toNat_bf_mul]
    simp only [Bool.and_eq_true, beq_iff_eq, nf_eq_iff, Nat.reduceAdd, Nat.reducePow,
      Nat.reduceMul] at hminor hzero hmajor ⊢
    omega

theorem assigned_major0B (hmajor : nf w 26 6 = 0x0B) : Assigned w (major0B w) := by
  unfold major0B
  refine assigned_accept rfl rfl fun hzero => ?_
  delta encodeWord
  simp only [layP23_21A20_16C15_12I11_1, Int.natCast_add, Int.natCast_mul, Int.natCast_pow, Int.cast_ofNat_Int,
    toNat_bf_mul]
  simp only [Bool.and_eq_true, beq_iff_eq, nf_eq_iff, Nat.reduceAdd, Nat.reducePow, Nat.reduceMul] at hzero hmajor ⊢
  omega

theorem assigned_major0C (hmajor : nf w 26 6 = 0x0C) : Assigned w (major0C w) := by
  unfold major0C
  split
  case h_5 => exact assigned_error (by decide)
  all_goals
    rename_i hminor
    refine assigned_accept rfl rfl fun hzero => ?_
    delta encodeWord
    simp only [layD23_21A18_16B13_11, layD23_21A18_16, Int.natCast_add, Int.natCast_mul, Int.natCast_pow,
      Int.cast_ofNat_Int,
      toNat_bf_mul]
    simp only [Bool.and_eq_true, beq_iff_eq, nf_eq_iff, Nat.reduceAdd, Nat.reducePow,
      Nat.reduceMul] at hminor hzero hmajor ⊢
    omega

theorem assigned_major10 (hmajor : nf w 26 6 = 0x10) : Assigned w (major10 w) := by
  unfold major10
  refine assigned_accept rfl rfl fun _ => ?_
  delta encodeWord
  simp only [layP25_23S22_22O21_1, Int.natCast_add, Int.natCast_mul, Int.natCast_pow, Int.cast_ofNat_Int, toNat_bf_mul]
  simp only [Bool.and_eq_true, beq_iff_eq, nf_eq_iff, Nat.reduceAdd, Nat.reducePow, Nat.reduceMul] at hmajor ⊢
  omega

theorem assigned_major11 (hmajor : nf w 26 6 = 0x11) : Assigned w (major11 w) := by
  unfold major11
  refine assigned_accept rfl rfl fun _ => ?_
  delta encodeWord
  simp only [layO25_1, Int.natCast_add, Int.natCast_mul, Int.natCast_pow, Int.cast_ofNat_Int, toNat_bf_mul]
  simp only [Bool.and_eq_true, beq_iff_eq, nf_eq_iff, Nat.reduceAdd, Nat.reducePow, Nat.reduceMul] at hmajor ⊢
  omega

theorem assigned_major12 (hmajor : nf w 26 6 = 0x12) : Assigned w (major12 w) := by
  unfold major12
  refine assigned_accept rfl rfl fun _ => ?_
  delta encodeWord
  simp only [layO25_1, Int.natCast_add, Int.natCast_mul, Int.natCast_pow, Int.cast_ofNat_Int, toNat_bf_mul]
  simp only [Bool.and_eq_true, beq_iff_eq, nf_eq_iff, Nat.reduceAdd, Nat.reducePow, Nat.reduceMul] at hmajor ⊢
  omega

theorem assigned_major13 (hmajor : nf w 26 6 = 0x13) : Assigned w (major13 w) := by
  unfold major13
  split
  case h_5 => exact assigned_error (by decide)
  all_goals
    rename_i hminor
    refine assigned_accept rfl rfl fun hzero => ?_
    delta encodeWord
    simp only [layA20_16, Int.natCast_add, Int.natCast_mul, Int.natCast_pow, Int.cast_ofNat_Int, toNat_bf_mul]
    simp only [Bool.and_eq_true, beq_iff_eq, nf_eq_iff, Nat.reduceAdd, Nat.reducePow,
      Nat.reduceMul] at hminor hzero hmajor ⊢
    omega

theorem assigned_major14 (hmajor : nf w 26 6 = 0x14) : Assigned w (major14 w) := by
  unfold major14
  split
  case h_4 => exact assigned_error (by decide)
  all_goals
    rename_i hminor
    refine assigned_accept rfl rfl fun hzero => ?_
    delta encodeWord
    simp only [layR25_21O18_1, Int.natCast_add, Int.natCast_mul, Int.natCast_pow, Int.cast_ofNat_Int, toNat_bf_mul]
    simp only [Bool.and_eq_true, beq_iff_eq, nf_eq_iff, Nat.reduceAdd, Nat.reducePow,
      Nat.reduceMul] at hminor hzero hmajor ⊢
    omega

theorem assigned_major18 (hmajor : nf w 26 6 = 0x18) : Assigned w (major18 w) := by
  unfold major18
  refine assigned_accept rfl rfl fun hzero => ?_
  delta encodeWord
  simp only [layD25_21B20_16S14_13O8_1, Int.natCast_add, Int.natCast_mul, Int.natCast_pow, Int.cast_ofNat_Int,
    toNat_bf_mul]
  simp only [Bool.and_eq_true, beq_iff_eq, nf_eq_iff, Nat.reduceAdd, Nat.reducePow, Nat.reduceMul] at hzero hmajor ⊢
  omega

theorem assigned_major19 (hmajor : nf w 26 6 = 0x19) : Assigned w (major19 w) := by
  unfold major19
  refine assigned_accept rfl rfl fun hzero => ?_
  delta encodeWord
  simp only [layD25_21B20_16S14_13O8_1, Int.natCast_add, Int.natCast_mul, Int.natCast_pow, Int.cast_ofNat_Int,
    toNat_bf_mul]
  simp only [Bool.and_eq_true, beq_iff_eq, nf_eq_iff, Nat.reduceAdd, Nat.reducePow, Nat.reduceMul] at hzero hmajor ⊢
  omega

theorem assigned_major1A (hmajor : nf w 26 6 = 0x1A) : Assigned w (major1A w) := by
  unfold major1A
  split
  case isTrue hclear =>
    refine assigned_accept rfl rfl fun _ => ?_
    delta encodeWord
    simp only [layD25_21B20_16S14_13C12_9O8_1, Int.natCast_add, Int.natCast_mul, Int.natCast_pow, Int.cast_ofNat_Int,
      toNat_bf_mul]
    simp only [Bool.and_eq_true, beq_iff_eq, nf_eq_iff, Nat.reduceAdd, Nat.reducePow,
      Nat.reduceMul] at hclear hmajor ⊢
    omega
  case isFalse hset =>
    have hset := (nf_one_eq w 15).resolve_left hset
    refine assigned_accept rfl rfl fun _ => ?_
    delta encodeWord
    simp only [layD25_21B20_16S14_13C12_9O8_1, Int.natCast_add, Int.natCast_mul, Int.natCast_pow, Int.cast_ofNat_Int,
      toNat_bf_mul]
    simp only [Bool.and_eq_true, beq_iff_eq, nf_eq_iff, Nat.reduceAdd, Nat.reducePow, Nat.reduceMul] at hset hmajor ⊢
    omega

theorem assigned_major1B (hmajor : nf w 26 6 = 0x1B) : Assigned w (major1B w) := by
  unfold major1B
  split
  case isTrue hclear =>
    refine assigned_accept rfl rfl fun hzero => ?_
    delta encodeWord
    simp only [layD25_21B20_16S14_13O8_1, Int.natCast_add, Int.natCast_mul, Int.natCast_pow, Int.cast_ofNat_Int,
      toNat_bf_mul]
    simp only [Bool.and_eq_true, beq_iff_eq, nf_eq_iff, Nat.reduceAdd, Nat.reducePow,
      Nat.reduceMul] at hclear hzero hmajor ⊢
    omega
  case isFalse hset =>
    have hset := (nf_one_eq w 15).resolve_left hset
    refine assigned_accept rfl rfl fun hzero => ?_
    delta encodeWord
    simp only [layD25_21B20_16S14_13O8_1, Int.natCast_add, Int.natCast_mul, Int.natCast_pow, Int.cast_ofNat_Int,
      toNat_bf_mul]
    simp only [Bool.and_eq_true, beq_iff_eq, nf_eq_iff, Nat.reduceAdd, Nat.reducePow,
      Nat.reduceMul] at hset hzero hmajor ⊢
    omega

theorem assigned_major1C (hmajor : nf w 26 6 = 0x1C) : Assigned w (major1C w) := by
  unfold major1C
  refine assigned_accept rfl rfl fun hzero => ?_
  delta encodeWord
  simp only [layB20_16O8_1, Int.natCast_add, Int.natCast_mul, Int.natCast_pow, Int.cast_ofNat_Int, toNat_bf_mul]
  simp only [Bool.and_eq_true, beq_iff_eq, nf_eq_iff, Nat.reduceAdd, Nat.reducePow, Nat.reduceMul] at hzero hmajor ⊢
  omega

theorem assigned_major1D (hmajor : nf w 26 6 = 0x1D) : Assigned w (major1D w) := by
  have hop : nf w 1 6 = nf w 1 4 + 16 * nf w 5 2 := nf_add w 1 4 2
  have hlow : nf w 1 4 < 16 := Nat.mod_lt _ (by decide)
  unfold major1D
  split
  case h_3 =>
    split
    case isTrue hrange =>
      have hhigh : nf w 5 2 = 2 := by simp only [Bool.and_eq_true, decide_eq_true_eq] at hrange; omega
      refine assigned_accept rfl rfl fun _ => ?_
      delta encodeWord
      simp only [layD25_21A20_16B15_11C10_7O4_1, Int.natCast_add, Int.natCast_mul, Int.natCast_pow, Int.cast_ofNat_Int,
        toNat_bf_mul]
      simp only [Bool.and_eq_true, beq_iff_eq, nf_eq_iff, Nat.reduceAdd, Nat.reducePow,
        Nat.reduceMul] at hhigh hmajor ⊢
      omega
    split
    case isTrue hrange =>
      have hhigh : nf w 5 2 = 3 := by simp only [Bool.and_eq_true, decide_eq_true_eq] at hrange; omega
      refine assigned_accept rfl rfl fun _ => ?_
      delta encodeWord
      simp only [layD25_21A20_16B15_11C10_7O4_1, Int.natCast_add, Int.natCast_mul, Int.natCast_pow, Int.cast_ofNat_Int,
        toNat_bf_mul]
      simp only [Bool.and_eq_true, beq_iff_eq, nf_eq_iff, Nat.reduceAdd, Nat.reducePow,
        Nat.reduceMul] at hhigh hmajor ⊢
      omega
    exact assigned_error (by decide)
  all_goals
    rename_i hminor
    refine assigned_accept rfl rfl fun _ => ?_
    delta encodeWord
    simp only [layD25_21A20_16B15_11C10_7, Int.natCast_add, Int.natCast_mul, Int.natCast_pow, Int.cast_ofNat_Int,
      toNat_bf_mul]
    simp only [Bool.and_eq_true, beq_iff_eq, nf_eq_iff, Nat.reduceAdd, Nat.reducePow,
      Nat.reduceMul] at hminor hmajor ⊢
    omega

theorem assigned_major1E (hmajor : nf w 26 6 = 0x1E) : Assigned w (major1E w) := by
  unfold major1E
  split
  case isFalse => exact assigned_error (by decide)
  all_goals
    rename_i hminor
    refine assigned_accept rfl rfl fun hzero => ?_
    delta encodeWord
    simp only [layD25_21A20_16B15_11C10_7S1_1, Int.natCast_add, Int.natCast_mul, Int.natCast_pow, Int.cast_ofNat_Int,
      toNat_bf_mul]
    simp only [Bool.and_eq_true, beq_iff_eq, nf_eq_iff, Nat.reduceAdd, Nat.reducePow,
      Nat.reduceMul] at hminor hzero hmajor ⊢
    omega

theorem assigned_major1F (hmajor : nf w 26 6 = 0x1F) : Assigned w (major1F w) := by
  unfold major1F
  split
  case h_13 => exact assigned_error (by decide)
  all_goals
    rename_i hminor
    refine assigned_accept rfl rfl fun hzero => ?_
    delta encodeWord
    simp only [layC10_7, layA20_16B15_11C10_7, layB15_11T8_7, layD25_21T8_7, layA20_16C10_7, layD25_21C10_7,
      layB15_11, Int.natCast_add, Int.natCast_mul, Int.natCast_pow, Int.cast_ofNat_Int, toNat_bf_mul]
    simp only [Bool.and_eq_true, beq_iff_eq, nf_eq_iff, Nat.reduceAdd, Nat.reducePow,
      Nat.reduceMul] at hminor hzero hmajor ⊢
    omega

theorem assigned_major20 (hmajor : nf w 26 6 = 0x20) : Assigned w (major20 w) := by
  unfold major20
  split
  case h_15 => exact assigned_error (by decide)
  all_goals
    rename_i hminor
    refine assigned_accept rfl rfl fun hzero => ?_
    delta encodeWord
    simp only [layD25_21A20_16B15_11C10_7, layD25_21A20_16B15_11, layD25_21A20_16, layA20_16B15_11C10_7,
      layA20_16B15_11, layA20_16, Int.natCast_add, Int.natCast_mul, Int.natCast_pow, Int.cast_ofNat_Int, toNat_bf_mul]
    simp only [Bool.and_eq_true, beq_iff_eq, nf_eq_iff, Nat.reduceAdd, Nat.reducePow,
      Nat.reduceMul] at hminor hzero hmajor ⊢
    omega

theorem assigned_major24 (hmajor : nf w 26 6 = 0x24) : Assigned w (major24 w) := by
  unfold major24
  split
  case h_14 => exact assigned_error (by decide)
  all_goals
    rename_i hminor
    refine assigned_accept rfl rfl fun hzero => ?_
    delta encodeWord
    simp only [layD25_21A20_16B15_11M9_7, Int.natCast_add, Int.natCast_mul, Int.natCast_pow, Int.cast_ofNat_Int,
      toNat_bf_mul]
    simp only [Bool.and_eq_true, beq_iff_eq, nf_eq_iff, Nat.reduceAdd, Nat.reducePow,
      Nat.reduceMul] at hminor hzero hmajor ⊢
    omega

theorem assigned_major25 (hmajor : nf w 26 6 = 0x25) : Assigned w (major25 w) := by
  unfold major25
  split
  case h_8 => exact assigned_error (by decide)
  all_goals
    rename_i hminor
    refine assigned_accept rfl rfl fun hzero => ?_
    delta encodeWord
    simp only [layD25_21A20_16M9_7, layD25_21A20_16R13_11M9_7, Int.natCast_add, Int.natCast_mul, Int.natCast_pow,
      Int.cast_ofNat_Int, toNat_bf_mul]
    simp only [Bool.and_eq_true, beq_iff_eq, nf_eq_iff, Nat.reduceAdd, Nat.reducePow,
      Nat.reduceMul] at hminor hzero hmajor ⊢
    omega

theorem assigned_major26 (hmajor : nf w 26 6 = 0x26) : Assigned w (major26 w) := by
  have hop : nf w 1 6 = nf w 1 3 + 8 * nf w 4 3 := nf_add w 1 3 3
  unfold major26
  split
  case h_11 =>
    split
    case isTrue hrange =>
      have hhigh : nf w 4 3 = 0 := by omega
      refine assigned_accept rfl rfl fun hzero => ?_
      delta encodeWord
      simp only [layD23_21A20_16B15_11M9_7C3_1, Int.natCast_add, Int.natCast_mul, Int.natCast_pow, Int.cast_ofNat_Int,
        toNat_bf_mul]
      simp only [Bool.and_eq_true, beq_iff_eq, nf_eq_iff, Nat.reduceAdd, Nat.reducePow,
        Nat.reduceMul] at hhigh hzero hmajor ⊢
      omega
    exact assigned_error (by decide)
  all_goals
    rename_i hminor
    refine assigned_accept rfl rfl fun hzero => ?_
    delta encodeWord
    simp only [layD25_21A20_16M9_7, layD25_21A20_16F10_7, layD25_21F10_7, layD25_21A20_16I15_11J10_7,
      layD25_21A20_16B15_11M9_7, layD25_21A20_16B15_11, Int.natCast_add, Int.natCast_mul, Int.natCast_pow,
      Int.cast_ofNat_Int,
      toNat_bf_mul]
    simp only [Bool.and_eq_true, beq_iff_eq, nf_eq_iff, Nat.reduceAdd, Nat.reducePow,
      Nat.reduceMul] at hminor hzero hmajor ⊢
    omega

theorem assigned_major27 (hmajor : nf w 26 6 = 0x27) : Assigned w (major27 w) := by
  unfold major27
  refine assigned_accept rfl rfl fun _ => ?_
  delta encodeWord
  simp only [layD25_21A20_16T15_12S11_10M9_7O6_6R5_1, Int.natCast_add, Int.natCast_mul, Int.natCast_pow,
    Int.cast_ofNat_Int,
    toNat_bf_mul]
  simp only [Bool.and_eq_true, beq_iff_eq, nf_eq_iff, Nat.reduceAdd, Nat.reducePow, Nat.reduceMul] at hmajor ⊢
  omega

theorem assigned_major28 (hmajor : nf w 26 6 = 0x28) : Assigned w (major28 w) := by
  unfold major28
  split
  case h_7 => exact assigned_error (by decide)
  all_goals
    rename_i hminor
    refine assigned_accept rfl rfl fun hzero => ?_
    delta encodeWord
    simp only [layD25_21A20_16F10_7M3_1, layD25_21A20_16M3_1, layD25_21A20_16B15_11F10_7M3_1,
      layD25_21A20_16B15_11M3_1, Int.natCast_add, Int.natCast_mul, Int.natCast_pow, Int.cast_ofNat_Int, toNat_bf_mul]
    simp only [Bool.and_eq_true, beq_iff_eq, nf_eq_iff, Nat.reduceAdd, Nat.reducePow,
      Nat.reduceMul] at hminor hzero hmajor ⊢
    omega

theorem assigned_major2C (hmajor : nf w 26 6 = 0x2C) : Assigned w (major2C w) := by
  unfold major2C
  split
  case h_10 => exact assigned_error (by decide)
  all_goals
    rename_i hminor
    refine assigned_accept rfl rfl fun hzero => ?_
    delta encodeWord
    simp only [layD24_21A20_16F10_7, layD24_21A20_16, layD22_21A19_16B14_11, layD22_21A19_16B14_11K10_7, layD22_21,
      layD22_21A20_16, layD25_21A17_16B15_11, Int.natCast_add, Int.natCast_mul, Int.natCast_pow, Int.cast_ofNat_Int,
      toNat_bf_mul]
    simp only [Bool.and_eq_true, beq_iff_eq, nf_eq_iff, Nat.reduceAdd, Nat.reducePow,
      Nat.reduceMul] at hminor hzero hmajor ⊢
    omega

theorem assigned_major2E (hmajor : nf w 26 6 = 0x2E) : Assigned w (major2E w) := by
  unfold major2E
  split
  case h_11 => exact assigned_error (by decide)
  all_goals
    rename_i hminor
    refine assigned_accept rfl rfl fun hzero => ?_
    delta encodeWord
    simp only [layA20_16, layA20_16B15_11, layD25_21A20_16, layD25_21A20_16S10_7, layD25_21A20_16B15_11C10_7,
      layA20_16B15_11C10_7, Int.natCast_add, Int.natCast_mul, Int.natCast_pow, Int.cast_ofNat_Int, toNat_bf_mul]
    simp only [Bool.and_eq_true, beq_iff_eq, nf_eq_iff, Nat.reduceAdd, Nat.reducePow,
      Nat.reduceMul] at hminor hzero hmajor ⊢
    omega

theorem assigned_major30 (hmajor : nf w 26 6 = 0x30) : Assigned w (major30 w) := by
  unfold major30
  split
  case h_8 => exact assigned_error (by decide)
  all_goals
    rename_i hminor
    refine assigned_accept rfl rfl fun hzero => ?_
    delta encodeWord
    simp only [layD25_21A20_16, layD25_21A20_16C10_7, Int.natCast_add, Int.natCast_mul, Int.natCast_pow,
      Int.cast_ofNat_Int,
      toNat_bf_mul]
    simp only [Bool.and_eq_true, beq_iff_eq, nf_eq_iff, Nat.reduceAdd, Nat.reducePow,
      Nat.reduceMul] at hminor hzero hmajor ⊢
    omega

theorem assigned_major32 (hmajor : nf w 26 6 = 0x32) : Assigned w (major32 w) := by
  unfold major32
  split
  case h_13 => exact assigned_error (by decide)
  all_goals
    rename_i hminor
    refine assigned_accept rfl rfl fun hzero => ?_
    delta encodeWord
    simp only [layD25_21A20_16B15_11, layD25_21A20_16B15_11C10_7, layD25_21A20_16, layA20_16C10_7, layD25_21H8_7,
      layD25_21A20_16B15_11K8_7, layA20_16B15_11, Int.natCast_add, Int.natCast_mul, Int.natCast_pow, Int.cast_ofNat_Int,
      toNat_bf_mul]
    simp only [Bool.and_eq_true, beq_iff_eq, nf_eq_iff, Nat.reduceAdd, Nat.reducePow,
      Nat.reduceMul] at hminor hzero hmajor ⊢
    omega

theorem assigned_major34 (hmajor : nf w 26 6 = 0x34) : Assigned w (major34 w) := by
  unfold major34
  split
  case h_8 => exact assigned_error (by decide)
  all_goals
    rename_i hminor
    refine assigned_accept rfl rfl fun hzero => ?_
    delta encodeWord
    simp only [layD25_21A20_16, layA20_16, layA20_16C10_7, layA20_16B15_11C10_7, layA20_16B15_11, Int.natCast_add,
      Int.natCast_mul, Int.natCast_pow, Int.cast_ofNat_Int, toNat_bf_mul]
    simp only [Bool.and_eq_true, beq_iff_eq, nf_eq_iff, Nat.reduceAdd, Nat.reducePow,
      Nat.reduceMul] at hminor hzero hmajor ⊢
    omega

theorem assigned_major38 (hmajor : nf w 26 6 = 0x38) : Assigned w (major38 w) := by
  unfold major38
  split
  case h_10 => exact assigned_error (by decide)
  all_goals
    rename_i hminor
    refine assigned_accept rfl rfl fun hzero => ?_
    delta encodeWord
    simp only [layA20_16B15_11, layD25_21N20_16M15_11, layA20_16, Int.natCast_add, Int.natCast_mul, Int.natCast_pow,
      Int.cast_ofNat_Int, toNat_bf_mul]
    simp only [Bool.and_eq_true, beq_iff_eq, nf_eq_iff, Nat.reduceAdd, Nat.reducePow,
      Nat.reduceMul] at hminor hzero hmajor ⊢
    omega

end

theorem assigned_decode16 {w : Nat} (heven : low w 1 = 0) : Assigned w (decode16 w) := by
  have hop : nf w 12 4 < 16 := Nat.mod_lt _ (by decide)
  unfold decode16
  split
  case isTrue => exact assigned_error (by decide)
  case isFalse hnonzero =>
  split
  case h_1 hadd =>
    have hwf : (Instr.vadd16 (bf w 7 5) (bf w 2 5) (bf w 1 1)).wf = true := by
      simp only [Instr.wf, Bool.or_eq_true, decide_eq_true_eq, bf, BitVec.toNat_ofNat]
      refine Decidable.byContradiction fun hnone => ?_
      obtain ⟨⟨hd, hb⟩, hs⟩ : (nf w 7 5 = 0 ∧ nf w 2 5 = 0) ∧ nf w 1 1 = 0 := by
        simpa only [nf, not_or, Decidable.not_not] using hnone
      simp only [nf_eq_iff, Nat.reduceAdd, Nat.reducePow] at hd hb hs hadd
      exact hnonzero (show low w 16 = 0 by omega)
    refine assigned_lane hwf rfl rfl ?_
    delta encodeWord
    simp only [layD11_7B6_2S1_1, Int.natCast_add, Int.natCast_mul, Int.natCast_pow, Int.cast_ofNat_Int,
      toNat_bf_mul]
    simp only [nf_eq_iff, Nat.reduceAdd, Nat.reducePow, Nat.reduceMul] at hadd ⊢
    omega
  case' h_16 =>
    simp only [imp_false] at *
    have hminor : nf w 12 4 = 15 := by omega
  all_goals
    rename_i hminor
    refine assigned_lane rfl rfl rfl ?_
    delta encodeWord
    simp only [layD11_7B6_2S1_1, Int.natCast_add, Int.natCast_mul, Int.natCast_pow, Int.cast_ofNat_Int,
      toNat_bf_mul]
    simp only [nf_eq_iff, Nat.reduceAdd, Nat.reducePow, Nat.reduceMul] at hminor ⊢
    omega

/-- The majors that the map of R260 does not assign. -/
def reservedMajors : List Nat :=
  [0, 0x0D, 0x0E, 0x0F, 0x15, 0x16, 0x17, 0x21, 0x22, 0x23, 0x29, 0x2A, 0x2B, 0x2D, 0x2F, 0x31, 0x33, 0x35, 0x36, 0x37,
    0x39, 0x3A, 0x3B, 0x3C, 0x3D, 0x3E, 0x3F]

theorem decode32_cases {w : Nat} (hodd : low w 1 = 1) :
    nf w 26 6 ∈ reservedMajors ∧ decode32 w = .error .reservedMajor ∨
      nf w 26 6 ∉ reservedMajors ∧ Assigned w (decode32 w) := by
  have hlt : nf w 26 6 < 64 := Nat.mod_lt _ (by decide)
  unfold decode32
  split
  case h_1 h => exact .inr ⟨by rw [h]; decide, assigned_major01 hodd h⟩
  case h_2 h => exact .inr ⟨by rw [h]; decide, assigned_major02 hodd h⟩
  case h_3 h => exact .inr ⟨by rw [h]; decide, assigned_major03 hodd h⟩
  case h_4 h => exact .inr ⟨by rw [h]; decide, assigned_major04 hodd h⟩
  case h_5 h => exact .inr ⟨by rw [h]; decide, assigned_major05 hodd h⟩
  case h_6 h => exact .inr ⟨by rw [h]; decide, assigned_major06 hodd h⟩
  case h_7 h => exact .inr ⟨by rw [h]; decide, assigned_major07 hodd h⟩
  case h_8 h => exact .inr ⟨by rw [h]; decide, assigned_major08 hodd h⟩
  case h_9 h => exact .inr ⟨by rw [h]; decide, assigned_major09 hodd h⟩
  case h_10 h => exact .inr ⟨by rw [h]; decide, assigned_major0A hodd h⟩
  case h_11 h => exact .inr ⟨by rw [h]; decide, assigned_major0B hodd h⟩
  case h_12 h => exact .inr ⟨by rw [h]; decide, assigned_major0C hodd h⟩
  case h_13 h => exact .inr ⟨by rw [h]; decide, assigned_major10 hodd h⟩
  case h_14 h => exact .inr ⟨by rw [h]; decide, assigned_major11 hodd h⟩
  case h_15 h => exact .inr ⟨by rw [h]; decide, assigned_major12 hodd h⟩
  case h_16 h => exact .inr ⟨by rw [h]; decide, assigned_major13 hodd h⟩
  case h_17 h => exact .inr ⟨by rw [h]; decide, assigned_major14 hodd h⟩
  case h_18 h => exact .inr ⟨by rw [h]; decide, assigned_major18 hodd h⟩
  case h_19 h => exact .inr ⟨by rw [h]; decide, assigned_major19 hodd h⟩
  case h_20 h => exact .inr ⟨by rw [h]; decide, assigned_major1A hodd h⟩
  case h_21 h => exact .inr ⟨by rw [h]; decide, assigned_major1B hodd h⟩
  case h_22 h => exact .inr ⟨by rw [h]; decide, assigned_major1C hodd h⟩
  case h_23 h => exact .inr ⟨by rw [h]; decide, assigned_major1D hodd h⟩
  case h_24 h => exact .inr ⟨by rw [h]; decide, assigned_major1E hodd h⟩
  case h_25 h => exact .inr ⟨by rw [h]; decide, assigned_major1F hodd h⟩
  case h_26 h => exact .inr ⟨by rw [h]; decide, assigned_major20 hodd h⟩
  case h_27 h => exact .inr ⟨by rw [h]; decide, assigned_major24 hodd h⟩
  case h_28 h => exact .inr ⟨by rw [h]; decide, assigned_major25 hodd h⟩
  case h_29 h => exact .inr ⟨by rw [h]; decide, assigned_major26 hodd h⟩
  case h_30 h => exact .inr ⟨by rw [h]; decide, assigned_major27 hodd h⟩
  case h_31 h => exact .inr ⟨by rw [h]; decide, assigned_major28 hodd h⟩
  case h_32 h => exact .inr ⟨by rw [h]; decide, assigned_major2C hodd h⟩
  case h_33 h => exact .inr ⟨by rw [h]; decide, assigned_major2E hodd h⟩
  case h_34 h => exact .inr ⟨by rw [h]; decide, assigned_major30 hodd h⟩
  case h_35 h => exact .inr ⟨by rw [h]; decide, assigned_major32 hodd h⟩
  case h_36 h => exact .inr ⟨by rw [h]; decide, assigned_major34 hodd h⟩
  case h_37 h => exact .inr ⟨by rw [h]; decide, assigned_major38 hodd h⟩
  case h_38 =>
    refine .inl ⟨?_, rfl⟩
    simp only [imp_false] at *
    simp only [reservedMajors, List.mem_cons, List.not_mem_nil, or_false]
    omega

/-- What a word decodes to encodes as its bits (R259). -/
theorem encode_decodeWord {w : Nat} {i : Instr} (h : decodeWord w = .ok i) :
    i.wf = true ∧ isEvent i = false ∧ encodeWord i = low w (8 * i.size) := by
  rw [decodeWord] at h
  split at h
  next heven => exact (assigned_decode16 heven).encodes i h
  next hodd =>
    obtain ⟨-, hreserved⟩ | ⟨-, hassigned⟩ := decode32_cases (w := w) (Nat.mod_two_ne_zero.mp hodd)
    · rw [hreserved] at h; exact nomatch h
    · exact hassigned.encodes i h

theorem decodeWord_zeroHalfword {w : Nat} (h : w % 2 ^ 16 = 0) : decodeWord w = .error .zeroHalfword := by
  rw [decodeWord, if_pos (by omega), decode16, if_pos h]

theorem decodeWord_reservedMajor_iff {w : Nat} (hlt : w < 2 ^ 32) (hodd : w % 2 = 1) :
    w / 2 ^ 26 ∈ reservedMajors ↔ decodeWord w = .error .reservedMajor := by
  have hmajor : nf w 26 6 = w / 2 ^ 26 := Nat.mod_eq_of_lt (by omega)
  rw [← hmajor, decodeWord, if_neg (by omega)]
  obtain ⟨hmem, hreserved⟩ | ⟨hmem, hassigned⟩ := decode32_cases hodd
  · exact iff_of_true hmem hreserved
  · exact iff_of_false hmem hassigned.ne_reservedMajor

/-- Settles O17: an accepted word is the sum of the fields of its row, and the split of `decode32` over the majors
leaves just the reserved ones. -/
theorem wordsHaveOneMeaning : Obligations.WordsHaveOneMeaning := by
  unfold Obligations.WordsHaveOneMeaning
  exact ⟨fun _ _ _ h => encode_decodeWord h, fun _ h => decodeWord_zeroHalfword h,
    fun _ hlt hodd => decodeWord_reservedMajor_iff hlt hodd⟩

end Sys2Proof
end

section
/-! SUPPORT. What homes do for an access (R145, R156, R160, R172, R227): they write memory, and note the access in their
own tables and watch pairs, but they touch no thread, no slot and no command of any tile. -/

namespace Sys2Proof.Machine

open Sys2Proof.Claims

/-- The current thread is the same, and the threads, the slots and the commands of every tile are as before. -/
structure KeepsWork (s t : State) : Prop where
  cur : t.cur = s.cur
  threads : ∀ i, (t.tile i).threads = (s.tile i).threads
  slots : ∀ i, (t.tile i).slots = (s.tile i).slots
  cmds : ∀ i, (t.tile i).cmds = (s.tile i).cmds

namespace KeepsWork

theorem refl (s : State) : KeepsWork s s := ⟨rfl, fun _ => rfl, fun _ => rfl, fun _ => rfl⟩

theorem trans {s t u : State} (h : KeepsWork s t) (h' : KeepsWork t u) : KeepsWork s u where
  cur := h'.cur.trans h.cur
  threads i := (h'.threads i).trans (h.threads i)
  slots i := (h'.slots i).trans (h.slots i)
  cmds i := (h'.cmds i).trans (h.cmds i)

/-- A change outside the tiles. -/
theorem of_tiles {s t : State} (hcur : t.cur = s.cur) (htiles : t.tiles = s.tiles) : KeepsWork s t where
  cur := hcur
  threads i := by simp only [State.tile, htiles]
  slots i := by simp only [State.tile, htiles]
  cmds i := by simp only [State.tile, htiles]

/-- A change of the other parts of a tile. -/
theorem modTile (s : State) (i : BitVec 10) {f : Tile → Tile} (hthreads : ∀ x, (f x).threads = x.threads)
    (hslots : ∀ x, (f x).slots = x.slots) (hcmds : ∀ x, (f x).cmds = x.cmds) : KeepsWork s (s.modTile i f) where
  cur := rfl
  threads j := by rw [State.tile_modTile]; split <;> simp only [hthreads]
  slots j := by rw [State.tile_modTile]; split <;> simp only [hslots]
  cmds j := by rw [State.tile_modTile]; split <;> simp only [hcmds]

theorem foldl {α : Type} {f : State → α → State} (hf : ∀ s a, KeepsWork s (f s a)) (l : List α) (s : State) :
    KeepsWork s (l.foldl f s) := by
  induction l generalizing s with
  | nil => exact refl s
  | cons a l ih => exact (hf s a).trans (ih (f s a))

theorem thread {s t : State} (h : KeepsWork s t) (x : ThreadId) : t.thread x = s.thread x := by
  simp only [State.thread, Tile.thread, h.threads]

theorem self {s t : State} (h : KeepsWork s t) : t.self = s.self := by
  rw [State.self, h.cur, h.thread, State.self]

theorem slot {s t : State} (h : KeepsWork s t) (i : BitVec 10) (n : BitVec 12) : t.slot i n = s.slot i n := by
  simp only [State.slot, h.slots]

theorem fibre? {s t : State} (h : KeepsWork s t) (x : Word) : t.fibre? x = s.fibre? x := by
  simp only [State.fibre?, h.slot]

theorem future? {s t : State} (h : KeepsWork s t) (x : Word) : t.future? x = s.future? x := by
  simp only [State.future?, h.slot]

theorem g {s t : State} (h : KeepsWork s t) (r : BitVec 5) : t.g r = s.g r := by simp only [State.g, h.self]

end KeepsWork

/-! What homes note of an access. -/

theorem keepsWork_modCmem (s : State) (c : Nat) (f : Cmem → Cmem) : KeepsWork s (s.modCmem c f) := .of_tiles rfl rfl

theorem keepsWork_touch (s : State) (pa n : Nat) (wr : Bool) : KeepsWork s (s.touch pa n wr) :=
  .foldl (fun s _ => keepsWork_modCmem s _ _) _ s

theorem keepsWork_poke (s : State) (pa : Nat) (bs : List Byte) : KeepsWork s (s.poke pa bs) :=
  .of_tiles (State.poke_cur s pa bs) (State.poke_tiles s pa bs)

theorem keepsWork_answered (s : State) (pa n : Nat) : KeepsWork s (s.answered pa n) := by
  unfold State.answered
  dsimp only
  split
  · exact .refl s
  · exact .of_tiles rfl rfl

theorem keepsWork_dirtyAt (s : State) (pa n : Nat) : KeepsWork s (s.dirtyAt pa n) := by
  unfold State.dirtyAt
  split
  · exact .refl s
  · refine .foldl (fun s i => ?_) _ s
    dsimp only
    split
    · split
      · exact .of_tiles rfl rfl
      · exact .refl s
    · exact .refl s

theorem keepsWork_consumeOnce (s : State) (pa n : Nat) : KeepsWork s (s.consumeOnce pa n) := by
  refine .foldl (fun s l => ?_) _ s
  split
  next o _ =>
    have hdrop : KeepsWork s ((s.poke l (leBytes 128 o.below.toNat)).modCmem (hbmHome l) fun m => m.dropOnce l) :=
      (keepsWork_poke s l _).trans (keepsWork_modCmem _ _ _)
    dsimp only
    split
    · exact hdrop.trans (.of_tiles rfl rfl)
    · exact hdrop
  next => exact .refl s

theorem keepsWork_normalise (s : State) (pa n : Nat) : KeepsWork s (s.normalise pa n) :=
  (keepsWork_answered s pa n).trans ((keepsWork_dirtyAt _ pa n).trans (.foldl (fun s _ => keepsWork_modCmem s _ _) _ _))

/-! Watch pairs. -/

theorem keepsWork_modRegion (s : State) (r : BitVec 16) (f : Region → Region) : KeepsWork s (s.modRegion r f) := by
  unfold State.modRegion
  split
  · exact .of_tiles rfl rfl
  · exact .refl s

theorem keepsWork_askFreeze (s : State) (r : BitVec 16) : KeepsWork s (s.askFreeze r) :=
  .foldl (fun s q => keepsWork_modRegion s q _) _ s

theorem keepsWork_senderId (s : State) (t : Option (BitVec 10)) : KeepsWork s (s.senderId t).2 := by
  cases t with
  | none => exact .of_tiles rfl rfl
  | some t => exact .modTile s t (f := fun x => { x with seq := x.seq + 1 }) (fun _ => rfl) (fun _ => rfl)
                (fun _ => rfl)

theorem keepsWork_sendDebug (s : State) (t : Option (BitVec 10)) (f : FaultRec) : KeepsWork s (s.sendDebug t f) := by
  unfold State.sendDebug
  split
  · exact .of_tiles rfl rfl
  · exact (keepsWork_senderId s t).trans (.of_tiles rfl rfl)

theorem keepsWork_setPairs (s : State) (pa : Nat) (w : Vector WatchPair 4) : KeepsWork s (s.setPairs pa w) := by
  unfold State.setPairs
  split
  · exact .modTile s _ (fun _ => rfl) (fun _ => rfl) (fun _ => rfl)
  · exact keepsWork_modCmem s _ _
  · exact .refl s

theorem keepsWork_takeHit (s : State) (x : Issuer) (pa : Nat) (i : Fin 4) : KeepsWork s (s.takeHit x pa i) :=
  (keepsWork_sendDebug s _ _).trans ((keepsWork_setPairs _ pa _).trans (keepsWork_askFreeze _ _))

theorem keepsWork_seen (s : State) (x : Issuer) (k : WKind) (pa n : Nat) : KeepsWork s (s.seen x k pa n) := by
  refine .foldl (fun s i => ?_) _ s
  split
  · split
    · exact keepsWork_takeHit s x pa _
    · exact .refl s
  · exact .refl s

theorem keepsWork_watched (s : State) (x : Issuer) (k : WKind) (pa n : Nat) : KeepsWork s (s.watched x k pa n) := by
  have hseen (q : State) (a : Nat × Nat) : KeepsWork q (q.seen x k a.1 a.2) := keepsWork_seen q x k a.1 a.2
  exact (keepsWork_touch s pa n false).trans (.foldl hseen (linePieces pa n) (s.touch pa n false))

/-! Stores. -/

theorem keepsWork_performAt (s : State) (x : Issuer) (k : WKind) (pa : Nat) (bs : List Byte) :
    KeepsWork s (s.performAt x k pa bs) :=
  (keepsWork_normalise s pa _).trans ((keepsWork_poke _ pa bs).trans (keepsWork_watched _ x k pa _))

theorem keepsWork_performStore (s : State) (x : Issuer) (k : WKind) (va pa : Nat) (bs : List Byte) :
    KeepsWork s (s.performStore x k va pa bs) := keepsWork_performAt s x k _ bs

theorem keepsWork_dropLine (s : State) (t : BitVec 10) (pa : Nat) : KeepsWork s (s.dropLine t pa) :=
  .modTile s t (fun _ => rfl) (fun _ => rfl) (fun _ => rfl)

theorem keepsWork_dropForwarded (s : State) (t : BitVec 10) (va pa : Nat) : KeepsWork s (s.dropForwarded t va pa) := by
  unfold State.dropForwarded
  split
  · exact .refl s
  · exact keepsWork_dropLine s t _

theorem keepsWork_performFlight (s : State) (a : Access) : KeepsWork s (s.performFlight a) :=
  (keepsWork_dropForwarded s _ _ _).trans (keepsWork_performStore _ _ _ _ _ _)

theorem keepsWork_performThose (s : State) (p : Access → Bool) : KeepsWork s (s.performThose p) := by
  have hlater : KeepsWork s { s with inflight := (Access.select s.keptOrder p s.inflight).2 } := .of_tiles rfl rfl
  exact hlater.trans (.foldl keepsWork_performFlight _ _)

theorem keepsWork_drainVol (s : State) : KeepsWork s s.drainVol := keepsWork_performThose s _

theorem keepsWork_drainAt (s : State) (va pa : Nat) : KeepsWork s (s.drainAt va pa) := keepsWork_performThose s _

theorem keepsWork_dropBoth (s : State) (t : BitVec 10) (pa qa : Nat) : KeepsWork s (s.dropBoth t pa qa) :=
  (keepsWork_dropLine s t pa).trans (keepsWork_dropLine _ t qa)

theorem keepsWork_release (s : State) (x : Sets) : KeepsWork s (s.release x) := keepsWork_performThose s _

/-- Settles O28: a release is stores that homes perform. -/
theorem releaseKeepsRegisters : Obligations.ReleaseKeepsRegisters := by
  unfold Obligations.ReleaseKeepsRegisters
  exact fun s x => ⟨(keepsWork_release s x).thread, fun h =>
    ⟨(keepsWork_release s x).future? h, (keepsWork_release s x).fibre? h⟩⟩

end Sys2Proof.Machine
end

section
/-! SUPPORT. The look-ups and checks of an access (R131, R137, R153, R295) and the fetch of an instruction (R254)
touch no thread and no slot. -/

namespace Sys2Proof.Machine

open Sys2Proof.Claims

/-- What a look-up leaves: other cluster memories and another range table. -/
theorem keepsWork_of_walk (s : State) (c : List (Nat × Cmem)) (t : BitVec 10) (l : List RangeEntry) :
    KeepsWork s (({ s with cmems := c } : State).modTile t fun x => { x with rtable := l }) :=
  (KeepsWork.of_tiles (s := s) (t := { s with cmems := c }) rfl rfl).trans
    (.modTile _ t (f := fun x => { x with rtable := l }) (fun _ => rfl) (fun _ => rfl) (fun _ => rfl))

theorem keepsWork_lookup_ok {s q : State} {t : BitVec 10} {r : BitVec 16} {va : Nat} {e : RangeEntry}
    (h : s.lookup t r va = .ok (q, e)) : KeepsWork s q := by
  obtain ⟨c, l, rfl⟩ := State.lookup_ok h
  exact keepsWork_of_walk s c t l

theorem keepsWork_lookup_error {s q : State} {t : BitVec 10} {r : BitVec 16} {va : Nat} {k : Cause}
    (h : s.lookup t r va = .error (k, q)) : KeepsWork s q := by
  obtain ⟨c, rfl⟩ := State.lookup_error h
  exact .of_tiles rfl rfl

theorem keepsWork_translate_ok {s q : State} {t : BitVec 10} {r : BitVec 16} {who : List Word} {va : Word} {n : Nat}
    {k : Kind} {e : RangeEntry} (h : s.translate t r who va n k = .ok (q, e)) : KeepsWork s q := by
  obtain ⟨c, l, rfl⟩ := State.translate_ok h
  exact keepsWork_of_walk s c t l

theorem keepsWork_translate_error {s q : State} {t : BitVec 10} {r : BitVec 16} {who : List Word} {va : Word} {n : Nat}
    {k : Kind} {c : Cause} (h : s.translate t r who va n k = .error (c, q)) : KeepsWork s q := by
  unfold State.translate at h
  split at h
  · cases h; exact .refl s
  · split at h
    next hlook => cases h; exact keepsWork_lookup_error hlook
    next hlook =>
      split at h
      · cases h; exact keepsWork_lookup_ok hlook
      · cases h

/-- The check of a tile's array changes nothing. -/
theorem arrayCheck_error {s q : State} {pa n : Nat} {k : Kind} {c : Cause} (h : s.arrayCheck pa n k = .error (c, q)) :
    q = s := by
  unfold State.arrayCheck at h
  dsimp only at h
  repeat' split at h
  all_goals cases h
  all_goals rfl

theorem keepsWork_residency_error {s q : State} {r : BitVec 16} {e : RangeEntry} {va n : Nat} {l : List Nat}
    (h : s.residency r e va n = .error (q, l)) : KeepsWork s q := by
  unfold State.residency at h
  dsimp only at h
  split at h
  · cases h
  · split at h
    · cases h
    · cases h
      have hblock (u : State) (b : Nat) : KeepsWork u (u.setBlock (e.phys b) (u.block r e b).touched) :=
        .of_tiles rfl rfl
      exact .foldl hblock _ s

theorem keepsWork_causeAt_ok {s q : State} {t : BitVec 10} {r : BitVec 16} {who : List Word} {va : Word} {n : Nat}
    {k : Kind} {e : RangeEntry} (h : causeAt va (s.translate t r who va n k) = .ok (q, e)) : KeepsWork s q := by
  unfold causeAt at h
  split at h
  next htrans => cases h; exact keepsWork_translate_ok htrans
  next => cases h

theorem Except.bind_ok_iff {ε α β : Type} {x : Except ε α} {f : α → Except ε β} {b : β} :
    (x >>= f) = .ok b ↔ ∃ a, x = .ok a ∧ f a = .ok b := by
  cases x with
  | error e => exact ⟨nofun, nofun⟩
  | ok a => exact ⟨fun h => ⟨a, rfl, h⟩, fun ⟨_, ha, hb⟩ => by cases ha; exact hb⟩

theorem KeepsWork.foldlM_ok {α β : Type} {f : State × β → α → Except Stop (State × β)}
    (hf : ∀ p a q, f p a = .ok q → KeepsWork p.1 q.1) {l : List α} {p q : State × β} (h : l.foldlM f p = .ok q) :
    KeepsWork p.1 q.1 := by
  induction l generalizing p with
  | nil => cases h; exact .refl _
  | cons a l ih =>
    rw [List.foldlM_cons] at h
    obtain ⟨u, hu, h⟩ := Except.bind_ok_iff.mp h
    exact (hf p a u hu).trans (ih h)

/-- The checks of an access change no thread and no slot. -/
theorem keepsWork_checkMapped_ok {s q : State} {va : Word} {n : Nat} {kinds : List Kind} {e : RangeEntry} {pa : Nat}
    (h : checkMapped s va n kinds = .ok (q, e, pa)) : KeepsWork s q := by
  unfold checkMapped at h
  obtain ⟨⟨u, o⟩, hfold, h⟩ := Except.bind_ok_iff.mp h
  have hu : KeepsWork s u := by
    refine KeepsWork.foldlM_ok (p := (s, none)) (q := (u, o)) (fun p k q hstep => ?_) hfold
    obtain ⟨⟨v, f⟩, htrans, hstep⟩ := Except.bind_ok_iff.mp hstep
    obtain ⟨_, _, hstep⟩ := Except.bind_ok_iff.mp hstep
    cases hstep
    exact keepsWork_causeAt_ok htrans
  cases o with
  | none => cases h
  | some f =>
    dsimp only at h
    split at h
    · cases h
    · cases h; exact hu

theorem keepsWork_checkAccess_ok {s q : State} {va : Word} {n : Nat} {kinds : List Kind} {store held : Bool}
    {e : RangeEntry} {pa : Nat} (h : checkAccess s va n kinds store held = .ok (q, e, pa)) : KeepsWork s q := by
  unfold checkAccess at h
  obtain ⟨⟨u, f, w⟩, hmapped, h⟩ := Except.bind_ok_iff.mp h
  dsimp only at h
  split at h
  · cases h
  · obtain ⟨_, _, h⟩ := Except.bind_ok_iff.mp h
    cases h
    exact keepsWork_checkMapped_ok hmapped

/-! The fetch. -/

theorem keepsWork_pick {α : Type} (s : State) (l : List α) : KeepsWork s (s.pick l).2 := by
  unfold State.pick
  split
  · exact .refl s
  · exact .refl s
  · exact .of_tiles rfl rfl

theorem keepsWork_fillIcache (s : State) (t : BitVec 10) (r : BitVec 16) (line : Nat) :
    KeepsWork s (s.fillIcache t r line) := by
  unfold State.fillIcache
  dsimp only
  split
  · exact .modTile s t (fun _ => rfl) (fun _ => rfl) (fun _ => rfl)
  · have hpick := keepsWork_pick s (s.tile t).icache
    split
    next h => rw [h] at hpick; exact hpick.trans (.modTile _ t (fun _ => rfl) (fun _ => rfl) (fun _ => rfl))
    next h => rw [h] at hpick; exact hpick

theorem keepsWork_noteCode (s : State) (t : BitVec 10) (r : BitVec 16) (c : CodeLine) :
    KeepsWork s (s.noteCode t r c) := by
  unfold State.noteCode
  split
  · exact .refl s
  · exact .modTile s t (fun _ => rfl) (fun _ => rfl) (fun _ => rfl)

theorem keepsWork_drainStep (s : State) (t : BitVec 10) (pa n : Nat) : KeepsWork s (s.drainStep t pa n) :=
  keepsWork_performThose s _

theorem keepsWork_fetchHalf {s q : State} {x : ThreadId} {va : Word} {r : Except Cause Nat}
    (h : s.fetchHalf x va = some (q, r)) : KeepsWork s q := by
  unfold State.fetchHalf at h
  dsimp only at h
  split at h
  next htrans => cases h; exact keepsWork_translate_error htrans
  next u e htrans =>
    have hu := keepsWork_translate_ok htrans
    split at h
    next harray => cases h; rw [arrayCheck_error harray]; exact hu
    next =>
    split at h
    · cases h
    split at h
    next hres => cases h; exact hu.trans (keepsWork_residency_error hres)
    next =>
    split at h
    next => cases h; exact hu.trans (keepsWork_noteCode u _ _ _)
    next =>
    have hstep := hu.trans (keepsWork_drainStep u x.tile (e.phys va.toNat) 2)
    split at h
    next => cases h; exact hstep.trans (keepsWork_noteCode _ _ _ _)
    next =>
    have htouch := hstep.trans (keepsWork_touch _ ((u.drainStep x.tile (e.phys va.toNat) 2).forwarded va.toNat
      (e.phys va.toNat)) 2 false)
    split at h
    next => cases h; exact htouch.trans (keepsWork_answered _ _ _)
    next =>
    cases h
    refine .trans ?_ (keepsWork_consumeOnce _ _ _)
    split
    · exact htouch
    · exact htouch.trans (keepsWork_fillIcache _ _ _ _)

theorem keepsWork_fetch_word {s q : State} {x : ThreadId} {w : Nat} (h : s.fetch x = .word q w) : KeepsWork s q := by
  unfold State.fetch at h
  dsimp only at h
  split at h
  next => cases h
  next => cases h
  next hlow =>
    split at h
    next => cases h; exact keepsWork_fetchHalf hlow
    next =>
      split at h
      next => cases h
      next => cases h
      next hhigh => cases h; exact (keepsWork_fetchHalf hlow).trans (keepsWork_fetchHalf hhigh)

end Sys2Proof.Machine
end

section
/-! SUPPORT. The scalar instructions of R279 and R284 to R293, the hardwired registers, the state after reset and what
a step runs. -/

namespace Sys2Proof.Machine

open Sys2Proof.Claims

/-! Words. -/

/-- Words compare as the numbers that they stand for (R279, R287). -/
theorem slt_eq_true_iff (x y : Word) : x.slt y = true ↔ x.toInt < y.toInt := by simp [BitVec.slt]

theorem setWidth_eq_zeroExtend {n : Nat} (i : BitVec n) : zimm i = i.zeroExtend 64 := rfl

/-- `lih` shifts the register by 20 bits (R286). -/
theorem wd_mul_two_pow_twenty (x : Word) : wd (x.toNat * 2 ^ 20) = x <<< 20 :=
  BitVec.eq_of_toNat_eq (by rw [BitVec.toNat_shiftLeft, Nat.shiftLeft_eq, wd, BitVec.toNat_ofNat])

theorem mul_eq_ofInt (x y : Word) : x * y = BitVec.ofInt 64 (x.toInt * y.toInt) := by
  rw [BitVec.ofInt_mul, BitVec.ofInt_toInt, BitVec.ofInt_toInt]

/-- The ten conditions as comparisons of words (R287). -/
theorem condHolds_eq (x y : Word) :
    condHolds 0 x y = (x == y) ∧ condHolds 1 x y = (x != y) ∧ condHolds 2 x y = x.slt y ∧ condHolds 3 x y = x.sle y ∧
    condHolds 4 x y = y.slt x ∧ condHolds 5 x y = y.sle x ∧ condHolds 6 x y = x.ult y ∧ condHolds 7 x y = x.ule y ∧
    condHolds 8 x y = y.ult x ∧ condHolds 9 x y = y.ule x := by
  refine ⟨?_, ?_, rfl, rfl, rfl, rfl, rfl, rfl, rfl, rfl⟩
  · exact (Bool.beq_eq_decide_eq x y).symm
  · rw [bne, Bool.beq_eq_decide_eq]; simp [condHolds]

/-! Obligations about single instructions. -/

/-- Settles O1: the decoder evaluated on each word. -/
theorem decodeWords : Obligations.DecodeWords := by
  unfold Obligations.DecodeWords
  and_intros <;> rfl

/-- Settles O6, by the tests of the register number in the accessors. -/
theorem hardwiredRegisters : Obligations.HardwiredRegisters := by
  unfold Obligations.HardwiredRegisters
  exact ⟨fun x => ⟨rfl, rfl, rfl⟩, fun x w => ⟨rfl, rfl⟩, fun x b => rfl⟩

/-- Settles O7: each arm of `exec`, with the wrapped product as the product of words. -/
theorem arithmeticResults : Obligations.ArithmeticResults := by
  unfold Obligations.ArithmeticResults
  intro s d a b
  refine ⟨rfl, rfl, rfl, rfl, rfl, does_putG_of_eq rfl (mul_eq_ofInt _ _), rfl, rfl, ?_, ?_, rfl, rfl⟩
  · exact does_putG_of_eq rfl (ite_of_iff (slt_eq_true_iff _ _).symm _ _)
  · exact does_putG_of_eq rfl (ite_of_iff (slt_eq_true_iff _ _).symm _ _)

/-- Settles O12: each arm of `exec`, with the shift of `lih`. -/
theorem selectAndImmediates : Obligations.SelectAndImmediates := by
  unfold Obligations.SelectAndImmediates
  intro s d a b p i k
  refine ⟨rfl, rfl, rfl, rfl, rfl, rfl, ?_, rfl⟩
  exact does_putG_of_eq rfl (congrArg (· ||| zimm k) (wd_mul_two_pow_twenty (s.g d)))

/-- A compare writes whatever its condition is equal to. -/
theorem does_putP_of_eq {i : Instr} {s : State} {d : BitVec 3} {x y : Bool} (hexec : Does i s (s.putP d x))
    (hxy : x = y) : Does i s (s.putP d y) := hxy ▸ hexec

/-- Settles O13: the conditions by `condHolds_eq`, the others by their arms. -/
theorem predicates : Obligations.Predicates := by
  unfold Obligations.Predicates
  intro s
  refine ⟨fun p a b => ?_, fun p a c i => rfl, fun d a b => ⟨rfl, rfl, ?_, rfl⟩⟩
  · obtain ⟨heq, hne, hlt, hle, hgt, hge, hltu, hleu, hgtu, hgeu⟩ := condHolds_eq (s.g a) (s.g b)
    exact ⟨does_putP_of_eq rfl heq, does_putP_of_eq rfl hne, does_putP_of_eq rfl hlt, does_putP_of_eq rfl hle,
      does_putP_of_eq rfl hgt, does_putP_of_eq rfl hge, does_putP_of_eq rfl hltu, does_putP_of_eq rfl hleu,
      does_putP_of_eq rfl hgtu, does_putP_of_eq rfl hgeu⟩
  · exact does_putP_of_eq rfl (by cases s.p a <;> cases s.p b <;> rfl)

/-! Branches (R289 to R293). -/

/-- A branch on a decidable condition is the case distinction of its rule. -/
theorem State.branch_decide (s : State) (c : Prop) [Decidable c] (t : Word) :
    s.branch (decide c) t = if c then s.jump t else s.advance 4 := by
  by_cases h : c <;> simp [State.branch, h]

theorem does_branch_of_iff {i : Instr} {s q : State} {c c' : Prop} [Decidable c] [Decidable c'] {t : Word}
    (hexec : Does i s (q.branch (decide c) t)) (hcc : c ↔ c') : Does i s (if c' then q.jump t else q.advance 4) := by
  rw [State.branch_decide] at hexec
  rw [ite_of_iff hcc.symm]
  exact hexec

/-- Settles O14: the transfers by their arms; `loop` by whether the register reads 1 before the decrement. -/
theorem branches : Obligations.Branches := by
  unfold Obligations.Branches
  intro s
  refine ⟨fun p e o => ?_, fun o => ⟨rfl, rfl⟩, fun r o => ⟨fun h => ?_, fun h => ?_, ?_, ?_⟩, rfl⟩
  · have h := does_b s p e o
    rw [← target_eq_ofInt] at h
    exact h
  · have hne : s.g r - 1 ≠ 0 := fun h0 => h (by rw [← BitVec.sub_add_cancel (s.g r) 1, h0]; rfl)
    have hexec : Does (.loop r o) s ((s.setG r (s.g r - 1)).branch (decide (s.g r - 1 ≠ 0)) (target s.pc o)) := rfl
    rw [decide_eq_true hne] at hexec
    exact hexec
  · have hexec : Does (.loop r o) s ((s.setG r (s.g r - 1)).branch (decide (s.g r - 1 ≠ 0)) (target s.pc o)) := rfl
    rw [h] at hexec
    exact hexec
  · exact does_branch_of_iff (c := s.g r = 0) rfl Iff.rfl
  · have hexec : Does (.bnz r o) s (s.branch (decide (s.g r ≠ 0)) (target s.pc o)) := rfl
    rw [State.branch_decide, ite_not] at hexec
    exact hexec

/-! Register jumps (R292). -/

theorem checkTarget_ok {s : State} {t : Word} (hhigh : t.toNat < 2 ^ 56) (heven : t.toNat % 2 = 0) :
    checkTarget s t = .ok () := by
  have h56 : bits t 63 56 = 0 := by unfold bits; omega
  have h0 : bits t 0 0 = 0 := by unfold bits; omega
  rw [checkTarget, if_pos h56, h0]
  rfl

theorem checkTarget_rangeNone {s : State} {t : Word} (hhigh : 2 ^ 56 ≤ t.toNat) :
    checkTarget s t = stopAt s .rangeNone t := by
  have hlt := t.isLt
  have h56 : bits t 63 56 ≠ 0 := by unfold bits; omega
  rw [checkTarget, if_neg h56]
  rfl

theorem checkTarget_misaligned {s : State} {t : Word} (hhigh : t.toNat < 2 ^ 56) (hodd : t.toNat % 2 = 1) :
    checkTarget s t = stopWith s .misalignedTarget := by
  have h56 : bits t 63 56 = 0 := by unfold bits; omega
  have h0 : bits t 0 0 = 1 := by unfold bits; omega
  rw [checkTarget, if_pos h56, h0]
  rfl

/-- What a register jump does past its check, and where the check stops it: before anything is written. -/
theorem settle_checkTarget_ok {s q : State} {t : Word} (h : checkTarget s t = .ok ()) :
    (settle do let _ ← checkTarget s t; .ok q) = .next q := by rw [h]; rfl

theorem settle_checkTarget_rangeNone {s q : State} {t : Word} (h : checkTarget s t = stopAt s .rangeNone t) :
    (settle do let _ ← checkTarget s t; .ok q) = .next (s.stop ⟨.rangeNone, t, 0, none, none⟩) := by rw [h]; rfl

theorem settle_checkTarget_misaligned {s q : State} {t : Word} (h : checkTarget s t = stopWith s .misalignedTarget) :
    (settle do let _ ← checkTarget s t; .ok q) = .next (s.stop ⟨.misalignedTarget, 0, 0, none, none⟩) := by rw [h]; rfl

/-- Settles O19: the check of the target by its three cases. -/
theorem registerJumps : Obligations.RegisterJumps := by
  unfold Obligations.RegisterJumps
  constructor
  · refine fun s a => ⟨fun hhigh heven => ?_, fun hhigh heven => ?_⟩
    · have h := checkTarget_ok (s := s) hhigh heven
      exact ⟨settle_checkTarget_ok h, settle_checkTarget_ok h⟩
    · exact settle_checkTarget_ok (checkTarget_ok hhigh heven)
  · refine fun s a => ⟨fun hhigh => ?_, fun hhigh hodd => ?_, fun hhigh => ?_, fun hhigh hodd => ?_⟩
    · have h := checkTarget_rangeNone (s := s) hhigh
      exact ⟨settle_checkTarget_rangeNone h, settle_checkTarget_rangeNone h⟩
    · have h := checkTarget_misaligned (s := s) hhigh hodd
      exact ⟨settle_checkTarget_misaligned h, settle_checkTarget_misaligned h⟩
    · exact settle_checkTarget_rangeNone (checkTarget_rangeNone hhigh)
    · exact settle_checkTarget_misaligned (checkTarget_misaligned hhigh hodd)

/-! Reset. -/

/-- Settles O3: the state after reset evaluated, tile by tile the reset tile. -/
theorem resetState : Obligations.ResetState := by
  unfold Obligations.ResetState
  refine ⟨rfl, rfl, rfl, rfl, rfl, ?_, fun t => ⟨rfl, rfl, rfl, rfl⟩, ?_, fun t => rfl⟩
  · decide
  · decide

/-- Settles O4: no byte is listed after reset. -/
theorem resetInvariant : Obligations.ResetInvariant := by
  unfold Obligations.ResetInvariant
  exact ⟨Memory.wf_nil, Memory.wf_nil⟩

/-! Steps. -/

/-- The step of a non-empty agenda performs its first entry. -/
theorem step_of_agenda {s : State} {a : Act} {r : List Act} (h : s.agenda = a :: r) :
    step s = perform a { s with agenda := r } := by rw [step, h]

theorem perform_of_not_acts {s : State} {a : Act} (h : s.acts a = false) : perform a s = .next s := by
  unfold perform
  rw [if_pos (by rw [h]; rfl)]

theorem perform_issue {s : State} {t : BitVec 10} {h : BitVec 3} (hpower : s.powered = true)
    (hmay : s.mayIssue ⟨t, h⟩ = true) : perform (.issue t h) s = s.issueNow ⟨t, h⟩ := by
  have hacts : s.acts (.issue t h) = true := hpower
  simp only [perform, hacts, State.issue, hmay]
  rfl

theorem perform_event {s : State} {e : Instr} (hacts : s.acts (.event e) = true) (hevent : isEvent e = true)
    (hwf : e.wf = true) : perform (.event e) s = exec e s := by
  simp only [perform, hacts, hevent, hwf]
  rfl

/-- An instruction that is fetched, decoded and held back by nothing runs with its thread as the current one. -/
theorem takeNext_run {s s' : State} {x : ThreadId} {w : Nat} {i : Instr} (hfetch : s.fetch x = .word s' w)
    (hdecode : decodeWord w = .ok i) {u : State}
    (hu : u = if (s'.thread x).counted then s' else s'.serve x (vectorWord w))
    (hhazard : u.hazard x i = false) (hcrowded : u.crowded x i = false) (hstop : u.vStop x i = none) :
    s.takeNext x = exec i { u.count x w with cur := x } := by
  have hcounted := congrArg Thread.counted ((keepsWork_fetch_word hfetch).thread x)
  rw [hcounted] at hu
  subst hu
  simp only [State.takeNext, hfetch, hdecode, hhazard, hcrowded, hstop]
  rfl

/-- Settles O18: the first entry of the agenda is performed, an instruction by `takeNext_run`. -/
theorem stepRuns : Obligations.StepRuns := by
  unfold Obligations.StepRuns
  constructor
  · intro s s' t h r w i q hagenda hpower hmay hfetch hdecode u hhazard hcrowded hstop
    rw [step_of_agenda hagenda, perform_issue hpower hmay, State.issueNow,
      takeNext_run hfetch hdecode rfl hhazard hcrowded hstop]
  · intro s e r q hagenda
    refine ⟨fun hevent hwf hpower => ?_, fun hpower hhub => ?_⟩
    · have hacts : q.acts (.event e) = true := Bool.or_eq_true_iff.mpr hpower
      rw [step_of_agenda hagenda, perform_event hacts hevent hwf]
    · have hacts : q.acts (.event e) = false := Bool.or_eq_false_iff.mpr ⟨hpower, hhub⟩
      rw [step_of_agenda hagenda, perform_of_not_acts hacts]

end Sys2Proof.Machine
end

section
/-! SUPPORT. How the body of an instruction goes on past its checks (R295), and the loads, stores and atomics of R294
to R304. -/

namespace Sys2Proof.Machine

open Sys2Proof.Claims

/-! Memory under what homes note of an access. -/

/-- The bytes of memory and of the cellar and the stores on their way are the same data. -/
structure KeepsStores (s t : State) : Prop where
  mem : t.mem = s.mem
  cellar : t.cellar = s.cellar
  inflight : t.inflight = s.inflight

namespace KeepsStores

theorem refl (s : State) : KeepsStores s s := ⟨rfl, rfl, rfl⟩

theorem trans {s t u : State} (h : KeepsStores s t) (h' : KeepsStores t u) : KeepsStores s u :=
  ⟨h'.mem.trans h.mem, h'.cellar.trans h.cellar, h'.inflight.trans h.inflight⟩

theorem foldl {α : Type} {f : State → α → State} (hf : ∀ s a, KeepsStores s (f s a)) (l : List α) (s : State) :
    KeepsStores s (l.foldl f s) := by
  induction l generalizing s with
  | nil => exact refl s
  | cons a l ih => exact (hf s a).trans (ih (f s a))

end KeepsStores

theorem keepsStores_modCmem (s : State) (c : Nat) (f : Cmem → Cmem) : KeepsStores s (s.modCmem c f) := ⟨rfl, rfl, rfl⟩

theorem keepsStores_touch (s : State) (pa n : Nat) (wr : Bool) : KeepsStores s (s.touch pa n wr) :=
  .foldl (fun s _ => keepsStores_modCmem s _ _) _ s

theorem keepsStores_answered (s : State) (pa n : Nat) : KeepsStores s (s.answered pa n) := by
  unfold State.answered
  dsimp only
  split
  · exact .refl s
  · exact ⟨rfl, rfl, rfl⟩

theorem keepsStores_dirtyAt (s : State) (pa n : Nat) : KeepsStores s (s.dirtyAt pa n) := by
  unfold State.dirtyAt
  split
  · exact .refl s
  · refine .foldl (fun s i => ?_) _ s
    dsimp only
    split
    · split
      · exact ⟨rfl, rfl, rfl⟩
      · exact .refl s
    · exact .refl s

theorem keepsStores_normalise (s : State) (pa n : Nat) : KeepsStores s (s.normalise pa n) :=
  (keepsStores_answered s pa n).trans ((keepsStores_dirtyAt _ pa n).trans
    (.foldl (fun s _ => keepsStores_modCmem s _ _) _ _))

theorem keepsStores_modRegion (s : State) (r : BitVec 16) (f : Region → Region) : KeepsStores s (s.modRegion r f) := by
  unfold State.modRegion
  split
  · exact ⟨rfl, rfl, rfl⟩
  · exact .refl s

theorem keepsStores_askFreeze (s : State) (r : BitVec 16) : KeepsStores s (s.askFreeze r) :=
  .foldl (fun s q => keepsStores_modRegion s q _) _ s

theorem keepsStores_senderId (s : State) (t : Option (BitVec 10)) : KeepsStores s (s.senderId t).2 := by
  cases t <;> exact ⟨rfl, rfl, rfl⟩

theorem keepsStores_sendDebug (s : State) (t : Option (BitVec 10)) (f : FaultRec) :
    KeepsStores s (s.sendDebug t f) := by
  unfold State.sendDebug
  split
  · exact ⟨rfl, rfl, rfl⟩
  · exact (keepsStores_senderId s t).trans ⟨rfl, rfl, rfl⟩

theorem keepsStores_setPairs (s : State) (pa : Nat) (w : Vector WatchPair 4) : KeepsStores s (s.setPairs pa w) := by
  unfold State.setPairs
  split
  · exact ⟨rfl, rfl, rfl⟩
  · exact ⟨rfl, rfl, rfl⟩
  · exact .refl s

theorem keepsStores_takeHit (s : State) (x : Issuer) (pa : Nat) (i : Fin 4) : KeepsStores s (s.takeHit x pa i) :=
  (keepsStores_sendDebug s _ _).trans ((keepsStores_setPairs _ pa _).trans (keepsStores_askFreeze _ _))

theorem keepsStores_seen (s : State) (x : Issuer) (k : WKind) (pa n : Nat) : KeepsStores s (s.seen x k pa n) := by
  refine .foldl (fun s i => ?_) _ s
  split
  · split
    · exact keepsStores_takeHit s x pa _
    · exact .refl s
  · exact .refl s

theorem keepsStores_watched (s : State) (x : Issuer) (k : WKind) (pa n : Nat) : KeepsStores s (s.watched x k pa n) := by
  have hseen (q : State) (a : Nat × Nat) : KeepsStores q (q.seen x k a.1 a.2) := keepsStores_seen q x k a.1 a.2
  exact (keepsStores_touch s pa n false).trans (.foldl hseen (linePieces pa n) (s.touch pa n false))

/-- What a store performed at a physical address leaves of the bytes of memory. -/
theorem State.performAt_mem (s : State) (x : Issuer) (k : WKind) (pa : Nat) (bs : List Byte) :
    (s.performAt x k pa bs).mem = writeBytes s.mem pa bs := by
  rw [State.performAt, (keepsStores_watched _ _ _ _ _).mem, State.poke_mem, (keepsStores_normalise _ _ _).mem]

/-- Settles O20: the store's own write is the only one. -/
theorem storeBytes : Obligations.StoreBytes := by
  unfold Obligations.StoreBytes
  intro s x k va pa bs t a
  have hmem : t.mem = writeBytes s.mem a bs := s.performAt_mem x k a bs
  exact ⟨fun i h => by rw [hmem, readByte_writeBytes_in bs s.mem a i h],
    fun j h => by rw [hmem, readByte_writeBytes_out bs s.mem a j h]⟩

/-! Bodies. -/

theorem ok_bind {α β : Type} (a : α) (f : α → Except Stop β) : (Except.ok a >>= f) = f a := rfl

theorem error_bind {α β : Type} (x : Stop) (f : α → Except Stop β) : (Except.error x >>= f) = .error x := rfl

theorem settle_ok (s : State) : settle (.ok s) = .next s := rfl

/-! The checks of R295. -/

theorem checkAligned_ok {s : State} {va : Word} {n : Nat} (h : va.toNat % n = 0) : checkAligned s va n = .ok () :=
  if_pos h

theorem checkAligned_misaligned {s : State} {va : Word} {n : Nat} (h : va.toNat % n ≠ 0) :
    checkAligned s va n = .error (.fault .misaligned va 0 s) := if_neg h

theorem useScopeAt_ok {s : State} {c : BitVec 4} {x : Sets} (va : Word) (h : useScope s c = .ok x) :
    useScopeAt s va c = .ok x := by rw [useScopeAt, h]

theorem checkPoison_clean {s : State} {pa n : Nat} (va : Word) (h : firstPoison s.poison pa n = none) :
    checkPoison s va pa n = .ok () := by rw [checkPoison, h]

/-- A load at the home that meets no poison (R298). -/
theorem loadHome_clean {s q : State} {va : Word} {pa n : Nat} (k : WKind) (hq : s.drainAt va.toNat pa = q)
    (h : firstPoison q.poison (q.forwarded va.toNat pa) n = none) :
    loadHome s va pa n k = .ok
      (((q.dropBoth q.cur.tile pa (q.forwarded va.toNat pa)).watched q.issuer k (q.forwarded va.toNat pa) n).consumeOnce
        (q.forwarded va.toNat pa) n, q.peek (q.forwarded va.toNat pa) n) := by
  subst hq
  simp only [loadHome, checkPoison_clean va h, ok_bind]

theorem loadsAtHome : Claims.LoadsAtHome := by
  intro s s' d b z o e pa n va read value clean
  refine ⟨?_, ?_⟩
  · rintro q ⟨halign, haccess⟩ hclean
    show execLdVol d b z o s = _
    rw [execLdVol]
    simp only [show accessSize z = n from rfl, show s.memAddr b o n = va from rfl, checkAligned_ok halign, haccess,
      ok_bind,
      loadHome_clean .rd (show s'.drainVol.drainAt va.toNat pa = q from rfl) hclean, settle_ok]
    rfl
  · rintro c x hscope q ⟨halign, haccess⟩ hclean
    show execLdAcq d b z c o s = _
    rw [execLdAcq]
    simp only [show accessSize z = n from rfl, show s.memAddr b o n = va from rfl, checkAligned_ok halign, haccess,
      ok_bind,
      useScopeAt_ok va hscope, loadHome_clean .rd (show (s'.volPoint e).drainAt va.toNat pa = q from rfl) hclean,
        settle_ok]
    rfl

end Sys2Proof.Machine
end

section
/-! SUPPORT. Plain loads, stores and the stops of R295, and the atomics of R300 to R304. -/

namespace Sys2Proof.Machine

open Sys2Proof.Claims

theorem readsHome_of {s : State} {e : RangeEntry} {pa : Nat} (h : ownArray s.cur.tile pa = true ∨ e.vol = true) :
    s.readsHome e pa = true := by
  rcases h with h | h <;> simp [State.readsHome, h]

/-- A plain load from the own array or through a VOLATILE range that meets no poison (R130, R297). -/
theorem loadPlain_atHome {s q : State} {va : Word} {e : RangeEntry} {pa n : Nat}
    (hhome : ownArray s.cur.tile pa = true ∨ e.vol = true) (hq : (s.volPoint e).drainAt va.toNat pa = q)
    (h : firstPoison q.poison (q.forwarded va.toNat pa) n = none) :
    let a := q.forwarded va.toNat pa
    let r := (q.dropBoth q.cur.tile pa a).watched q.issuer .rd a n
    loadPlain s va e pa n = .ok (r.consumeOnce (r.forwarded va.toNat pa) n, q.peek a n) := by
  have hor : (ownArray s.cur.tile pa || e.vol) = true := by simpa using hhome
  subst hq
  simp only [loadPlain, loadRead, hor, if_true, checkPoison_clean va h, ok_bind, readsHome_of hhome]

/-- A plain load that finds its line in the L1 (R109). -/
theorem loadPlain_l1 {s : State} {va : Word} {e : RangeEntry} {pa n : Nat} {l : CacheLine}
    (hown : ownArray s.cur.tile pa = false) (hvol : e.vol = false) (hl : (s.tile s.cur.tile).l1Line pa = some l) :
    loadPlain s va e pa n = .ok (s, lineBytes l.data (pa % 128) n) := by
  have hnot : s.readsHome e pa = false := by simp [State.readsHome, hown, hvol, hl]
  simp only [loadPlain, loadRead, hown, hvol, Bool.or_self, Bool.false_eq_true, if_false, hl, ok_bind, hnot]

/-- A plain load that misses the L1 and meets no poison (R109). -/
theorem loadPlain_miss {s q : State} {va : Word} {e : RangeEntry} {pa n : Nat}
    (hown : ownArray s.cur.tile pa = false) (hvol : e.vol = false) (hl : (s.tile s.cur.tile).l1Line pa = none)
    (hq : s.drainAt va.toNat pa = q) (h : firstPoison q.poison (q.forwarded va.toNat pa) n = none) :
    let a := q.forwarded va.toNat pa
    let f := if ownArray q.cur.tile a = true ∨ poisoned q.poison (a / 128 * 128) 128 = true then q.dropBoth
      q.cur.tile pa a
      else q.fillL1 q.cur.tile pa a
    let r := f.watched f.issuer .rd a n
    loadPlain s va e pa n = .ok (r.consumeOnce (r.forwarded va.toNat pa) n, q.peek a n) := by
  have hreads : s.readsHome e pa = true := by simp [State.readsHome, hl]
  subst hq
  simp only [loadPlain, loadRead, hown, hvol, Bool.or_self, Bool.false_eq_true, if_false, hl, checkPoison_clean va h,
    ok_bind,
    hreads, if_true, Bool.or_eq_true]

theorem plainLoads : Claims.PlainLoads := by
  rintro s s' d b z o e pa n va value clean used ⟨halign, haccess⟩
  have hexec {t : State} {bs : List Byte} (h : loadPlain s' va e pa n = .ok (t, bs)) :
      Does (.ld d b z o) s (t.putG d (wordOf bs)) := by
    show execLd d b z o s = _
    rw [execLd]
    simp only [show accessSize z = n from rfl, show s.memAddr b o n = va from rfl, checkAligned_ok halign, haccess,
      ok_bind, h,
      settle_ok]
  refine ⟨fun hhome hclean => ?_, fun hown hvol => ⟨fun l hl => ?_, fun hl hclean => ?_⟩⟩
  · exact hexec (loadPlain_atHome hhome rfl hclean)
  · exact hexec (loadPlain_l1 hown hvol hl)
  · exact hexec (loadPlain_miss hown hvol hl rfl hclean)

theorem prefetch_does : Claims.Prefetch := fun _ _ _ => rfl

/-- Settles O22: plain loads by where they read, the others at the home. -/
theorem loads : Obligations.Loads := by
  unfold Obligations.Loads
  exact ⟨plainLoads, loadsAtHome, prefetch_does⟩

/-! Stores. -/

/-- What `issueStore` does by the home that performs the store. -/
theorem stored_issueStore (s : State) (va : Word) (pa : Nat) (bs : List Byte) (vol : Bool) (x : Option Sets) :
    Stored s va pa bs vol x ((issueStore s va pa bs vol x).advance 4) := by
  refine ⟨fun hown => ?_, fun hown => ?_⟩
  · exact congrArg (fun q : State => q.advance 4) (if_pos hown)
  · exact congrArg (fun q : State => q.advance 4) (if_neg (ne_true_of_eq_false hown))

theorem plainStores : Claims.PlainStores := by
  rintro s s' d b z o e pa n va ⟨halign, haccess⟩
  refine ⟨_, ?_, stored_issueStore s' va pa _ e.vol none⟩
  show execSt d b z o s = _
  rw [execSt]
  simp only [show accessSize z = n from rfl, show s.memAddr b o n = va from rfl, checkAligned_ok halign, haccess,
    ok_bind,
    settle_ok]
  rfl

theorem storesAtHome : Claims.StoresAtHome := by
  intro s s' d b z o e pa n va
  refine ⟨?_, ?_⟩
  · rintro ⟨halign, haccess⟩
    refine ⟨_, ?_, stored_issueStore s' va pa _ true none⟩
    show execStVol d b z o s = _
    rw [execStVol]
    simp only [show accessSize z = n from rfl, show s.memAddr b o n = va from rfl, checkAligned_ok halign, haccess,
      ok_bind,
      settle_ok]
    rfl
  · rintro c x hscope ⟨halign, haccess⟩
    refine ⟨_, ?_, stored_issueStore (s'.release x) va pa _ e.vol (some x)⟩
    show execStRel d b z c o s = _
    rw [execStRel]
    simp only [show accessSize z = n from rfl, show s.memAddr b o n = va from rfl, checkAligned_ok halign, haccess,
      ok_bind,
      useScopeAt_ok va hscope, settle_ok]
    rfl

/-- Settles O23, by the act that all stores share. -/
theorem stores : Obligations.Stores := by
  unfold Obligations.Stores
  exact ⟨plainStores, storesAtHome⟩

/-! Atomics. -/

/-- An atomic whose checks pass finds its home as `atHome` says, and goes on with the old value there (R177). -/
theorem atomicAct_clean {s s' : State} {va : Word} {n : Nat} {c : BitVec 4} {x : Sets} {e : RangeEntry} {pa : Nat}
    {held : Bool} (f : Nat → Option Nat) (hscope : useScope s c = .ok x)
    (hmapped : Mapped s va n [.read, .write] true held s' e pa)
    (hclean : firstPoison (atHome s' x e va pa).poison ((atHome s' x e va pa).forwarded va.toNat pa) n = none) :
    let q := atHome s' x e va pa
    let w := q.forwarded va.toNat pa
    let old := oldValue s' x e va pa n
    atomicAct s va n c held f = .ok
      (((f old).elim ((q.watched q.issuer .amo w n).consumeOnce w n) (newValue s' x e va pa n)), x, old,
        (f old).isSome) := by
  intro q w old
  obtain ⟨halign, haccess⟩ := hmapped
  have hwhere : (((s'.release x).volPoint e).drainAt va.toNat pa).forwarded va.toNat pa = w := rfl
  have hhome (t : State) (ht : ((s'.release x).volPoint e).drainAt va.toNat pa = t) :
    t.dropBoth t.cur.tile pa w = q := by
    subst ht; rfl
  have hpoison : checkPoison q va w n = .ok () := checkPoison_clean va hclean
  have hold : q.peekNat w n = old := rfl
  simp only [atomicAct, useScopeAt_ok va hscope, checkAligned_ok halign, haccess, ok_bind, hwhere, hhome _ rfl,
    hpoison, hold]
  cases f old <;> rfl

/-- An atomic whose checks pass and that writes a new value. -/
theorem atomicAct_write {s s' : State} {va : Word} {n : Nat} {c : BitVec 4} {x : Sets} {e : RangeEntry} {pa new : Nat}
    {held : Bool} {f : Nat → Option Nat} (hscope : useScope s c = .ok x)
    (hmapped : Mapped s va n [.read, .write] true held s' e pa)
    (hclean : firstPoison (atHome s' x e va pa).poison ((atHome s' x e va pa).forwarded va.toNat pa) n = none)
    (hnew : f (oldValue s' x e va pa n) = some new) :
    atomicAct s va n c held f = .ok (newValue s' x e va pa n new, x, oldValue s' x e va pa n, true) := by
  have hact := atomicAct_clean f hscope hmapped hclean
  simp only [hnew] at hact
  exact hact

theorem bits_low (x : Word) : bits x 31 0 = x.toNat % 2 ^ 32 := by simp [bits]

theorem atomicForms : Claims.AtomicForms := by
  intro s s' d a b c o x e pa va done w
  refine ⟨?_, ?_⟩
  · rintro ⟨hscope, hmapped, hclean⟩
    show execAmoD d a b c o s = _
    rw [execAmoD, atomicAct_clean _ hscope hmapped hclean]
    rfl
  · rintro ⟨hscope, hmapped, hclean⟩
    refine ⟨?_, ?_, ?_⟩
    · show execAmoW d a b c o s = _
      rw [execAmoW, bits_low, atomicAct_clean _ hscope hmapped hclean]
      rfl
    · show execAmoFFp32 d a b c s = _
      rw [execAmoFFp32, bits_low, atomicAct_clean _ hscope hmapped hclean]
      rfl
    · show execAmoFBf16 d a b c s = _
      rw [execAmoFBf16, bits_low, atomicAct_clean _ hscope hmapped hclean]
      rfl

/-- A `cas` whose checks pass, by what its comparison gives (R303). -/
theorem does_cas {s s' : State} {d a b : BitVec 5} {c : BitVec 4} {z : BitVec 1} {x : Sets} {e : RangeEntry} {pa : Nat}
    (hruns : AtomicRuns s (s.g a) (if z = 0 then 4 else 8) c x s' e pa)
    (r : Option Nat) :
    let n := if z = 0 then 4 else 8
    let va := s.g a
    let q := atHome s' x e va pa
    let w := q.forwarded va.toNat pa
    let old := oldValue s' x e va pa n
    (if old = (s.g d).toNat % 2 ^ (8 * n) then some ((s.g b).toNat % 2 ^ (8 * n)) else none) = r →
    Does (.cas d a b c z) s
      ((((r.elim ((q.watched q.issuer .amo w n).consumeOnce w n) (newValue s' x e va pa n)).acquire x).setP 7
        r.isSome).putG d (BitVec.ofNat 64 old)) := by
  obtain ⟨hscope, hmapped, hclean⟩ := hruns
  rintro n va q w old rfl
  show execCas d a b c z s = _
  have hact := atomicAct_clean (fun y => if y = (s.g d).toNat % 2 ^ (8 * n) then some ((s.g b).toNat % 2 ^ (8 * n))
    else none)
    hscope hmapped hclean
  exact congrArg (fun y => settle (y >>= fun y => .ok (((y.1.acquire y.2.1).setP 7 y.2.2.2).putG d (wd y.2.2.1)))) hact

theorem compareAndSwap : Claims.CompareAndSwap := by
  intro s s' d a b c z x e pa n va q w old hruns
  exact ⟨fun heq => does_cas hruns (some ((s.g b).toNat % 2 ^ (8 * n))) (if_pos heq),
    fun hne => does_cas hruns none (if_neg hne)⟩

/-- A word of n bits as the signed number that an integer atomic compares (R301). -/
def signedNat (n : Nat) (x : Nat) : Int := if 2 * x < 2 ^ n then x else (x : Int) - (2 ^ n : Nat)

theorem slt_iff_signedNat {n : Nat} (x y : BitVec n) :
    x.slt y = true ↔ signedNat n x.toNat < signedNat n y.toNat := by
  rw [BitVec.slt_iff_toInt_lt, BitVec.toInt_eq_toNat_cond, BitVec.toInt_eq_toNat_cond]; rfl

/-- The number of a word that a condition chooses. -/
theorem ite_toNat_of_iff {n : Nat} {c c' : Prop} [Decidable c] [Decidable c'] (h : c' ↔ c) (x y : BitVec n) :
    (if c then x.toNat else y.toNat) = (if c' then x else y).toNat := by
  rw [apply_ite BitVec.toNat c' x y]; exact ite_of_iff h.symm _ _

/-- The atomics of k bytes give the values of R301 on words of 8 * k bits. -/
theorem amoValues (k : Nat) : Claims.AmoValues (8 * k) (fun op => amoValue op k) := fun x y =>
  ⟨(BitVec.toNat_add x y).symm, (BitVec.toNat_and x y).symm, (BitVec.toNat_or x y).symm, (BitVec.toNat_xor x y).symm,
    ite_toNat_of_iff (slt_iff_signedNat y x) y x, ite_toNat_of_iff (slt_iff_signedNat x y) y x,
    ite_toNat_of_iff BitVec.ult_iff_toNat_lt y x, ite_toNat_of_iff BitVec.ult_iff_toNat_lt y x, rfl⟩

/-- Settles O24: the act that the atomics share, and the arithmetic of the new values. -/
theorem atomics : Obligations.Atomics := by
  unfold Obligations.Atomics
  exact ⟨atomicForms, ⟨amoValues 4, amoValues 8⟩, compareAndSwap⟩

end Sys2Proof.Machine
end

section
/-! SUPPORT. Stops before an access (R295), and synchronisation: fences, barriers, timeline waits and scopes (R305 to
R311). -/

namespace Sys2Proof.Machine

open Sys2Proof.Claims

/-! How a body that stops ends. -/

/-- A body whose first step stops with a cause. -/
theorem settle_bind_fault {α : Type} {x : Except Stop α} {c : Cause} {addr info : Word} {s : State}
    (h : x = .error (.fault c addr info s)) (f : α → Body) :
    settle (x >>= f) = .next (s.stop ⟨c, addr, info, none, none⟩) := by rw [h]; rfl

/-- A body whose first step has an answer goes on with it. -/
theorem settle_bind_ok {α : Type} {x : Except Stop α} {a : α} (h : x = .ok a) (f : α → Body) :
    settle (x >>= f) = settle (f a) := by rw [h]; rfl

theorem bind_fault {α β : Type} {x : Except Stop α} {c : Cause} {addr info : Word} {s : State}
    (h : x = .error (.fault c addr info s)) (f : α → Except Stop β) :
    (x >>= f) = .error (.fault c addr info s) := by rw [h]; rfl

/-! Stops of a scope and of an address. -/

/-- The scope of an access may not be used (R169). -/
def ScopeStops (s : State) (c : BitVec 4) (k : Cause) : Prop :=
  2 ≤ c.toNat ∧ c.toNat ≤ 13 ∧
    ((s.scopeCopy s.self.region c).state = 0 ∧ k = Cause.scopeFree ∨
      (s.scopeCopy s.self.region c).state = 2 ∧ k = Cause.scopeRetired)

theorem fixedScope_eq_false {c : BitVec 4} (hlo : 2 ≤ c.toNat) (hhi : c.toNat ≤ 13) : fixedScope c = false := by
  simp [fixedScope]; omega

theorem useScope_stops {s : State} {c : BitVec 4} {k : Cause} (h : ScopeStops s c k) :
    useScope s c = .error (.fault k 0 (c.setWidth 64) s) := by
  obtain ⟨hlo, hhi, hstate⟩ := h
  rcases hstate with ⟨hstate, rfl⟩ | ⟨hstate, rfl⟩ <;>
    simp [useScope, fixedScope_eq_false hlo hhi, hstate]

theorem useScopeAt_stops {s : State} {c : BitVec 4} {k : Cause} (va : Word) (h : ScopeStops s c k) :
    useScopeAt s va c = .error (.fault k va (c.setWidth 64) s) := by rw [useScopeAt, useScope_stops h]

theorem atomicAct_stops {s : State} {c : BitVec 4} {k : Cause} (va : Word) (n : Nat) (held : Bool)
    (f : Nat → Option Nat)
    (h : ScopeStops s c k) : atomicAct s va n c held f = .error (.fault k va (c.setWidth 64) s) :=
  bind_fault (useScopeAt_stops va h) _

theorem atomicAct_misaligned {s : State} {c : BitVec 4} {x : Sets} {va : Word} {n : Nat} (held : Bool)
    (f : Nat → Option Nat) (hscope : useScope s c = .ok x) (h : va.toNat % n ≠ 0) :
    atomicAct s va n c held f = .error (.fault .misaligned va 0 s) := by
  rw [atomicAct, useScopeAt_ok va hscope, ok_bind]
  exact bind_fault (checkAligned_misaligned h) _

/-- A body that first uses its scope and then needs an aligned address. -/
theorem settle_scoped_misaligned {s : State} {c : BitVec 4} {x : Sets} {va : Word} {n : Nat} (f : Sets → Unit → Body)
    (hscope : useScope s c = .ok x) (h : va.toNat % n ≠ 0) :
    settle (useScopeAt s va c >>= fun x => checkAligned s va n >>= f x) =
      .next (s.stop ⟨.misaligned, va, 0, none, none⟩) := by
  rw [useScopeAt_ok va hscope, ok_bind]
  exact settle_bind_fault (checkAligned_misaligned h) _

/-! `bar.init` whose count is in range, and `bar.wait` in its first test. -/

theorem execBarInit_of_count {s : State} {a b : BitVec 5} {c : BitVec 4} (hcount : s.g b ≠ 0 ∧ (s.g b).toNat < 2 ^ 24) :
    execBarInit a b c s = settle (do
      let sets ← useScopeAt s (s.g a) c
      let _ ← checkAligned s (s.g a) 8
      let (t, e, pa) ← checkAccess s (s.g a) 8 [.write] true true
      let q := atHome t sets e (s.g a) pa
      .ok (((q.performStore q.issuer .amo (s.g a).toNat pa (leBytes 8 (s.g b).toNat)).wakeBarrier
        (q.forwarded (s.g a).toNat pa)).putP 7 true)) := by
  have hzero : (s.g b).toNat ≠ 0 := fun h => hcount.1 (BitVec.eq_of_toNat_eq h)
  have hnot : ¬((s.g b).toNat = 0 ∨ 2 ^ 24 - 1 < (s.g b).toNat) := by omega
  rw [execBarInit, if_neg hnot]
  rfl

theorem flush_nil {s : State} (h : s.self.sends = []) : flush s = .ok s := by rw [flush, h]; rfl

theorem execBarWait_first {s : State} {a b : BitVec 5} {c : BitVec 4}
    (hwaits : NotReclaimed s ∧ s.self.sends = [] ∧ s.self.captured = none) :
    execBarWait a b c s = settle (do
      let sets ← useScopeAt s (s.g a) c
      let _ ← checkAligned s (s.g a) 8
      let (t, e, pa) ← checkAccess s (s.g a) 8 [.read] false true
      let (t, bs) ← loadHome (t.volPoint e) (s.g a) pa 8 .rd
      if leNat bs / 2 ^ 48 = bits (t.g b) 15 0 then
        .error (t.barrierWait (t.forwarded (s.g a).toNat pa) sets)
      else .ok ((t.acquire sets).advance 4)) := by
  obtain ⟨hpoint, hsends, hcaptured⟩ := hwaits
  rw [execBarWait, show reclaimPoint s = .ok () from hpoint, ok_bind, flush_nil hsends, ok_bind, hcaptured]

/-- Settles O21: the first two checks of each form. -/
theorem accessStops : Obligations.AccessStops := by
  unfold Obligations.AccessStops
  intro s d a b z o p y va count waits odd
  refine ⟨?_, ?_, ?_, ?_, fun c x hscope => ⟨?_, ?_, ?_, ?_, ?_, ?_, ?_, ?_, ?_, ?_⟩,
    fun c hlo hhi k hstate => ?_⟩
  · exact fun h => settle_bind_fault (checkAligned_misaligned h) _
  · exact fun h => settle_bind_fault (checkAligned_misaligned h) _
  · exact fun h => settle_bind_fault (checkAligned_misaligned h) _
  · exact fun h => settle_bind_fault (checkAligned_misaligned h) _
  · exact fun h => settle_scoped_misaligned _ hscope h
  · exact fun h => settle_scoped_misaligned _ hscope h
  · exact fun h => settle_bind_fault (atomicAct_misaligned _ _ hscope h) _
  · exact fun h => settle_bind_fault (atomicAct_misaligned _ _ hscope h) _
  · exact fun h => settle_bind_fault (atomicAct_misaligned _ _ hscope h) _
  · exact fun h => settle_bind_fault (atomicAct_misaligned _ _ hscope h) _
  · exact fun h => settle_bind_fault (atomicAct_misaligned _ _ hscope h) _
  · exact fun hcount h => (execBarInit_of_count hcount).trans (settle_scoped_misaligned _ hscope h)
  · exact fun h => settle_bind_fault (atomicAct_misaligned _ _ hscope h) _
  · exact fun hwaits h => (execBarWait_first hwaits).trans (settle_scoped_misaligned _ hscope h)
  · have hstops : ScopeStops s c k := ⟨hlo, hhi, hstate⟩
    refine ⟨settle_bind_fault (useScopeAt_stops va hstops) _, settle_bind_fault (useScopeAt_stops va hstops) _,
      settle_bind_fault (atomicAct_stops _ _ _ _ hstops) _, settle_bind_fault (atomicAct_stops _ _ _ _ hstops) _,
      settle_bind_fault (atomicAct_stops _ _ _ _ hstops) _, settle_bind_fault (atomicAct_stops _ _ _ _ hstops) _,
      settle_bind_fault (atomicAct_stops _ _ _ _ hstops) _, fun hcount => ?_,
      settle_bind_fault (atomicAct_stops _ _ _ _ hstops) _, fun hwaits => ?_,
      settle_bind_fault (useScope_stops hstops) _, settle_bind_fault (useScope_stops hstops) _⟩
    · exact (execBarInit_of_count hcount).trans (settle_bind_fault (useScopeAt_stops (s.g a) hstops) _)
    · exact (execBarWait_first hwaits).trans (settle_bind_fault (useScopeAt_stops (s.g a) hstops) _)

end Sys2Proof.Machine
end

section
/-! SUPPORT. What synchronisation does where nothing stops it: fences, events, pauses, timeline waits, barriers and
scopes (R305 to R311). -/

namespace Sys2Proof.Machine

open Sys2Proof.Claims

/-! Fences, events and pauses. -/

theorem execPause_eq (b : BitVec 5) (s : State) :
    execPause b s = .next (if min (s.g b).toNat (2 ^ 20) = 0 then s.advance 4
      else (s.advance 4).modSelf fun t =>
        { t with hold := .pause ((s.advance 4).cyc.toNat + min (s.g b).toNat (2 ^ 20)) }) := rfl

theorem fenceForms : Claims.FenceForms := by
  refine fun s => ⟨fun c x hscope => ⟨settle_bind_ok hscope _, fun hconf => ?_⟩, fun hlatch => ?_, fun d c => rfl,
    fun b => ⟨fun hzero => ?_, fun hne => ?_⟩⟩
  · exact (settle_bind_ok hscope _).trans (settle_bind_ok (checkHeld_of_confirmed hconf false) _)
  · show settle _ = _
    rw [if_pos hlatch]; rfl
  · exact (execPause_eq b s).trans (by rw [hzero]; rfl)
  · have hnat : (s.g b).toNat ≠ 0 := fun h => hne (BitVec.eq_of_toNat_eq h)
    exact (execPause_eq b s).trans (by rw [if_neg (by omega)])

/-! Timeline waits. -/

theorem checkDeferred_none {s : State} {p : Deferred → Bool} (h : ∀ d ∈ s.self.deferred, ¬p d = true) :
    checkDeferred s p = .ok () := by
  rw [checkDeferred, List.find?_eq_none.mpr h]

theorem timelineWait : Claims.TimelineWait := by
  intro s b c n e hpoint hsends hdone hdeferred
  have hnot : ¬(n ≠ 0 ∧ n ≤ e.issued.toNat ∧ e.complete.toNat < n) := by omega
  have hcheck : checkDeferred s (fun d => d.ctx = c && d.number.toNat ≤ n) = .ok () :=
    checkDeferred_none fun d hd => by simpa using hdeferred d hd
  show execTlwait b c s = _
  rw [execTlwait, show reclaimPoint s = .ok () from hpoint, ok_bind, flush_nil hsends, ok_bind]
  exact (congrArg settle (if_neg hnot)).trans (settle_bind_ok hcheck _)

/-- Settles O25. -/
theorem fencesAndEvents : Obligations.FencesAndEvents := by
  unfold Obligations.FencesAndEvents
  exact ⟨fenceForms, timelineWait⟩

/-! Barriers. -/

/-- Fields of a barrier word that do not overlap are put together as their sum (R183). -/
theorem or_fields {f a n : Nat} (ha : a < 2 ^ 24) (hn : n < 2 ^ 24) :
    f * 2 ^ 48 ||| a * 2 ^ 24 ||| n = f * 2 ^ 48 + a * 2 ^ 24 + n := by
  have hlow : a * 2 ^ 24 < 2 ^ 48 := by omega
  rw [Nat.mul_comm f, Nat.mul_comm a, ← Nat.two_pow_add_eq_or_of_lt (by omega) f,
    show 2 ^ 48 * f + 2 ^ 24 * a = 2 ^ 24 * (2 ^ 24 * f + a) by omega, ← Nat.two_pow_add_eq_or_of_lt hn]

/-- An arrival in a word by the fields of the word. -/
theorem arrived_fields {f k n : Nat} (hn : n < 2 ^ 24) (hk : k < 2 ^ 24) (g : Nat) :
    arrived (f * 2 ^ 48 + k * 2 ^ 24 + n) g =
      if n = 0 ∨ f ≠ g then none
      else if k + 1 = n then some ((f + 1) % 2 ^ 16 * 2 ^ 48 + n)
      else some (f * 2 ^ 48 ||| (k + 1) * 2 ^ 24 ||| n) := by
  have hlow : (f * 2 ^ 48 + k * 2 ^ 24 + n) % 2 ^ 24 = n := by omega
  have hmid : (f * 2 ^ 48 + k * 2 ^ 24 + n) / 2 ^ 24 % 2 ^ 24 = k := by omega
  have hhigh : (f * 2 ^ 48 + k * 2 ^ 24 + n) / 2 ^ 48 = f := by omega
  simp only [arrived, hlow, hmid, hhigh]

theorem barrierWords : Claims.BarrierWords := by
  intro s s' a b c x e pa
  refine ⟨fun hcount => ?_, fun hne hlt hscope hmapped => ?_, ?_, fun n f hpos hn hf => ?_, fun f => ?_⟩
  · have hout : (s.g b).toNat = 0 ∨ 2 ^ 24 - 1 < (s.g b).toNat := by
      rcases hcount with h | h
      · exact .inl (by rw [h]; rfl)
      · exact .inr (by omega)
    exact congrArg settle (if_pos hout)
  · obtain ⟨halign, haccess⟩ := hmapped
    refine (execBarInit_of_count ⟨hne, hlt⟩).trans ?_
    rw [useScopeAt_ok _ hscope, ok_bind, checkAligned_ok halign, ok_bind, haccess]
    rfl
  · intro n k f hn hk hf w
    refine ⟨?_, fun g hg => ?_⟩
    · rw [arrived_fields hn (by omega), if_neg (by omega), or_fields (by omega) hn, apply_ite some]
    · rw [arrived_fields hn (by omega), if_pos (.inr (Ne.symm hg))]
  · refine (arrived_fields ?_ ?_ _).trans ((if_neg ?_).trans (if_neg ?_)) <;> omega
  · simpa using arrived_fields (f := f) (k := 0) (n := 0) (by decide) (by decide) f

theorem bits_half (x : Word) : bits x 15 0 = x.toNat % 2 ^ 16 := by simp [bits]

/-- `bar.arrive` past its atomic act, whose address translates again (R307). -/
theorem execBarArrive_of_act {s t u : State} {a b : BitVec 5} {c : BitVec 4} {x : Sets} {old : Nat} {f : RangeEntry}
    (hact : atomicAct s (s.g a) 8 c true (fun w => arrived w (bits (s.g b) 15 0)) = .ok (t, x, old, true))
    (htrans : t.translate t.cur.tile t.self.region (t.lineage t.me) (s.g a) 8 .read = .ok (u, f)) :
    execBarArrive a b c s =
      .next ((t.wakeBarrier (t.forwarded (s.g a).toNat (f.phys (s.g a).toNat))).advance 4) := by
  simp only [execBarArrive, hact, ok_bind, if_true, htrans, settle_ok]

theorem barrierActs : Claims.BarrierActs := by
  intro s s' a b c x e pa va
  refine ⟨?_, fun hpoint hsends hcaptured hscope hmapped => ?_⟩
  · intro q new u f hscope hmapped hclean hnew t htrans
    refine execBarArrive_of_act (atomicAct_write hscope hmapped hclean ?_) htrans
    rw [bits_half]; exact hnew
  · intro q w hclean hphase
    obtain ⟨halign, haccess⟩ := hmapped
    have hvol : KeepsWork s' (if e.vol = true then s'.drainVol else s') := by
      split
      · exact keepsWork_drainVol s'
      · exact .refl s'
    have hq : KeepsWork s q := (keepsWork_checkAccess_ok haccess).trans (hvol.trans (keepsWork_drainAt _ _ _))
    have hg := (hq.trans ((keepsWork_dropBoth q q.cur.tile pa w).trans ((keepsWork_watched _ q.issuer .rd w 8).trans
      (keepsWork_consumeOnce _ w 8)))).g b
    refine (execBarWait_first ⟨hpoint, hsends, hcaptured⟩).trans ?_
    rw [useScopeAt_ok _ hscope, ok_bind, checkAligned_ok halign, ok_bind, haccess, ok_bind]
    refine (settle_bind_ok (loadHome_clean (q := q) .rd rfl hclean) _).trans (congrArg settle (if_neg ?_))
    rw [hg, bits_half]
    exact hphase

/-- Settles O26: words by their fields, acts by the atomic act and the read at the home. -/
theorem barriers : Obligations.Barriers := by
  unfold Obligations.Barriers
  exact ⟨barrierWords, barrierActs⟩

/-! Scopes. -/

theorem fixedScope_eq_true {c : BitVec 4} (h : c.toNat < 2 ∨ 14 ≤ c.toNat) : fixedScope c = true := by
  simp [fixedScope]; omega

theorem scopeForms : Claims.ScopeForms := by
  intro s d c
  refine ⟨fun hfixed => ?_, fun hlo hhi => ?_, fun hconf => ?_⟩
  · exact if_pos (fixedScope_eq_true hfixed)
  · exact if_neg (ne_true_of_eq_false (fixedScope_eq_false hlo hhi))
  · intro q x
    have hexec : execScopeRetire c s = .next (((if x.state = 1 then
        (q.setScopeCopy q.self.region c { x with state := 2 }).pokeNat (q.scopeEntry q.self.region c) 8
          ({ x with state := 2 } : ScopeCopy).word0
        else q).acquire setsDevice).putP 7 (decide (x.state = 1))) :=
      settle_bind_ok (checkHeld_of_confirmed hconf false) _
    refine ⟨fun hne => hexec.trans ?_, fun hlive => ?_⟩
    · rw [if_neg hne, decide_eq_false hne]
    · intro y
      refine hexec.trans ?_
      rw [if_pos hlive, decide_eq_true hlive]

theorem scopeSet : Claims.ScopeSet := by
  intro s s1 s2 s3 s4 a c e pa bs tiles spads q hmapped hload hdesc htiles hspads r
  obtain ⟨halign, haccess⟩ := hmapped
  have hneed : need s2 (scopeDescOk (wordAt bs 0) (wordAt bs 2) (wordAt bs 3)) .reservedField = .ok () := by
    rw [hdesc]; rfl
  have hexec : execScopeSet a c s = .next (((if (s4.scopeCopy r c).state = 0 then
      s4.scopeLive r c (bit (wordAt bs 0) 2) (wordAt bs 1) (wordAt bs 2) (wordAt bs 3) tiles spads else s4).acquire
        setsDevice).putP 7 (decide ((s4.scopeCopy r c).state = 0))) := by
    rw [execScopeSet]
    refine (settle_bind_ok (checkAligned_ok halign) _).trans ((settle_bind_ok haccess _).trans
      ((settle_bind_ok hload _).trans ((settle_bind_ok hneed _).trans ((settle_bind_ok htiles _).trans ?_))))
    rcases hspads with ⟨hzero, rfl, rfl⟩ | ⟨hne, hspads⟩
    · exact congrArg settle (if_pos hzero)
    · exact (congrArg settle (if_neg hne)).trans (settle_bind_ok hspads _)
  refine ⟨fun hfree => hexec.trans ?_, fun hne => hexec.trans ?_⟩
  · rw [if_pos hfree, decide_eq_true hfree]
  · rw [if_neg hne, decide_eq_false hne]

/-- Settles O27. -/
theorem scopes : Obligations.Scopes := by
  unfold Obligations.Scopes
  exact ⟨scopeForms, scopeSet⟩

end Sys2Proof.Machine
end

section
/-! SUPPORT. The frames of register writes (R278, R335), and the elements of vector registers (R234, R333). -/

namespace Sys2Proof.Machine

open Sys2Proof.Claims

/-! Frames. -/

theorem sameElsewhere_modSelf (s : State) (f : Thread → Thread) : SameElsewhere s (s.modSelf f) := by
  refine ⟨fun i hi => ?_, fun h hh => ?_, rfl⟩
  · rw [State.tile_modSelf, if_neg (Ne.symm hi)]
  · rw [State.tile_modSelf, if_pos rfl, Tile.thread_setThread, if_neg (Ne.symm hh)]

theorem sameElsewhere_advance {s t : State} (hcur : t.cur = s.cur) (h : SameElsewhere s t) (n : Nat) :
    SameElsewhere s (t.advance n) := by
  obtain ⟨htiles, hthreads, hrest⟩ := h
  obtain ⟨htiles', hthreads', -⟩ := sameElsewhere_modSelf t fun x =>
    { x with pc := x.pc + wd n, hold := .free, counted := false, polls := 0, captured := none }
  rw [hcur] at htiles' hthreads'
  exact ⟨fun i hi => (htiles' i hi).trans (htiles i hi), fun i hi => (hthreads' i hi).trans (hthreads i hi), hrest⟩

theorem State.self_advance (s : State) (n : Nat) :
    (s.advance n).self =
      { s.self with pc := s.pc + wd n, hold := .free, counted := false, polls := 0, captured := none } :=
  State.self_modSelf s _

/-- What a change of the current thread that keeps its pc leaves elsewhere once the instruction has completed. -/
theorem frame_modSelf_advance (s : State) (f : Thread → Thread) (n : Nat) (hrest : SameRest s.self (f s.self))
    (hpc : (f s.self).pc = s.self.pc) :
    ((s.modSelf f).advance n).pc = s.pc + wd n ∧ SameRest s.self ((s.modSelf f).advance n).self ∧
      SameElsewhere s ((s.modSelf f).advance n) ∧ SameMemory s ((s.modSelf f).advance n) := by
  refine ⟨?_, ?_, sameElsewhere_advance (s := s) (t := s.modSelf f) rfl (sameElsewhere_modSelf s f) n, fun _ => rfl⟩
  · rw [State.pc, State.self_advance, State.pc, State.self_modSelf, hpc]; rfl
  · rw [State.self_advance, State.self_modSelf]; exact hrest

theorem sameRest_wg (t : Thread) (d : BitVec 5) (x : Word) : SameRest t (t.wg d x) := by
  unfold Thread.wg
  split <;> rfl

theorem sameRest_wp (t : Thread) (d : BitVec 3) (b : Bool) : SameRest t (t.wp d b) := by
  unfold Thread.wp
  split <;> rfl

theorem sameRest_wm (t : Thread) (d : BitVec 3) (x : Word) : SameRest t (t.wm d x) := by
  unfold Thread.wm
  split <;> rfl

theorem sameRest_wv (t : Thread) (d : BitVec 5) (x : VWord) (tag : BitVec 4) : SameRest t (t.wv d x tag) := rfl

/-- A write of a general register touches the general registers only. -/
theorem wg_eq (t : Thread) (d : BitVec 5) (x : Word) : ∃ g, t.wg d x = { t with g := g } := by
  unfold Thread.wg
  split
  · exact ⟨t.g, rfl⟩
  · exact ⟨_, rfl⟩

theorem wp_eq (t : Thread) (d : BitVec 3) (b : Bool) : ∃ p, t.wp d b = { t with p := p } := by
  unfold Thread.wp
  split
  · exact ⟨t.p, rfl⟩
  · exact ⟨_, rfl⟩

theorem wm_eq (t : Thread) (d : BitVec 3) (x : Word) : ∃ m, t.wm d x = { t with m := m } := by
  unfold Thread.wm
  split
  · exact ⟨t.m, rfl⟩
  · exact ⟨_, rfl⟩

theorem registerWriteFrame : Claims.RegisterWriteFrame := by
  intro s d x
  obtain ⟨g, hg⟩ := wg_eq s.self d x
  have hself : (s.putG d x).self =
      { s.self.wg d x with pc := (s.self.wg d x).pc + wd 4, hold := .free, counted := false, polls := 0, captured :=
        none } := by
    rw [State.putG, State.self_advance, State.setG, State.pc, State.self_modSelf]
  obtain ⟨hpc, hrest, helse, hmem⟩ := frame_modSelf_advance s (fun t => t.wg d x) 4 (sameRest_wg _ d x) (by rw [hg])
  refine ⟨fun r => ?_, ⟨fun r => ?_, fun r => ?_⟩, fun r => ?_, hpc, hrest, helse, hmem⟩
  · rw [State.g, hself]; exact Thread.rg_wg s.self d r x
  · rw [State.p, hself, hg]; rfl
  · rw [State.m, hself, hg]; rfl
  · rw [State.v, State.vtag, hself, hg]; exact ⟨rfl, rfl⟩

theorem predicateWriteFrame : Claims.PredicateWriteFrame := by
  intro s d b
  obtain ⟨p, hp⟩ := wp_eq s.self d b
  have hself : (s.putP d b).self =
      { s.self.wp d b with pc := (s.self.wp d b).pc + wd 4, hold := .free, counted := false, polls := 0, captured :=
        none } := by
    rw [State.putP, State.self_advance, State.setP, State.pc, State.self_modSelf]
  obtain ⟨hpc, hrest, helse, hmem⟩ := frame_modSelf_advance s (fun t => t.wp d b) 4 (sameRest_wp _ d b) (by rw [hp])
  refine ⟨fun r => ?_, fun r => ?_, fun r => ?_, fun r => ?_, hpc, hrest, helse, hmem⟩
  · rw [State.p, hself]; exact Thread.rp_wp s.self d r b
  · rw [State.g, hself, hp]; rfl
  · rw [State.m, hself, hp]; rfl
  · rw [State.v, State.vtag, hself, hp]; exact ⟨rfl, rfl⟩

theorem maskWriteFrame : Claims.MaskWriteFrame := by
  intro s d x t
  obtain ⟨m, hm⟩ := wm_eq s.self d x
  have hself : t.self =
      { s.self.wm d x with pc := (s.self.wm d x).pc + wd 4, hold := .free, counted := false, polls := 0, captured :=
        none } := by
    rw [State.self_advance, State.setM, State.pc, State.self_modSelf]
  obtain ⟨hpc, hrest, helse, hmem⟩ := frame_modSelf_advance s (fun t => t.wm d x) 4 (sameRest_wm _ d x) (by rw [hm])
  refine ⟨fun r => ?_, fun r => ?_, fun r => ?_, fun r => ?_, hpc, hrest, helse, hmem⟩
  · rw [State.m, hself]; exact Thread.rm_wm s.self d r x
  · rw [State.g, hself, hm]; rfl
  · rw [State.p, hself, hm]; rfl
  · rw [State.v, State.vtag, hself, hm]; exact ⟨rfl, rfl⟩

theorem vectorWriteFrame : Claims.VectorWriteFrame := by
  intro s d x tag n t
  have hself : t.self =
      { s.self.wv d x tag with pc := s.self.pc + wd n, hold := .free, counted := false, polls := 0, captured :=
        none } := by
    rw [State.self_advance, State.setV, State.pc, State.self_modSelf]; rfl
  obtain ⟨hpc, hrest, helse, hmem⟩ := frame_modSelf_advance s (fun t => t.wv d x tag) n (sameRest_wv _ d x tag) rfl
  refine ⟨fun r => ⟨?_, ?_⟩, fun r => ?_, ⟨fun r => ?_, fun r => ?_⟩, hpc, hrest, helse, hmem⟩
  · rw [State.v, hself]; exact Thread.rv_wv s.self d r x tag
  · rw [State.vtag, hself]; exact Thread.rtag_wv s.self d r x tag
  · rw [State.g, hself]; rfl
  · rw [State.p, hself]; rfl
  · rw [State.m, hself]; rfl

/-- Settles O39. -/
theorem writeFrames : Obligations.WriteFrames := by
  unfold Obligations.WriteFrames
  exact ⟨registerWriteFrame, predicateWriteFrame, maskWriteFrame, vectorWriteFrame⟩

/-! Elements. -/

theorem joinElems_cons (w x : Nat) (l : List Nat) : joinElems w (x :: l) = x % 2 ^ w + joinElems w l * 2 ^ w := rfl

theorem joinElems_lt (w : Nat) (l : List Nat) : joinElems w l < 2 ^ (w * l.length) := by
  induction l with
  | nil => simp [joinElems]
  | cons x l ih =>
    have hx : x % 2 ^ w < 2 ^ w := Nat.mod_lt _ (Nat.two_pow_pos _)
    rw [joinElems_cons, List.length_cons, Nat.mul_succ, Nat.pow_add]
    calc x % 2 ^ w + joinElems w l * 2 ^ w < 2 ^ w + joinElems w l * 2 ^ w := Nat.add_lt_add_right hx _
      _ = (joinElems w l + 1) * 2 ^ w := by rw [Nat.add_one_mul, Nat.add_comm]
      _ ≤ 2 ^ (w * l.length) * 2 ^ w := Nat.mul_le_mul_right _ ih

/-- An element of a number that is joined from a list. -/
theorem joinElems_div_mod (w : Nat) (l : List Nat) (j : Nat) (h : j < l.length) :
    joinElems w l / 2 ^ (w * j) % 2 ^ w = l[j] % 2 ^ w := by
  induction l generalizing j with
  | nil => simp at h
  | cons x l ih =>
    have hpos : 0 < 2 ^ w := Nat.two_pow_pos _
    have hx : x % 2 ^ w < 2 ^ w := Nat.mod_lt _ hpos
    rw [joinElems_cons]
    cases j with
    | zero => simp [Nat.add_mul_mod_self_right]
    | succ j =>
      rw [Nat.mul_succ, Nat.add_comm (w * j), Nat.pow_add, ← Nat.div_div_eq_div_mul, Nat.add_mul_div_right _ _ hpos,
        Nat.div_eq_of_lt hx, Nat.zero_add, ih j (by simpa using h), List.getElem_cons_succ]

theorem elem_ofElems {w : Nat} {l : List Nat} {j : Nat} (hfit : w * l.length ≤ 2048) (h : j < l.length) :
    elem w (ofElems w l) j = l[j] % 2 ^ w := by
  have hlt : joinElems w l < 2 ^ 2048 := Nat.lt_of_lt_of_le (joinElems_lt w l) (Nat.pow_le_pow_right (by decide) hfit)
  rw [elem, ofElems, BitVec.toNat_ofNat, Nat.mod_eq_of_lt hlt, joinElems_div_mod w l j h]

theorem elem_lt (w : Nat) (v : VWord) (j : Nat) : elem w v j < 2 ^ w := Nat.mod_lt _ (Nat.two_pow_pos _)

theorem elem_mod (w : Nat) (v : VWord) (j : Nat) : elem w v j % 2 ^ w = elem w v j := Nat.mod_eq_of_lt (elem_lt w v j)

@[simp] theorem length_elems (w : Nat) (v : VWord) : (elems w v).length = 2048 / w := by simp [elems, splitElems]

@[simp] theorem getElem_elems (w : Nat) (v : VWord) (j : Nat) (h : j < (elems w v).length) :
    (elems w v)[j] = elem w v j := by simp [elems, splitElems, elem]

/-- The elements of a register are those of the width, one for each place. -/
theorem elems_eq_map (w : Nat) (v : VWord) : elems w v = (List.range (2048 / w)).map (elem w v) := rfl

theorem length_masked (m : Word) (w : Nat) (old new : List Nat) :
    (masked m w old new).length = min old.length new.length := by simp [masked]

theorem getElem_masked (m : Word) (w : Nat) (old new : List Nat) (j : Nat) (h : j < (masked m w old new).length) :
    (masked m w old new)[j] =
      if governed m w j = true then new[j]'(by rw [length_masked] at h; omega)
      else old[j]'(by rw [length_masked] at h; omega) := by simp [masked]

/-- The elements of a register that is written under a mask (R335). -/
theorem elem_ofElems_masked (m : Word) (w : Nat) (v : VWord) (new : List Nat) (f : Nat → Nat)
    (hlen : new.length = 2048 / w)
    (hnew : ∀ j (h : j < new.length), new[j] = f j) (j : Nat) (hj : j < 2048 / w) :
    elem w (ofElems w (masked m w (elems w v) new)) j =
      if bit m (j * w / 32) = true then f j % 2 ^ w else elem w v j := by
  have hmasked : (masked m w (elems w v) new).length = 2048 / w := by
    rw [length_masked, length_elems, hlen, Nat.min_self]
  rw [elem_ofElems (by rw [hmasked]; exact Nat.mul_div_le 2048 w) (by rw [hmasked]; exact hj), getElem_masked, hnew,
    getElem_elems]
  split
  next h => rw [if_pos (show bit m (j * w / 32) = true from h)]
  next h => rw [if_neg (show ¬bit m (j * w / 32) = true from h), elem_mod]

/-- A form whose body ends in a write under a mask is lane-wise. -/
theorem laneWise_of_putV {i : Instr} {s : State} {d : BitVec 5} {m : BitVec 3} {tag : BitVec 4} {n : Nat}
    {f : Nat → Nat}
    {new : List Nat} (hexec : Does i s (s.putV d (s.m m) tag new n)) (hlen : new.length = 2048 / tagWidth tag)
    (hnew : ∀ j (h : j < new.length), new[j] = f j) : LaneWise i s d m tag n f :=
  ⟨_, hexec, elem_ofElems_masked (s.m m) _ (s.v d) new f hlen hnew⟩

end Sys2Proof.Machine
end

section
/-! SUPPORT. The lane forms of the vector instructions (R336 to R349). -/

namespace Sys2Proof.Machine

open Sys2Proof.Claims

/-! Checks of tags. -/

theorem needClass_ok {s : State} {tag : BitVec 4} {ok : List TagClass} (h : tagClass tag ∈ ok) :
    needClass s tag ok = .ok () := need_of_true (by simpa using h)

theorem needAgree_ok {s : State} {expected tag : BitVec 4} (h : tag = expected) : needAgree s expected tag = .ok () :=
  if_pos h

theorem arithmetic_mem {tag : BitVec 4} (h : Arithmetic tag) : tagClass tag ∈ [TagClass.f, .a, .s, .u] := by
  rcases h with h | h | h | h <;> rw [h] <;> decide

/-! Two-source forms. -/

/-- The body that the arithmetic forms share, where their tags agree (R336, R337). -/
theorem laneWise_laneBody {i : Instr} {o : LaneOp} {s : State} {d a b : BitVec 5} {m : BitVec 3} {n : Nat}
    (hexec : exec i s = settle (laneBody o d a b m n s)) (harith : Arithmetic (s.vtag a)) (hb : s.vtag b = s.vtag a)
    (hd : o = .fma → s.vtag d = s.vtag a) :
    LaneWise i s d m (s.vtag a) n fun j =>
      o.apply (s.vtag a) (elem (tagWidth (s.vtag a)) (s.v a) j) (elem (tagWidth (s.vtag a)) (s.v b) j)
        (elem (tagWidth (s.vtag a)) (s.v d) j) := by
  let w := tagWidth (s.vtag a)
  have hbody : settle (laneBody o d a b m n s) = .next (s.putV d (s.m m) (s.vtag a)
      ((((elems w (s.v a)).zip (elems w (s.v b))).zip (elems w (s.v d))).map fun p =>
        o.apply (s.vtag a) p.1.1 p.1.2 p.2) n) := by
    refine (settle_bind_ok (needClass_ok (arithmetic_mem harith)) _).trans
      ((settle_bind_ok (needAgree_ok hb) _).trans ?_)
    by_cases ho : o = .fma
    · exact (congrArg settle (if_pos ho)).trans (settle_bind_ok (needAgree_ok (hd ho)) _)
    · exact congrArg settle (if_neg ho)
  exact laneWise_of_putV (hexec.trans hbody) (by simp [w]) fun j h => by simp [w]

/-- Settles O32, by the body that the forms share. -/
theorem laneArithmetic : Obligations.LaneArithmetic := by
  unfold Obligations.LaneArithmetic
  intro s d a b m z tag op short
  refine ⟨fun harith hb => ⟨?_, ?_, ?_, ?_, ?_, fun hd => ?_⟩, fun harith hb => ⟨?_, ?_, ?_, ?_, ?_⟩⟩
  · exact laneWise_laneBody rfl harith hb nofun
  · exact laneWise_laneBody rfl harith hb nofun
  · exact laneWise_laneBody rfl harith hb nofun
  · exact laneWise_laneBody rfl harith hb nofun
  · exact laneWise_laneBody rfl harith hb nofun
  · exact laneWise_laneBody rfl harith hb fun _ => hd
  · exact laneWise_laneBody rfl harith hb nofun
  · exact laneWise_laneBody rfl harith hb nofun
  · exact laneWise_laneBody rfl harith hb nofun
  · exact laneWise_laneBody rfl harith hb nofun
  · exact laneWise_laneBody rfl harith hb nofun

theorem laneWise_bitBody {i : Instr} {f : VWord → VWord → VWord} {s : State} {d a b : BitVec 5} {m : BitVec 3} {n : Nat}
    (hexec : exec i s = settle (bitBody f d a b m n s)) (hb : s.vtag b = s.vtag a) :
    LaneWise i s d m (s.vtag a) n (elem (tagWidth (s.vtag a)) (f (s.v a) (s.v b))) :=
  laneWise_of_putV (hexec.trans (settle_bind_ok (needAgree_ok hb) _)) (by simp) fun j h => by simp

theorem laneWise_shiftBody {i : Instr} {left : Bool} {s : State} {d a b : BitVec 5} {m : BitVec 3} {n : Nat}
    (hexec : exec i s = settle (shiftBody left d a b m n s))
    (hclass : tagClass (s.vtag a) = .s ∨ tagClass (s.vtag a) = .u ∨ tagClass (s.vtag a) = .b)
    (hb : s.vtag b = s.vtag a) :
    LaneWise i s d m (s.vtag a) n fun j =>
      if left then
        laneShl (tagWidth (s.vtag a)) (elem (tagWidth (s.vtag a)) (s.v a) j) (elem (tagWidth (s.vtag a)) (s.v b) j)
      else laneShr (tagClass (s.vtag a) = .s) (tagWidth (s.vtag a)) (elem (tagWidth (s.vtag a)) (s.v a) j)
        (elem (tagWidth (s.vtag a)) (s.v b) j) := by
  have hmem : tagClass (s.vtag a) ∈ [TagClass.s, .u, .b] := by
    rcases hclass with h | h | h <;> rw [h] <;> decide
  have hbody : settle (shiftBody left d a b m n s) = settle _ :=
    (settle_bind_ok (needClass_ok hmem) _).trans (settle_bind_ok (needAgree_ok hb) _)
  exact laneWise_of_putV (hexec.trans (hbody.trans (settle_ok _))) (by simp) fun j h => by
    rw [List.getElem_zipWith, getElem_elems, getElem_elems]

/-! One-source forms. -/

theorem laneWise_oneBody {i : Instr} {ok : List TagClass} {f : BitVec 4 → Nat → Nat} {s : State} {d a : BitVec 5}
    {m : BitVec 3} {n : Nat} (hexec : exec i s = settle (oneBody ok f d a m n s)) (hclass : tagClass (s.vtag a) ∈ ok) :
    LaneWise i s d m (s.vtag a) n fun j => f (s.vtag a) (elem (tagWidth (s.vtag a)) (s.v a) j) :=
  laneWise_of_putV (hexec.trans (settle_bind_ok (needClass_ok hclass) _)) (by simp) fun j h => by simp

theorem laneWise_movBody {i : Instr} {s : State} {d a : BitVec 5} {m : BitVec 3} {n : Nat}
    (hexec : exec i s = settle (movBody d a m n s)) :
    LaneWise i s d m (s.vtag a) n (elem (tagWidth (s.vtag a)) (s.v a)) :=
  laneWise_of_putV hexec (by simp) fun j h => by simp

/-- Settles O33, by the bodies that the forms share. -/
theorem laneBitsAndShifts : Obligations.LaneBitsAndShifts := by
  unfold Obligations.LaneBitsAndShifts
  intro s d a b m z el shifts signed signs w short
  have hsigns {x : BitVec 5} (h : signs x) : tagClass (s.vtag x) ∈ [TagClass.f, .a, .s] := by
    rcases h with h | h | h <;> rw [h] <;> decide
  refine ⟨fun hb => ⟨?_, ?_, ?_, fun hs => ⟨?_, ?_⟩⟩, fun hb => ⟨?_, ?_, ?_, fun hs => ⟨?_, ?_⟩⟩, ?_, ?_,
    fun hs => ⟨?_, ?_⟩, fun hs => ⟨?_, ?_⟩⟩
  · exact laneWise_bitBody rfl hb
  · exact laneWise_bitBody rfl hb
  · exact laneWise_bitBody rfl hb
  · exact laneWise_shiftBody (left := true) rfl hs hb
  · exact laneWise_shiftBody (left := false) rfl hs hb
  · exact laneWise_bitBody rfl hb
  · exact laneWise_bitBody rfl hb
  · exact laneWise_bitBody rfl hb
  · exact laneWise_shiftBody (left := true) rfl hs hb
  · exact laneWise_shiftBody (left := false) rfl hs hb
  · exact laneWise_movBody rfl
  · exact laneWise_movBody rfl
  · exact laneWise_oneBody rfl (hsigns hs)
  · exact laneWise_oneBody rfl (hsigns hs)
  · exact laneWise_oneBody rfl (hsigns hs)
  · exact laneWise_oneBody rfl (hsigns hs)

theorem laneWise_funBody {i : Instr} {f : Val → Val × Bool} {r : BitVec 3} {k : Mode} {fmt : Fmt} {s : State}
    {d a : BitVec 5} {m : BitVec 3} {n : Nat} (hexec : exec i s = settle (funBody f r d a m n s))
    (hmode : mode? r.toNat = some k) (hclass : tagClass (s.vtag a) = .f) (hfmt : tagFmt (s.vtag a) = some fmt) :
    LaneWise i s d m (s.vtag a) n fun j =>
      let q := f (fmt.value (elem (tagWidth (s.vtag a)) (s.v a) j))
      fmt.pack k q.1 q.2 := by
  have hone := laneWise_oneBody (hexec.trans (by rw [funBody, hmode])) (List.mem_singleton.mpr hclass)
  simp only [hfmt] at hone
  exact hone

/-- Settles O34: the functions share a body. -/
theorem laneFunctions : Obligations.LaneFunctions := by
  unfold Obligations.LaneFunctions
  intro s d a r m z mode fmt w fn short hclass hfmt
  refine ⟨fun _ hmode => ⟨?_, ?_, ?_, ?_⟩, ?_, ?_, ?_⟩
  · exact laneWise_funBody rfl hmode hclass hfmt
  · exact laneWise_funBody rfl hmode hclass hfmt
  · exact laneWise_funBody rfl hmode hclass hfmt
  · exact laneWise_funBody rfl hmode hclass hfmt
  · exact laneWise_funBody rfl rfl hclass hfmt
  · exact laneWise_funBody rfl rfl hclass hfmt
  · exact laneWise_funBody rfl rfl hclass hfmt

/-! Moves (R338, R339, R343, R344). -/

/-- The elements of a register that is written whole. -/
theorem elem_ofElems_of {w : Nat} {l : List Nat} (hlen : l.length = 2048 / w) {j : Nat} (hj : j < 2048 / w) :
    elem w (ofElems w l) j = (l[j]'(by rw [hlen]; exact hj)) % 2 ^ w :=
  elem_ofElems (by rw [hlen]; exact Nat.mul_div_le 2048 w) (by rw [hlen]; exact hj)

theorem vsel_elem (mask : Word) (w : Nat) (x y : VWord) (j : Nat) (hj : j < 2048 / w) :
    elem w (ofElems w (masked mask w (elems w y) (elems w x))) j =
      if bit mask (j * w / 32) = true then elem w x j else elem w y j := by
  rw [elem_ofElems_masked mask w y (elems w x) (elem w x) (by simp) (by simp) j hj, elem_mod]

/-- The containers that `vperm` writes (R339). -/
theorem vperm_elem (mask : Word) (c : Nat) (x y z : VWord) (j : Nat) (hj : j < 2048 / c) :
    elem c (ofElems c (masked mask c (elems c z) ((List.range (2048 / c)).map fun k =>
      if elem 32 y k < 2048 / c then elem c x (elem 32 y k) else 0))) j =
      if bit mask (j * c / 32) = true then if elem 32 y j < 2048 / c then elem c x (elem 32 y j) else 0
      else elem c z j := by
  rw [elem_ofElems_masked mask c z _ (fun k => if elem 32 y k < 2048 / c then elem c x (elem 32 y k) else 0) (by simp)
    (by simp) j hj, apply_ite (· % 2 ^ c), elem_mod, Nat.zero_mod]

theorem scalarBits_lt (tag : BitVec 4) (x : Word) : scalarBits tag x < 2 ^ tagWidth tag := by
  unfold scalarBits
  split
  next h => subst h; exact Nat.lt_trans (Nat.mod_lt _ (by decide)) (by decide)
  next => exact Nat.mod_lt _ (Nat.two_pow_pos _)

/-- Settles O35, form by form. -/
theorem laneMoves : Obligations.LaneMoves := by
  unfold Obligations.LaneMoves
  intro s d a b m f i k tag w n
  refine ⟨fun hb => ?_, fun hb => ?_, ?_, fun hclass => ?_, fun hn => ?_, fun hn => ?_⟩
  · exact ⟨_, settle_bind_ok (needAgree_ok hb) _, fun j hj => vsel_elem (s.m m) w (s.v a) (s.v b) j hj⟩
  · refine ⟨_, settle_bind_ok (need_of_true (decide_eq_true hb)) _, fun j hj => ?_⟩
    rw [vperm_elem _ _ _ _ _ _ hj]
  · refine ⟨_, rfl, fun j hj => ?_⟩
    rw [elem_ofElems_of (by simp) hj, List.getElem_replicate, Nat.mod_eq_of_lt (scalarBits_lt f (s.g a))]
  · have hmem : [TagClass.f, .s, .u].contains (tagClass f) = true := by
      rcases hclass with h | h | h <;> rw [h] <;> rfl
    refine ⟨_, settle_bind_ok (need_of_true hmem) _, fun j hj => ?_⟩
    rw [elem_ofElems_of (by simp) hj, List.getElem_map, List.getElem_range]
    cases tagFmt f with
    | some _ => rfl
    | none => exact Nat.mod_mod _ _
  · exact settle_bind_ok (need_of_true (decide_eq_true hn)) _
  · refine ⟨_, settle_bind_ok (need_of_true (decide_eq_true hn)) _, fun j hj => ?_⟩
    rw [elem_ofElems_of (by simp) hj, List.getElem_set, getElem_elems, apply_ite (· % 2 ^ tagWidth (s.vtag d)),
      elem_mod,
      Nat.mod_eq_of_lt (scalarBits_lt (s.vtag d) (s.g a))]
    exact ite_of_iff eq_comm _ _

end Sys2Proof.Machine
end

section
/-! SUPPORT. Compares, reductions, scaling, rotation, random words and conversion (R341 to R349), and the vector
memory forms (R350 to R354). -/

namespace Sys2Proof.Machine

open Sys2Proof.Claims

/-! Compares and reductions. -/

/-- A bit of a word that is joined from 64 bits. -/
theorem bit_joinElems (f : Nat → Bool) (i : Nat) (hi : i < 64) :
    bit (wd (joinElems 1 ((List.range 64).map fun j => nb (f j)))) i = f i := by
  have hlt := joinElems_lt 1 ((List.range 64).map fun j => nb (f j))
  have hbit := joinElems_div_mod 1 ((List.range 64).map fun j => nb (f j)) i (by simpa using hi)
  simp only [List.length_map, List.length_range, Nat.one_mul, Nat.pow_one, List.getElem_map,
    List.getElem_range] at hlt hbit
  rw [bit, wd, BitVec.toNat_ofNat, Nat.mod_eq_of_lt hlt, Nat.testBit_eq_decide_div_mod_eq, hbit]
  cases f i <;> rfl

/-- The elements that enter a reduction (R342). -/
theorem active_eq (mask : Word) (w : Nat) (v : VWord) (y : Nat) :
    ((elems w v).zipIdx.map fun p => if governed mask w p.2 then p.1 else y) =
      (List.range (2048 / w)).map fun j => if bit mask (j * w / 32) = true then elem w v j else y := by
  refine List.ext_getElem (by simp) fun j h h' => ?_
  simp [governed]

theorem does_reduceBody {i : Instr} {o : RedOp} {s : State} {d a : BitVec 5} {m : BitVec 3}
    (hexec : exec i s = settle (reduceBody o d a m s)) (harith : Arithmetic (s.vtag a)) :
    let w := tagWidth (s.vtag a)
    let l := (List.range (2048 / w)).map fun j =>
      if bit (s.m m) (j * w / 32) = true then elem w (s.v a) j else o.identity (s.vtag a)
    Does i s ((s.setV d (ofElems w [o.reduce (s.vtag a) l]) (s.vtag a)).advance 4) := by
  intro w l
  refine hexec.trans ((settle_bind_ok (needClass_ok (arithmetic_mem harith)) _).trans ?_)
  dsimp only
  rw [active_eq]
  rfl

/-- Settles O36. -/
theorem comparesAndReductions : Obligations.ComparesAndReductions := by
  unfold Obligations.ComparesAndReductions
  intro s d a b e m c tag w harith
  refine ⟨fun hb => ⟨compareMask c.toNat tag (s.m m) (s.v a) (s.v b), ?_, fun i hi => ?_⟩, does_reduceBody rfl harith,
    does_reduceBody rfl harith,
    does_reduceBody rfl harith⟩
  · exact (settle_bind_ok (needClass_ok (arithmetic_mem harith)) _).trans (settle_bind_ok (needAgree_ok hb) _)
  · exact bit_joinElems (fun i => bit (s.m m) i && (governedBy w i).all fun j =>
      laneCompare c.toNat tag (elem w (s.v a) j) (elem w (s.v b) j)) i hi

/-! Rotation keeps the number of elements. -/

theorem length_ropeHead (f : Fmt) (n : Nat) (delta : Int) :
    ∀ (j : Nat) (l : List Nat), (ropeHead f n delta j l).length = l.length
  | _, [] => rfl
  | _, [_] => rfl
  | j, x0 :: x1 :: r => by simp [ropeHead, length_ropeHead f n delta (j + 1) r]

theorem length_ropeHeads (f : Fmt) (n : Nat) (delta : Int) (k : Nat) (l : List Nat) :
    (ropeHeads f n delta k l).length = l.length := by
  induction k generalizing l with
  | zero => rfl
  | succ k ih =>
    rw [ropeHeads]
    split
    · rfl
    · rw [List.length_append, length_ropeHead, ih, ← List.length_append, List.take_append_drop]

theorem length_rope (f : Fmt) (n : Nat) (delta : Int) (l : List Nat) : (rope f n delta l).length = l.length := by
  rw [rope]
  split
  · rfl
  · exact length_ropeHeads f n delta _ l

/-- A conversion whose operands pass its checks retags or converts (R349). -/
theorem execVcvt_of_checks {s : State} {d a : BitVec 5} {t : BitVec 4} {z : BitVec 2} {k : BitVec 3} {o : BitVec 1}
    {r : BitVec 5} {mode : Mode} (hmask : t ≠ tagMask) (hmode : mode? k.toNat = some mode) (hz : z = 0 ∨ s.vtag a = 0)
    (hsrc : s.vtag a ≠ tagMask ∨ t = 0) (hsr : mode = .sr → s.vtag r = tagIndex ∨ s.vtag r = 0) :
    execVcvt d a t z k o r s = .next
      (if t = 0 ∨ (s.vtag a = 0 ∧ z = 0) then (s.setV d (s.v a) t).advance 4
      else (s.setV d (convertReg (s.vtag a) z.toNat t mode (decide (o = 1)) (s.v a) (s.v r)) t).advance 4) := by
  have hneed : (!(decide (z ≠ 0) && decide (s.vtag a ≠ 0)) && !(decide (s.vtag a = tagMask) && decide (t ≠ 0)) &&
      !(decide (mode = .sr) && !(decide (s.vtag r = tagIndex) || decide (s.vtag r = 0)))) = true := by
    simpa using ⟨⟨hz, hsrc⟩, Decidable.imp_iff_not_or.mp hsr⟩
  refine (settle_bind_ok (need_of_true (decide_eq_true hmask)) _).trans ?_
  rw [hmode]
  refine (settle_bind_ok (need_of_true hneed) _).trans ?_
  simp only [Bool.or_eq_true, Bool.and_eq_true, decide_eq_true_eq]
  split <;> rfl

/-- Settles O37, form by form. -/
theorem scaleRotateConvert : Obligations.ScaleRotateConvert := by
  unfold Obligations.ScaleRotateConvert
  intro s d a b m t z k o r fmt mode tag w
  refine ⟨fun hclass hfmt hb => ?_, fun htag => ?_, ?_, fun hmask hmode hz hsrc hsr =>
    ⟨fun hretag => ?_, fun ht hraw => ?_⟩⟩
  · have hbody : execVscale d a b m s = settle _ :=
      (settle_bind_ok (needClass_ok (List.mem_singleton.mpr hclass)) _).trans
        (settle_bind_ok (need_of_true (decide_eq_true hb)) _)
    refine laneWise_of_putV (hbody.trans (settle_ok _)) (by simp [tag]) fun j h => ?_
    simp only [List.getElem_map, List.getElem_zipIdx, getElem_elems, Nat.zero_add]
    rw [show tagFmt (s.vtag a) = some fmt from hfmt]
  · intro x
    have hneed : (decide (tag = 1) || decide (tag = 2)) = true := by simpa using htag
    have hbody : execVrope d a b m s = settle _ := settle_bind_ok (need_of_true hneed) _
    refine laneWise_of_putV (hbody.trans (settle_ok _)) (by rw [length_rope, length_elems]) fun j h => ?_
    exact (congrArg (·.getD 0) (List.getElem?_eq_getElem h)).symm
  · refine ⟨_, rfl, fun i hi => ?_⟩
    rw [elem_ofElems_of (w := 32) (by simp) hi, List.getElem_map, List.getElem_range]
  · exact (execVcvt_of_checks hmask hmode hz hsrc hsr).trans (by rw [if_pos hretag])
  · exact (execVcvt_of_checks hmask hmode hz hsrc hsr).trans (by rw [if_neg (not_or.mpr ⟨ht, hraw⟩)])

end Sys2Proof.Machine
end

section
/-! SUPPORT. The vector memory forms (R350 to R354). -/

namespace Sys2Proof.Machine

open Sys2Proof.Claims

/-- What the vector loads share past the judgement of their addresses (R350). -/
theorem settle_vectorLoad {s s1 s2 : State} {d : BitVec 5} {f : BitVec 4} {us : List ElemAccess}
    {l k : List (ElemAccess × RangeEntry)} {bs : List (Nat × List Byte)} (hjudge : judge false us s = .ok (s1, l))
    (hload : loadUnits l s1 = .ok (s2, bs, k)) :
    let q := consumeUnits k s2
    settle (vectorLoad s d f us) =
      .next ((q.setV d (vofBytes (patchBytes (vbytes (q.v d)) (clearAcc48 f bs))) f).advance 4) :=
  (settle_bind_ok hjudge _).trans (settle_bind_ok hload _)

/-! The rows that `vldt` reads (R354). -/

/-- The rows of the elements of a list that a mask governs, each once, after the rows of l. -/
def rowsAfter (mask : Word) (w : Nat) (l : List Nat) (js : List Nat) : List Nat :=
  js.foldl (fun l j => if governed mask w j && !l.contains (j % 8) then l ++ [j % 8] else l) l

theorem rowsAfter_cons (mask : Word) (w : Nat) (l : List Nat) (j : Nat) (js : List Nat) :
    rowsAfter mask w l (j :: js) =
      rowsAfter mask w (if governed mask w j = true ∧ j % 8 ∉ l then l ++ [j % 8] else l) js := by
  simp [rowsAfter]

theorem nodup_append_singleton {l : List Nat} {r : Nat} (h : l.Nodup) (hr : r ∉ l) : (l ++ [r]).Nodup :=
  List.nodup_append.mpr ⟨h, List.nodup_cons.mpr ⟨List.not_mem_nil, List.nodup_nil⟩, fun a ha b hb hab =>
    hr (List.mem_singleton.mp hb ▸ hab ▸ ha)⟩

theorem exists_mem_cons_or {α : Type} {p : α → Prop} {a : α} {l : List α} :
    (∃ x ∈ a :: l, p x) ↔ p a ∨ ∃ x ∈ l, p x := by
  simp only [List.mem_cons, or_and_right, exists_or, exists_eq_left]

theorem nodup_rowsAfter (mask : Word) (w : Nat) (l js : List Nat) (h : l.Nodup) : (rowsAfter mask w l js).Nodup := by
  induction js generalizing l with
  | nil => exact h
  | cons j js ih =>
    rw [rowsAfter_cons]
    split
    next hrow => exact ih _ (nodup_append_singleton h hrow.2)
    next => exact ih l h

theorem mem_rowsAfter (mask : Word) (w r : Nat) (l js : List Nat) :
    r ∈ rowsAfter mask w l js ↔ r ∈ l ∨ ∃ j ∈ js, governed mask w j = true ∧ j % 8 = r := by
  induction js generalizing l with
  | nil => simp [rowsAfter]
  | cons j js ih =>
    rw [rowsAfter_cons, ih, exists_mem_cons_or, ← or_assoc]
    refine or_congr_left ?_
    split
    next hrow => simp [hrow.1, eq_comm]
    next hrow =>
      constructor
      · exact .inl
      · rintro (h | ⟨hgov, rfl⟩)
        · exact h
        · exact Classical.not_not.mp fun hnot => hrow ⟨hgov, hnot⟩

theorem activeRows_eq (mask : Word) (w : Nat) : activeRows mask w = rowsAfter mask w [] (List.range (2048 / w)) := rfl

/-- Settles O38: each form by its judgement, and the rows by the fold that collects them. -/
theorem vectorMemory : Obligations.VectorMemory := by
  unfold Obligations.VectorMemory
  intro s s1 s2 d a b f m l bs k unit line filled
  refine ⟨fun halign hjudge hload => ?_, fun halign hjudge => ?_, fun hw hjudge hload => ?_, fun hb hjudge hload => ?_,
    fun hb hjudge => ?_, fun ha hb hjudge hload => ?_, fun mask w r => ⟨?_, ?_⟩⟩
  · exact (settle_bind_ok (checkAligned_ok halign) _).trans (settle_vectorLoad hjudge hload)
  · exact (settle_bind_ok (checkAligned_ok halign) _).trans (settle_bind_ok hjudge _)
  · exact (settle_bind_ok (need_of_true (decide_eq_true hw)) _).trans (settle_vectorLoad hjudge hload)
  · exact (settle_bind_ok (need_of_true (decide_eq_true hb)) _).trans (settle_vectorLoad hjudge hload)
  · exact (settle_bind_ok (need_of_true (decide_eq_true hb)) _).trans (settle_bind_ok hjudge _)
  · exact (congrArg settle (if_pos ⟨ha, hb⟩)).trans ((settle_bind_ok hjudge _).trans (settle_bind_ok hload _))
  · rw [activeRows_eq]
    exact nodup_rowsAfter mask w [] _ List.nodup_nil
  · rw [activeRows_eq, mem_rowsAfter]
    simp

end Sys2Proof.Machine
end

section
/-! SUPPORT. The entry of a command (R114, R117, R180), and the send buffer (R66, R318, R319). -/

namespace Sys2Proof.Machine

open Sys2Proof.Claims

/-! The stores on their way under a drain. -/

theorem State.dropForwarded_inflight (s : State) (t : BitVec 10) (va pa : Nat) :
    (s.dropForwarded t va pa).inflight = s.inflight := by
  unfold State.dropForwarded
  split <;> rfl

theorem State.performFlight_inflight (s : State) (a : Access) : (s.performFlight a).inflight = s.inflight := by
  rw [State.performFlight, State.performStore, State.performAt, (keepsStores_watched _ _ _ _ _).inflight,
    State.poke_inflight,
    (keepsStores_normalise _ _ _).inflight, State.dropForwarded_inflight]

theorem foldl_performFlight_inflight (l : List Access) (s : State) :
    (l.foldl State.performFlight s).inflight = s.inflight := by
  induction l generalizing s with
  | nil => rfl
  | cons a l ih => rw [List.foldl_cons, ih, State.performFlight_inflight]

/-- No store that a drain selects is left to be performed later. -/
theorem not_mem_select_later (kept : Access → Access → Bool) (p : Access → Bool) (l : List Access) :
    ∀ a ∈ (Access.select kept p l).2, p a = false := by
  induction l with
  | nil => intro a ha; cases ha
  | cons b l ih =>
    intro a ha
    rw [Access.select] at ha
    dsimp only at ha
    split at ha
    · exact ih a ha
    next hb =>
      rcases List.mem_cons.mp ha with rfl | ha
      · exact (Bool.or_eq_false_iff.mp (eq_false_of_ne_true hb)).1
      · exact ih a ha

theorem State.performThose_inflight (s : State) (p : Access → Bool) :
    (s.performThose p).inflight = (Access.select s.keptOrder p s.inflight).2 := foldl_performFlight_inflight _ _

/-- After the release to an engine none of the thread's stores is on its way. -/
theorem not_mem_releaseAll (s : State) (a : Access) (ha : a ∈ s.releaseAll.inflight) :
    ¬(a.tile = s.cur.tile ∧ a.thread = s.cur.thread) := by
  rw [State.releaseAll, State.drain, State.performThose_inflight] at ha
  have hnot := not_mem_select_later _ _ _ a ha
  rintro ⟨htile, hthread⟩
  rw [htile, hthread] at hnot
  split at hnot <;> simp at hnot

/-! Entry. -/

theorem keepsWork_releaseAll (s : State) : KeepsWork s s.releaseAll := keepsWork_performThose s _

theorem Thread.engine_setEngine (t : Thread) (c x : BitVec 2) (e : EngineCtx) :
    (t.setEngine c e).engine x = if c = x then e else t.engine x := by
  simp only [Thread.setEngine, Thread.engine, Vector.getElem_set, BitVec.toNat_inj]

/-- The issuing thread after a command has been entered. -/
theorem State.self_enterCmd (s : State) (c : Cmd) :
    (s.enterCmd c).self =
      s.self.setEngine c.ctx { s.self.engine c.ctx with issued := (s.self.engine c.ctx).issued + 1 } := by
  have hkeeps := keepsWork_releaseAll s
  have hself : (s.enterCmd c).self = (s.releaseAll.modSelf fun t =>
      t.setEngine c.ctx { t.engine c.ctx with issued := (t.engine c.ctx).issued + 1 }).self := by
    rw [State.self, State.self, State.thread, State.thread, State.enterCmd, State.tile_modTile]
    split <;> rfl
  rw [hself, State.self_modSelf, hkeeps.self]

theorem State.cmds_enterCmd (s : State) (c : Cmd) :
    ((s.enterCmd c).tile s.cur.tile).cmds = (s.tile s.cur.tile).cmds ++ [c] := by
  have hkeeps := keepsWork_releaseAll s
  have hcur : s.releaseAll.cur = s.cur := hkeeps.cur
  simp only [State.enterCmd, State.tile_modTile, State.modSelf_cur, hcur, if_true, State.tile_modSelf]
  exact congrArg (· ++ [c]) (hkeeps.cmds s.cur.tile)

/-- Settles O40: the release keeps the thread, and the entry changes its context alone. -/
theorem commandEntry : Obligations.CommandEntry := by
  unfold Obligations.CommandEntry
  intro s c t
  have hself : t.self = _ := s.self_enterCmd c
  refine ⟨s.cmds_enterCmd c, ?_, fun x hx => ?_, fun r => ?_, ⟨fun r => ?_, fun r => ?_⟩, fun r => ⟨?_, ?_⟩,
    fun r => ⟨?_, ?_⟩, ?_, fun a ha => not_mem_releaseAll s a ha⟩
  · rw [hself, Thread.engine_setEngine, if_pos rfl]
  · rw [hself, Thread.engine_setEngine, if_neg (Ne.symm hx)]
  · rw [State.g, hself]; rfl
  · rw [State.p, hself]; rfl
  · rw [State.m, hself]; rfl
  · rw [State.v, hself]; rfl
  · rw [State.vtag, hself]; rfl
  · rw [hself]; rfl
  · rw [hself]; rfl
  · rw [State.pc, hself]; rfl

/-! The flush (R319). -/

theorem keepsWork_modCut (s : State) (t : BitVec 10) (r : BitVec 16) (f : CutState → CutState) :
    KeepsWork s (s.modCut t r f) :=
  .modTile s t (f := fun x => { x with cuts := mset x.cuts r.toNat (f (mget CutState.reset x.cuts r.toNat)) })
    (fun _ => rfl) (fun _ => rfl) (fun _ => rfl)

theorem keepsWork_tileId (s : State) (t : BitVec 10) : KeepsWork s (s.tileId t).2 := keepsWork_senderId s (some t)

theorem keepsWork_emit (s : State) (t : BitVec 10) (r : BitVec 16) : KeepsWork s (s.emit t r).2 :=
  keepsWork_modCut s t r fun c => c.send (s.cut t r).colour

theorem keepsWork_post (s : State) (m : Message) : KeepsWork s (s.post m) := .of_tiles rfl rfl

theorem keepsWork_sendMessage (s : State) (t : BitVec 10) (r : BitVec 16) (dest arg xform : Word) (payload : List Byte)
    (sets : Option Sets) : KeepsWork s (s.sendMessage t r dest arg xform payload sets) := by
  unfold State.sendMessage
  dsimp only
  split
  · exact (keepsWork_tileId s t).trans (keepsWork_post _ _)
  · exact (keepsWork_tileId s t).trans ((keepsWork_emit _ t r).trans (keepsWork_post _ _))

theorem keepsWork_volPoint (s : State) (e : RangeEntry) : KeepsWork s (s.volPoint e) := by
  unfold State.volPoint
  split
  · exact keepsWork_drainVol s
  · exact .refl s

theorem keepsWork_loadHome_ok {s q : State} {va : Word} {pa n : Nat} {k : WKind} {bs : List Byte}
    (h : loadHome s va pa n k = .ok (q, bs)) : KeepsWork s q := by
  unfold loadHome at h
  obtain ⟨_, _, h⟩ := Except.bind_ok_iff.mp h
  cases h
  exact (keepsWork_drainAt s _ _).trans ((keepsWork_dropBoth _ _ _ _).trans ((keepsWork_watched _ _ _ _ _).trans
    (keepsWork_consumeOnce _ _ _)))

theorem keepsWork_loadHomeSpan_ok {s q : State} {va : Word} {e : RangeEntry} {n : Nat} {k : WKind} {bs : List Byte}
    (h : loadHomeSpan s va e n k = .ok (q, bs)) : KeepsWork s q := by
  unfold loadHomeSpan at h
  split at h
  · cases h; exact .refl s
  · refine (keepsWork_volPoint s e).trans (KeepsWork.foldlM_ok (p := (s.volPoint e, [])) (q := (q, bs))
      (fun p a q hstep => ?_) h)
    obtain ⟨⟨u, x⟩, hload, hstep⟩ := Except.bind_ok_iff.mp hstep
    cases hstep
    exact keepsWork_loadHome_ok hload

theorem keepsWork_readPayload_ok {s q : State} {src : Word} {n : Nat} {bs : List Byte}
    (h : readPayload s src n = .ok (q, bs)) : KeepsWork s q := by
  unfold readPayload at h
  split at h
  · cases h; exact .refl s
  · obtain ⟨⟨u, e⟩, htrans, h⟩ := Except.bind_ok_iff.mp h
    dsimp only at h
    split at h
    · cases h
    · obtain ⟨⟨v, f, pa⟩, hmapped, h⟩ := Except.bind_ok_iff.mp h
      refine (keepsWork_causeAt_ok htrans).trans ((keepsWork_checkMapped_ok hmapped).trans ?_)
      dsimp only at h
      split at h
      · exact keepsWork_loadHomeSpan_ok h
      · cases h

theorem keepsWork_flushEntry_ok {s q : State} {e : SendEntry} (h : flushEntry s e = .ok q) : KeepsWork s q := by
  unfold flushEntry at h
  dsimp only at h
  refine (keepsWork_release s e.sets).trans ?_
  split at h
  · cases h
    exact (keepsWork_tileId _ _).trans ((keepsWork_emit _ _ _).trans (.of_tiles rfl rfl))
  · obtain ⟨⟨u, bs⟩, hread, h⟩ := Except.bind_ok_iff.mp h
    cases h
    exact (keepsWork_readPayload_ok hread).trans (keepsWork_sendMessage _ _ _ _ _ _ _ _)

/-- A flush that goes through leaves the buffer empty. -/
theorem sends_flushList_ok (l : List SendEntry) (s t : State) (hl : s.self.sends = l) (h : flushList l s = .ok t) :
    t.self.sends = [] := by
  induction l generalizing s with
  | nil => cases h; exact hl
  | cons e l ih =>
    obtain ⟨u, hentry, h⟩ := Except.bind_ok_iff.mp h
    refine ih _ ?_ h
    rw [State.self_modSelf, (keepsWork_flushEntry_ok hentry).self, hl]
    rfl

/-! What a flushed message and a flushed decrement leave. -/

theorem State.tile_tileId (s : State) (t : BitVec 10) :
    (s.tileId t).2.tile t = { s.tile t with seq := (s.tile t).seq + 1 } := by
  rw [State.tileId, State.tile_modTile, if_pos rfl]

theorem State.cut_tileId (s : State) (t : BitVec 10) (r : BitVec 16) : (s.tileId t).2.cut t r = s.cut t r := by
  rw [State.cut, State.tile_tileId, State.cut]

theorem State.seq_emit (s : State) (t : BitVec 10) (r : BitVec 16) : ((s.emit t r).2.tile t).seq = (s.tile t).seq := by
  rw [State.emit, State.modCut, State.tile_modTile, if_pos rfl]

theorem State.seq_sendMessage (s : State) (t : BitVec 10) (r : BitVec 16) (dest arg xform : Word) (payload : List Byte)
    (sets : Option Sets) : ((s.sendMessage t r dest arg xform payload sets).tile t).seq = (s.tile t).seq + 1 := by
  unfold State.sendMessage
  dsimp only
  split
  · show ((s.tileId t).2.tile t).seq = _
    rw [State.tile_tileId]
  · show (((s.tileId t).2.emit t r).2.tile t).seq = _
    rw [State.seq_emit, State.tile_tileId]

theorem State.net_sendMessage (s : State) (t : BitVec 10) (r : BitVec 16) (dest arg xform : Word) (payload : List Byte)
    (sets : Option Sets) : (s.sendMessage t r dest arg xform payload sets).net =
      s.net ++ [⟨s.uids, .plain, mkMsgId (s.tile t).seq t s.hub.devnum, dest, arg, dClass dest, r, payload.length,
        payload,
        xform, sets, if s.remote dest = true then none else some (s.cut t r).colour⟩] := by
  have hremote : (s.tileId t).2.remote dest = s.remote dest := rfl
  unfold State.sendMessage
  dsimp only
  rw [hremote]
  split
  · rfl
  · rw [State.emit, State.cut_tileId]; rfl

theorem flush_cons {s : State} {e : SendEntry} {r : List SendEntry} (h : s.self.sends = e :: r) :
    flush s = flushEntry s e >>= fun t => flushList r (t.modSelf fun x => { x with sends := x.sends.drop 1 }) := by
  rw [flush, h]; rfl

theorem flushClaim : Claims.Flush := by
  refine ⟨fun s h => flush_nil h, fun s t h => sends_flushList_ok _ s t rfl h, fun s e r hsends =>
    ⟨fun t hentry => ?_, fun x hentry => ?_⟩,
    ?_, ?_⟩
  · rw [flush_cons hsends, hentry, ok_bind, flush, State.self_modSelf, (keepsWork_flushEntry_ok hentry).self, hsends]
    rfl
  · rw [flush_cons hsends, hentry, error_bind]
  · intro s u e bs q tile r htype hread
    refine ⟨u.sendMessage tile r e.dest e.arg e.xform bs (some e.sets), ?_, State.seq_sendMessage _ _ _ _ _ _ _ _,
      State.net_sendMessage _ _ _ _ _ _ _ _⟩
    refine (if_neg htype).trans ?_
    rw [show readPayload (s.release e.sets) e.src e.len.toNat = .ok (u, bs) from hread]
    rfl
  · intro s e q tile r htype
    refine ⟨_, if_pos htype, ?_, ?_⟩
    · show (((q.tileId tile).2.emit tile r).2.tile tile).seq = _
      rw [State.seq_emit, State.tile_tileId]
    · show q.decs ++ [⟨q.uids, e.dest, e.arg.toNat, r, tile, some e.sets,
        some ((q.tileId tile).2.cut tile r).colour⟩] = _
      rw [State.cut_tileId]

/-! Sends and decrements into the buffer (R318, R326). -/

theorem buffer_short {s : State} (e : SendEntry) (h : s.self.sends.length < 16) :
    buffer s e = .ok (s.modSelf fun t => { t with sends := t.sends ++ [e] }) := by
  rw [buffer, if_neg (by omega), ok_bind]

theorem buffer_full {s u : State} (e : SendEntry) (h : 16 ≤ s.self.sends.length) (hflush : flush s = .ok u) :
    buffer s e = .ok (u.modSelf fun t => { t with sends := t.sends ++ [e] }) := by
  rw [buffer, if_pos h, hflush, ok_bind]

/-- A destination or a handle that R78 lets the current fibre reach passes the check for speculation. -/
theorem checkHeld_mayReach {s : State} {b : Bool} {h : Word} (hreach : MayReach s b h) :
    checkHeld s (b && (s.fibre? h).isSome && s.inSubtree s.me h) = .ok () := by
  refine if_pos ?_
  rcases hreach with hconf | ⟨hb, hsome, hsub⟩
  · rw [show s.confirmed = true from hconf]; rfl
  · rw [hb, hsome, hsub]; simp

theorem need_stops {s : State} {b : Bool} (c : Cause) (h : b = false) : need s b c = .error (.fault c 0 0 s) := by
  rw [h]; rfl

/-- A transform word that `send.t` takes (R122, R318). -/
def GoodXform (xform : Word) : Prop := xformOk xform = true ∧ (xKind xform = 5 → xParam xform % 4 = 0)

/-- The test of the transform word in a send. -/
theorem xformTest_iff (typed : Bool) (xform : Word) :
    (!typed || (xformOk xform && (decide (xKind xform ≠ 5) || decide (xParam xform % 4 = 0)))) = true ↔
      (typed = true → GoodXform xform) := by
  cases typed <;> simp [GoodXform, Decidable.imp_iff_not_or]

theorem lengthTest_iff (typed : Bool) (xform len : Word) :
    (!(typed && decide (xKind xform = 5) && decide (len.toNat % 4 ≠ 0))) = true ↔
      (typed = true → xKind xform = 5 → len.toNat % 4 = 0) := by
  cases typed <;> simp [Decidable.imp_iff_not_or]

/-- A send whose words are good goes on to its payload. -/
theorem sendBody_good {s t : State} {dest arg src len xform : Word} {typed : Bool} {c : BitVec 4} {x : Sets}
    (hpoint : NotReclaimed s) (hdest : s.destOk dest = true) (hxform : typed = true → GoodXform xform)
    (hlen : len.toNat ≤ 4096) (hmult : typed = true → xKind xform = 5 → len.toNat % 4 = 0)
      (hscope : useScope s c = .ok x)
    (hpayload : PayloadOk s src len t) (hreach : MayReach t (dMode dest == 1) (dFibre dest)) :
    sendBody s dest arg src len xform typed c =
      (buffer t ⟨dest, arg, addr56 src, c, if typed then 1 else 0, len.setWidth 13, xform, x⟩ >>= fun u =>
        .ok (u.advance 4)) := by
  have hheld : checkHeld t (decide (dMode dest = 1) && (t.fibre? (dFibre dest)).isSome &&
    t.inSubtree t.me (dFibre dest)) =
      .ok () := by
    rw [← Bool.beq_eq_decide_eq]; exact checkHeld_mayReach hreach
  rw [sendBody, show reclaimPoint s = .ok () from hpoint, ok_bind, need_of_true hdest, ok_bind,
    need_of_true ((xformTest_iff typed xform).mpr hxform), ok_bind, need_of_true (decide_eq_true hlen), ok_bind,
    need_of_true ((lengthTest_iff typed xform len).mpr hmult), ok_bind, hscope, ok_bind]
  rcases hpayload with ⟨hzero, rfl⟩ | ⟨hne, e, pa, hmapped, hresident⟩
  · rw [if_pos hzero]
    dsimp only
    rw [ok_bind, hheld, ok_bind]
  · rw [if_neg hne, hmapped, ok_bind]
    dsimp only
    rw [hresident, ok_bind, ok_bind, hheld, ok_bind]

/-- The stops of a send before it looks at its scope (R318). -/
theorem sendBody_badDest {s : State} {dest arg src len xform : Word} {typed : Bool} {c : BitVec 4}
    (hpoint : NotReclaimed s)
    (hdest : s.destOk dest = false) :
    sendBody s dest arg src len xform typed c = .error (.fault .sendInvalid 0 0 s) := by
  rw [sendBody, show reclaimPoint s = .ok () from hpoint, ok_bind, need_stops _ hdest, error_bind]

theorem sendBody_badXform {s : State} {dest arg src len xform : Word} {c : BitVec 4} (hpoint : NotReclaimed s)
    (hdest : s.destOk dest = true) (hxform : ¬GoodXform xform) :
    sendBody s dest arg src len xform true c = .error (.fault .sendInvalid 0 0 s) := by
  rw [sendBody, show reclaimPoint s = .ok () from hpoint, ok_bind, need_of_true hdest, ok_bind,
    need_stops _ (eq_false_of_ne_true fun h => hxform ((xformTest_iff true xform).mp h rfl)), error_bind]

theorem sendBody_badLength {s : State} {dest arg src len xform : Word} {typed : Bool} {c : BitVec 4}
    (hpoint : NotReclaimed s) (hdest : s.destOk dest = true) (hxform : typed = true → GoodXform xform)
    (hlen : 4096 < len.toNat ∨ (typed = true ∧ xKind xform = 5 ∧ len.toNat % 4 ≠ 0)) :
    sendBody s dest arg src len xform typed c = .error (.fault .payloadLength 0 0 s) := by
  rw [sendBody, show reclaimPoint s = .ok () from hpoint, ok_bind, need_of_true hdest, ok_bind,
    need_of_true ((xformTest_iff typed xform).mpr hxform), ok_bind]
  by_cases hlong : len.toNat ≤ 4096
  · obtain ⟨htyped, hkind, hodd⟩ := hlen.resolve_left (by omega)
    rw [need_of_true (decide_eq_true hlong), ok_bind,
      need_stops _ (eq_false_of_ne_true fun h => hodd ((lengthTest_iff typed xform len).mp h htyped hkind)), error_bind]
  · rw [need_stops _ (decide_eq_false hlong), error_bind]

theorem settle_buffer_short {s : State} (e : SendEntry) (h : s.self.sends.length < 16) :
    settle (buffer s e >>= fun u => .ok (u.advance 4)) =
      .next ((s.modSelf fun t => { t with sends := t.sends ++ [e] }).advance 4) := settle_bind_ok (buffer_short e h) _

theorem settle_buffer_full {s u : State} (e : SendEntry) (h : 16 ≤ s.self.sends.length) (hflush : flush s = .ok u) :
    settle (buffer s e >>= fun u => .ok (u.advance 4)) =
      .next ((u.modSelf fun t => { t with sends := t.sends ++ [e] }).advance 4) :=
        settle_bind_ok (buffer_full e h hflush) _

theorem settle_fault_of_eq {b : Body} {c : Cause} {addr info : Word} {s : State}
    (h : b = .error (.fault c addr info s)) : settle b = .next (s.stop ⟨c, addr, info, none, none⟩) := by rw [h]; rfl

/-- A decrement whose operands are good (R326). -/
theorem execFibDec_good {s : State} {a b : BitVec 5} {c : BitVec 4} {x : Sets}
    (hform : handleForm (s.g a) = true ∧ (hKind (s.g a) = 1 ∨ hKind (s.g a) = 2))
    (hcount : 0 < (s.g b).toNat ∧ (s.g b).toNat < 2 ^ 16) (hscope : useScope s c = .ok x)
      (hreach : MayReach s true (s.g a)) :
    execFibDec a b c s = settle (buffer s ⟨s.g a, s.g b, 0, c, 2, 0, 0, x⟩ >>= fun u => .ok (u.advance 4)) := by
  have hheld : checkHeld s ((s.fibre? (s.g a)).isSome && s.inSubtree s.me (s.g a)) = .ok () := checkHeld_mayReach hreach
  rw [execFibDec]
  dsimp only
  rw [need_of_true (by simpa using hform), ok_bind, need_of_true (by simpa using hcount), ok_bind, hscope, ok_bind,
    hheld, ok_bind]

theorem sendsClaim : Claims.Sends := by
  intro s t u d a b c x dest len xf put plain typed xfOk dec
  refine ⟨fun hpoint hdest hlen hscope hpayload hreach => ⟨fun hroom => ⟨?_, fun hxf hmult => ?_⟩,
    fun hfull hflush => ⟨?_, fun hxf hmult => ?_⟩⟩,
    fun hpoint => ⟨fun hdest => ⟨?_, ?_⟩, fun hdest hlen => ?_, fun hdest hxf => ?_, fun hdest hxf hlen => ?_⟩, ?_⟩
  · exact (congrArg settle (sendBody_good (typed := false) hpoint hdest nofun hlen nofun hscope hpayload hreach)).trans
      (settle_buffer_short _ hroom)
  · exact (congrArg settle (sendBody_good hpoint hdest (fun _ => hxf) hlen (fun _ => hmult) hscope hpayload
      hreach)).trans
      (settle_buffer_short _ hroom)
  · exact (congrArg settle (sendBody_good (typed := false) hpoint hdest nofun hlen nofun hscope hpayload hreach)).trans
      (settle_buffer_full _ hfull hflush)
  · exact (congrArg settle (sendBody_good hpoint hdest (fun _ => hxf) hlen (fun _ => hmult) hscope hpayload
      hreach)).trans
      (settle_buffer_full _ hfull hflush)
  · exact settle_fault_of_eq (sendBody_badDest hpoint hdest)
  · exact settle_fault_of_eq (sendBody_badDest hpoint hdest)
  · exact settle_fault_of_eq (sendBody_badLength (typed := false) hpoint hdest nofun (.inl hlen))
  · exact settle_fault_of_eq (sendBody_badXform hpoint hdest hxf)
  · exact settle_fault_of_eq (sendBody_badLength hpoint hdest (fun _ => hxf) (hlen.imp_right fun h => ⟨rfl, h⟩))
  · intro named counts
    refine ⟨fun hform hcount hscope hreach => ⟨fun hroom => ?_, fun hfull hflush => ?_⟩, fun hform => ?_,
      fun hform hcount => ?_⟩
    · exact (execFibDec_good hform hcount hscope hreach).trans (settle_buffer_short _ hroom)
    · exact (execFibDec_good hform hcount hscope hreach).trans (settle_buffer_full _ hfull hflush)
    · exact settle_bind_fault (need_stops _ (eq_false_of_ne_true fun h => hform (by simpa using h))) _
    · exact (settle_bind_ok (need_of_true (by simpa using hform)) _).trans
        (settle_bind_fault (need_stops _ (eq_false_of_ne_true fun h => hcount (by simpa [counts] using h))) _)

/-- Settles O29: sends by their checks, the flush by its entries. -/
theorem bufferedSends : Obligations.BufferedSends := by
  unfold Obligations.BufferedSends
  exact ⟨sendsClaim, flushClaim⟩

end Sys2Proof.Machine
end

section
/-! SUPPORT. Fibres, groups and futures (R65 to R81, R322 to R332). -/

namespace Sys2Proof.Machine

open Sys2Proof.Claims

/-- The high bits of a small word are zero. -/
theorem bits_high_eq_zero {x : Word} {l : Nat} (h : x.toNat < 2 ^ l) : bits x 63 l = 0 := by
  rw [bits, Nat.div_eq_of_lt h, Nat.zero_mod]

/-- A spawn that is not refused, by where its fibre is placed (R324). -/
theorem execSpawn_placed {s u v : State} {d a : BitVec 5} {h : Word} (hw : (s.g a).toNat < 2 ^ 25)
    (hrefused : s.spawnRefused (swTile (s.g a)) (swHandler (s.g a)) = false)
    (hblock : needOwnBlock s (swDetach (s.g a)) = .ok u)
    (hplace : u.placeFibre (swTile (s.g a)) (u.childOf (s.g a) (s.g (pair a))) = (h, v)) :
    execSpawn d a s = .next (((if swDetach (s.g a) = true then v else v.hold v.me h).makeReady h
      ⟨.first, swHandler (s.g a), 0, s.g (pair a), 0⟩).putG d h) := by
  rw [execSpawn]
  dsimp only
  rw [need_of_true (decide_eq_true (bits_high_eq_zero hw)), ok_bind, if_neg (ne_true_of_eq_false hrefused), hblock,
    ok_bind, hplace]
  rfl

theorem execFibNew_placed {s u v : State} {d a b : BitVec 5} {h : Word} (hw : (s.g a).toNat < 2 ^ 25)
    (hlo : 0 < (s.g b).toNat) (hhi : (s.g b).toNat < 2 ^ 32)
    (hrefused : s.spawnRefused (swTile (s.g a)) (swHandler (s.g a)) = false)
    (hblock : needOwnBlock s (swDetach (s.g a)) = .ok u)
    (hplace : u.placeFibre (swTile (s.g a)) (u.childOf (s.g a) (s.g (pair a))) = (h, v)) :
    let pa := counterAt (swTile (s.g a)) (hSlot h)
    let q := (v.pokeNat pa 8 (s.g b).toNat).modFibre (fibreHandle h) fun f =>
      { f with depctr := BitVec.ofNat 64 pa, waitsCounter := true }
    execFibNew d a b s = .next ((if swDetach (s.g a) = true then q else q.hold q.me h).putG d h) := by
  intro pa q
  rw [execFibNew]
  dsimp only
  rw [need_of_true (decide_eq_true (bits_high_eq_zero hw)), ok_bind, need_of_true (by simpa using ⟨hlo, hhi⟩), ok_bind,
    if_neg (ne_true_of_eq_false hrefused), hblock, ok_bind, hplace]
  rfl

theorem spawns : Claims.Spawns := by
  intro s u d a b w home p n hw
  have hword : decide (bits w 63 25 = 0) = true := decide_eq_true (bits_high_eq_zero hw)
  refine ⟨fun hrefused => ⟨?_, fun hlo hhi => ?_⟩, fun hrefused hblock => ?_⟩
  · exact (settle_bind_ok (need_of_true hword) _).trans (congrArg settle (if_pos hrefused))
  · have hcount : (decide (0 < n) && decide (n < 2 ^ 32)) = true := by simpa using ⟨hlo, hhi⟩
    exact (settle_bind_ok (need_of_true hword) _).trans ((settle_bind_ok (need_of_true hcount) _).trans
      (congrArg settle (if_pos hrefused)))
  · exact ⟨execSpawn_placed hw hrefused hblock (Prod.eta _).symm,
      fun hlo hhi => execFibNew_placed hw hlo hhi hrefused hblock (Prod.eta _).symm⟩

/-- The launch of an empty group (R80). -/
theorem launch_empty {u v : State} {w arg h : Word} {c : BitVec 4} {x : Sets} {ctr : Option Nat} (nx ny : Nat)
    (hplace : (u.release x).placeGroup ((u.release x).groupFuture (swDetach w) ((u.release x).childOf w arg).conf
      0 c x ctr
      ((u.release x).groupWaits ctr)) = (h, v)) :
    let t := if swDetach w = true then v else v.hold v.me h
    u.launch w arg c x ctr nx ny 0 = (h, if (u.release x).groupWaits ctr = true then t else t.closeEmpty h
      (swDetach w)) := by
  intro t
  rw [State.launch]
  dsimp only
  rw [hplace]
  dsimp only
  cases (u.release x).groupWaits ctr <;> rfl

theorem releaseGroup_empty (q : State) (g : Word) (f : Future) (hmembers : f.members = []) (hleft : f.gleft = 0)
    (hpending : f.fstat = .pending) :
    let v := (q.modFuture g fun y => { y with released := true }).resolve g 0
    q.releaseGroup g f = (if f.detach = true then v.dropRef g else v).tryFree g := by
  intro v
  rw [State.releaseGroup, hmembers, hleft, hpending]
  rfl

/-- The words of a group launch and its scope are good, and its counter has passed its checks (R325). -/
structure GroupWords (s s' : State) (a b : BitVec 5) (c : BitVec 4) (x : Sets) (ctr : Option Nat) (nx ny n : Nat) :
  Prop where
  dims : (s.g b).toNat < 2 ^ 60
  word : (s.g a).toNat < 2 ^ 15
  scope : useScope s c = .ok x
  counter : groupCounter s (s.g (pair b)) = .ok (s', ctr)
  nx_eq : bits (s.g b) 19 0 = nx
  ny_eq : bits (s.g b) 39 20 = ny
  count_eq : nx * ny * bits (s.g b) 59 40 = n

section
variable {s s' : State} {d a b : BitVec 5} {c : BitVec 4} {x : Sets} {ctr : Option Nat} {nx ny n : Nat}

theorem execSpawnG_refused (h : GroupWords s s' a b c x ctr nx ny n)
    (hrefused : s'.groupRefused x.tileList (swHandler (s.g a)) n = true) :
    execSpawnG d a b c s = .next (s'.putG d 0) := by
  obtain ⟨hdims, hword, hscope, hcounter, hx, hy, hn⟩ := h
  rw [execSpawnG]
  dsimp only
  rw [need_of_true (decide_eq_true (bits_high_eq_zero hdims)), ok_bind, hscope, ok_bind,
    need_of_true (decide_eq_true (bits_high_eq_zero hword)), ok_bind, hcounter, ok_bind]
  dsimp only
  rw [hx, hy, hn, if_pos hrefused, settle_ok]

theorem execSpawnG_launched {u v : State} {g : Word} (h : GroupWords s s' a b c x ctr nx ny n)
    (hrefused : s'.groupRefused x.tileList (swHandler (s.g a)) n = false)
    (hblock : needOwnBlock s' (swDetach (s.g a)) = .ok u)
    (hlaunch : u.launch (s.g a) (s.g (pair a)) c x ctr nx ny n = (g, v)) :
    execSpawnG d a b c s = .next (v.putG d g) := by
  obtain ⟨hdims, hword, hscope, hcounter, hx, hy, hn⟩ := h
  rw [execSpawnG]
  dsimp only
  rw [need_of_true (decide_eq_true (bits_high_eq_zero hdims)), ok_bind, hscope, ok_bind,
    need_of_true (decide_eq_true (bits_high_eq_zero hword)), ok_bind, hcounter, ok_bind]
  dsimp only
  rw [hx, hy, hn, if_neg (ne_true_of_eq_false hrefused), hblock, ok_bind, hlaunch, settle_ok]

end

theorem groupLaunch : Claims.GroupLaunch := by
  intro s s' u d a b c x ctr w xyz nx ny n hxyz hw hscope hcounter
  have hx : bits (s.g b) 19 0 = nx := by simp only [bits, Nat.pow_zero, Nat.div_one]; rfl
  have hwords : GroupWords s s' a b c x ctr nx ny n := ⟨hxyz, hw, hscope, hcounter, hx, rfl, rfl⟩
  refine ⟨fun hrefused => execSpawnG_refused hwords hrefused, fun hrefused hblock => ?_,
    fun q g f hmembers hleft hpending => releaseGroup_empty q g f hmembers hleft hpending⟩
  intro p
  refine ⟨execSpawnG_launched hwords hrefused hblock (Prod.eta _).symm, fun hzero => ?_⟩
  intro q waits g t
  have hp : p = _ := (congrArg (u.launch w (s.g (pair a)) c x ctr nx ny) hzero).trans
    (launch_empty nx ny (Prod.eta _).symm)
  exact ⟨fun hwaits => hp.trans (by rw [if_pos hwaits]),
    fun hwaits => hp.trans (by rw [if_neg (ne_true_of_eq_false hwaits)])⟩

/-- Settles O30. -/
theorem launches : Obligations.Launches := by
  unfold Obligations.Launches
  exact ⟨spawns, groupLaunch⟩

end Sys2Proof.Machine
end

section
/-! SUPPORT. References, futures and continuations (R70 to R72, R327 to R332), and the end of an activation (R322,
R323). -/

namespace Sys2Proof.Machine

open Sys2Proof.Claims

theorem needFuture_ok {s : State} {h : Word} (hform : handleForm h = true) (hkind : hKind h = 2) :
    needFuture s h = .ok () := need_of_true (by simp [hform, hkind])

/-! References. -/

/-- What an `fref` does once its record is in place (R327). -/
def joinRecorded (live : Option Future) (holder fut : Word) (q : State) : Body :=
  match live with
  | none => stopWith (q.unrecord q.cur) .futureStale
  | some f => if f.count = 2 ^ 24 - 1 then .error (.wait .retest q) else .ok ((q.join holder fut).advance 4)

section
variable {s : State} {a b : BitVec 5} {holder : Word} {y : Fibre}

/-- The holder that an `fref` names (R327). -/
def NamesHolder (s : State) (b : BitVec 5) (holder : Word) : Prop :=
  (s.g b = 0 ∧ holder = s.me) ∨ (s.g b ≠ 0 ∧ holder = s.g b ∧ handleForm holder = true ∧ hKind holder = 1)

theorem NamesHolder.eq (h : NamesHolder s b holder) : (if s.g b = 0 then s.me else s.g b) = holder := by
  rcases h with ⟨hzero, rfl⟩ | ⟨hne, rfl, -⟩
  · exact if_pos hzero
  · exact if_neg hne

theorem NamesHolder.good (h : NamesHolder s b holder) :
    (decide (s.g b = 0) || (handleForm (s.g b) && decide (hKind (s.g b) = 1))) = true := by
  rcases h with ⟨hzero, -⟩ | ⟨-, rfl, hform, hkind⟩
  · rw [hzero]; rfl
  · rw [hform, hkind]; simp

/-- An `fref` whose checks pass, by whether its record is in place already. -/
theorem execFref_checked (hform : handleForm (s.g a) = true) (hkind : hKind (s.g a) = 2)
    (hholder : NamesHolder s b holder)
    (hfibre : s.fibre? holder = some y) (hregion : y.region = s.self.region) (hconf : Confirmed s) :
    execFref a b s = settle (if s.self.recording.isSome = true then
        joinRecorded (s.liveFuture (s.g a)) holder (s.g a) (s.record holder (s.g a))
      else needBlock s holder >>= fun u => joinRecorded (s.liveFuture (s.g a)) holder (s.g a)
        (u.record holder (s.g a))) := by
  rw [execFref]
  dsimp only
  rw [needFuture_ok hform hkind, ok_bind, need_of_true hholder.good, ok_bind, hholder.eq, hfibre]
  dsimp only
  rw [need_of_true (decide_eq_true hregion), ok_bind, checkHeld_of_confirmed hconf _, ok_bind]
  split <;> rfl

end

theorem references : Claims.References := by
  intro s u a b y fut hform hkind
  refine ⟨fun holder hholder hfibre hregion hconf => ?_, fun hfibre hheld => ?_⟩
  · have hexec := execFref_checked hform hkind hholder hfibre hregion hconf
    refine ⟨fun hnone hroom => ?_, fun hplace => ?_⟩
    · have hblock : needBlock s holder = .error (.wait .retest s) := by rw [needBlock, hroom]
      refine hexec.trans ?_
      rw [hnone, if_neg (by simp), hblock]
      rfl
    · intro q
      have hq : execFref a b s = settle (joinRecorded (s.liveFuture fut) holder fut q) := by
        refine hexec.trans ?_
        rcases hplace with ⟨hnone, hroom⟩ | ⟨hsome, rfl⟩
        · have hblock : needBlock s holder = .ok u := by rw [needBlock, hroom]
          rw [hnone, if_neg (by simp), hblock, ok_bind]
        · rw [if_pos hsome]
      refine ⟨fun f hlive => ⟨fun hcount => hq.trans ?_, fun hcount => hq.trans ?_⟩, fun hlive => hq.trans ?_⟩
      · rw [hlive, joinRecorded, if_neg hcount, settle_ok]
      · rw [hlive, joinRecorded, if_pos hcount]; rfl
      · rw [hlive, joinRecorded]; rfl
  · show execFdrop a s = _
    rw [execFdrop]
    dsimp only
    rw [needFuture_ok hform hkind, ok_bind, hfibre]
    dsimp only
    rw [need_of_true hheld, ok_bind, settle_ok]

/-! Futures. -/

/-- `fput` to the activation's own future (R330). -/
theorem execFput_own {s : State} {a b : BitVec 5} {c : BitVec 4} {x : Sets} {g : Future}
    (hform : handleForm (s.g a) = true)
    (hkind : hKind (s.g a) = 2) (hown : s.g a = futureHandle s.me) (hscope : useScope s c = .ok x)
    (hfuture : (s.release x).future? (s.g a) = some g) :
    execFput a b c s = .next ((if decide (g.fstat = .running) = true then
      (s.release x).resolve (s.g a) ((s.release x).g b) else s.release x).putP 7 (decide (g.fstat = .running))) := by
  have hheld : checkHeld s (decide (s.g a = futureHandle s.me)) = .ok () := by
    rw [decide_eq_true hown, checkHeld, Bool.or_true, if_pos rfl]
  rw [execFput]
  dsimp only
  rw [needFuture_ok hform hkind, ok_bind, hheld, ok_bind, need_of_true (decide_eq_true hown), ok_bind, hscope, ok_bind,
    hfuture]
  rfl

theorem futuresClaim : Claims.Futures := by
  intro s d a b c x f fut hform hkind
  refine ⟨fun hconf hlive => ?_, fun hown hscope g hfuture => ⟨fun hrunning => ?_, fun hnot => ?_⟩,
    fun hpoint hsends => ⟨fun hlive hfuture hresolved => ?_, fun hown hfuture hnot => ?_⟩⟩
  · have hsome : (s.liveFuture fut).isSome = true := by rw [hlive]; rfl
    exact (settle_bind_ok (needFuture_ok hform hkind) _).trans
      ((settle_bind_ok (checkHeld_of_confirmed hconf _) _).trans
      (settle_bind_ok (need_of_true hsome) _))
  · have hdoes := execFput_own (b := b) hform hkind hown hscope hfuture
    rw [decide_eq_true hrunning, if_pos rfl] at hdoes
    exact hdoes
  · have hdoes := execFput_own (b := b) hform hkind hown hscope hfuture
    rw [decide_eq_false hnot, if_neg Bool.false_ne_true] at hdoes
    exact hdoes
  · show execFget d a s = _
    rw [execFget, show reclaimPoint s = .ok () from hpoint, ok_bind, flush_nil hsends, ok_bind]
    dsimp only
    rw [needFuture_ok hform hkind, ok_bind, show s.future? (s.g a) = some f from hfuture]
    dsimp only
    rw [if_neg (by simp [hresolved]), show s.liveFuture (s.g a) = some f from hlive]
    dsimp only
    rw [if_pos hresolved, settle_ok]
  · show execFget d a s = _
    rw [execFget, show reclaimPoint s = .ok () from hpoint, ok_bind, flush_nil hsends, ok_bind]
    dsimp only
    rw [needFuture_ok hform hkind, ok_bind, show s.future? (s.g a) = some f from hfuture]
    dsimp only
    rw [if_pos (by simpa using ⟨hown, hnot⟩), settle_ok]

/-! Continuations. -/

theorem ofNat_bits_twelve (x : Word) : BitVec.ofNat 12 (bits x 11 0) = x.setWidth 12 := by
  apply BitVec.eq_of_toNat_eq
  simp [bits]

/-- A `fon` whose checks pass registers its continuation (R332). -/
theorem execFon_registers {s : State} {a b : BitVec 5} {y : Fibre} {g : Future} (hpoint : NotReclaimed s)
    (hsends : s.self.sends = []) (hform : handleForm (s.g a) = true) (hkind : hKind (s.g a) = 2)
    (hb : (s.g b).toNat < 2 ^ 12) (hinstalled : s.installed s.self.region (hTile s.me) ((s.g b).setWidth 12) = true)
    (hfibre : s.fibre? s.me = some y) (hcont : y.cont = false) (hlive : (s.liveFuture (s.g a)).isSome = true) :
    let t := s.modFibre s.me fun f =>
      { f with cont := true, conth := (s.g b).setWidth 12, waitfut := s.g a, settled := none }
    t.liveFuture (s.g a) = some g → execFon a b s = .next (((if decide (g.fstat = .resolved) = true then
      t.wakeWaiter (s.g a) s.me else t.modFuture (s.g a) fun f =>
        { f with waiters := f.waiters ++ [fibreHandle s.me] }).modSelf
        fun t => { t with fons := true }).advance 4) := by
  intro t hg
  have hgood : (decide (bits (s.g b) 63 12 = 0) && s.installed s.self.region (hTile s.me) ((s.g b).setWidth 12))
    = true := by
    rw [hinstalled, bits_high_eq_zero hb]; rfl
  rw [execFon, show reclaimPoint s = .ok () from hpoint, ok_bind, flush_nil hsends, ok_bind]
  dsimp only
  rw [needFuture_ok hform hkind, ok_bind, ofNat_bits_twelve, need_of_true hgood, ok_bind, hfibre]
  dsimp only
  rw [need_of_true (by rw [hcont]; rfl), ok_bind, need_of_true hlive, ok_bind, settle_ok, hg]

theorem continuations : Claims.Continuations := by
  intro s a b f y fut h hpoint hsends hform hkind hb hinstalled hfibre hcont hlive t g hg
  have hexec := execFon_registers hpoint hsends hform hkind hb hinstalled hfibre hcont (by rw [hlive]; rfl) hg
  refine ⟨fun hresolved => hexec.trans ?_, fun hnot => hexec.trans ?_⟩
  · rw [if_pos (decide_eq_true hresolved)]
  · rw [if_neg (by simpa using hnot)]

/-! The end of an activation. -/

theorem doneAndKeep : Claims.DoneAndKeep := by
  refine fun s => ⟨fun hpoint hdeferred hsends => ?_, ?_⟩
  · have hcheck : checkDeferred s (fun _ => true) = .ok () := by rw [checkDeferred, hdeferred]; rfl
    exact (settle_bind_ok hpoint _).trans ((settle_bind_ok hcheck _).trans (settle_bind_ok (flush_nil hsends) _))
  · have hkeep (t : Thread) : (t.keeps || decide (t.payLen ≠ 0)) = (t.keeps || t.payLen != 0) := by
      rw [bne, Bool.beq_eq_decide_eq, decide_not]
    show execKeep s = _
    simp only [execKeep, hkeep]

/-- Settles O31. -/
theorem futureForms : Obligations.FutureForms := by
  unfold Obligations.FutureForms
  exact ⟨references, futuresClaim, continuations, doneAndKeep⟩

end Sys2Proof.Machine
end

section
/-! SUPPORT. Commands of the copy, draw and exchange contexts at issue (R374 to R396, R403). -/

namespace Sys2Proof.Machine

open Sys2Proof.Claims

theorem commandPoint_ok {s : State} {c : BitVec 2} (h : CommandIssues s c) : commandPoint s c = .ok () := by
  obtain ⟨hpoint, hroom⟩ := h
  rw [commandPoint, show reclaimPoint s = .ok () from hpoint, ok_bind, if_pos hroom]

theorem needLength_ok {s : State} {n : Word} (h : n.toNat < 2 ^ 32) : needLength s n = .ok () :=
  need_of_true (decide_eq_true h)

theorem causeAt_ok {α : Type} {va : Word} {r : Except (Cause × State) α} {x : α} (h : r = .ok x) : causeAt va r =
    .ok x := by
  rw [h]; rfl

/-! Copies. -/

section
variable {s s1 s2 : State} {d a b : BitVec 5} {c : BitVec 4} {x : Sets} {src dst : List Span}

theorem does_cpy (hissue : CommandIssues s ctxCopy) (hn : (s.g b).toNat < 2 ^ 32)
    (hsrc : operand s (s.g a) (s.g b).toNat .read = .ok (s1, src))
    (hdst : operand s1 (s1.g d) (s.g b).toNat .write = .ok (s2, dst)) (hwrites : checkWrites s2 dst = .ok ()) :
    Does (.cpy d a b) s ((s2.enterCmd { s2.newCmd (.cpy d a b) ctxCopy with
      opd := s2.g d, opa := s2.g a, opb := s.g b, reads := ownIntervals s2.cur.tile src,
      writes := ownIntervals s2.cur.tile dst }).advance 4) :=
  (settle_bind_ok (commandPoint_ok hissue) _).trans <| (settle_bind_ok (needLength_ok hn) _).trans <|
    (settle_bind_ok hsrc _).trans <| (settle_bind_ok hdst _).trans <| settle_bind_ok hwrites _

theorem does_cpyT (hissue : CommandIssues s ctxCopy) (hn : (s.g b).toNat < 2 ^ 32)
    (hsrc : operand s (s.g a) (s.g b).toNat .read = .ok (s1, src)) (hform : xformOk (s.g (pair b)) = true)
    (hkind : xKind (s.g (pair b)) ≠ 5)
    (hdst : operand s1 (s1.g d) (outputLength (s.g (pair b)) (s.g b).toNat) .write = .ok (s2, dst))
    (hwrites : checkWrites s2 dst = .ok ()) :
    Does (.cpyT d a b) s ((s2.enterCmd { s2.newCmd (.cpyT d a b) ctxCopy with
      opd := s2.g d, opa := s2.g a, opb := s.g b, opb1 := s.g (pair b), reads := ownIntervals s2.cur.tile src,
      writes := ownIntervals s2.cur.tile (s2.writesSeen (s2.g d) (outputBound (s.g (pair b)) (s.g b).toNat)) }).advance
        4) := by
  have hxform : (xformOk (s.g (pair b)) && decide (xKind (s.g (pair b)) ≠ 5)) = true := by
    rw [hform, decide_eq_true hkind]; rfl
  exact (settle_bind_ok (commandPoint_ok hissue) _).trans <| (settle_bind_ok (needLength_ok hn) _).trans <|
    (settle_bind_ok (need_of_true hxform) _).trans <| (settle_bind_ok hsrc _).trans <| (settle_bind_ok hdst _).trans <|
    settle_bind_ok hwrites _

theorem does_cpyMc (hissue : CommandIssues s ctxCopy) (hn : (s.g b).toNat < 2 ^ 32)
    (hsrc : operand s (s.g a) (s.g b).toNat .read = .ok (s1, src)) (hscope : useScope s c = .ok x)
    (hdst : localOperand s1 (s1.g d) (s.g b).toNat .write = .ok (s2, dst)) (hconf : Confirmed s2) :
    Does (.cpyMc d a b c) s ((s2.enterCmd { s2.newCmd (.cpyMc d a b c) ctxCopy with
      opd := s2.g d, opa := s2.g a, opb := s.g b, sets := some x, reads := ownIntervals s2.cur.tile src,
      writes := ownIntervals s2.cur.tile dst }).advance 4) :=
  (settle_bind_ok (commandPoint_ok hissue) _).trans <| (settle_bind_ok hscope _).trans <|
    (settle_bind_ok (needLength_ok hn) _).trans <| (settle_bind_ok hsrc _).trans <| (settle_bind_ok hdst _).trans <|
    settle_bind_ok (checkHeld_of_confirmed hconf _) _

theorem does_promo {k : BitVec 2} (hissue : CommandIssues s ctxCopy) (hn : (s.g b).toNat < 2 ^ 32)
    (hsrc : operand s (s.g a) (s.g b).toNat .read = .ok (s1, src)) (hk : k ≠ 0 ∨ d = 0)
    (hdst : operand s1 (s1.g d) (if k = 0 then 0 else outputLength (k.setWidth 64) (s.g b).toNat) .write =
      .ok (s2, dst))
    (hhbm : ∀ y ∈ dst, y.pa < hbmEnd) (hconf : Confirmed s2) :
    Does (.promo d a b k) s ((s2.enterCmd { s2.newCmd (.promo d a b k) ctxCopy with
      opd := s2.g d, opa := s2.g a, opb := s.g b, opb1 := k.setWidth 64,
      reads := ownIntervals s2.cur.tile src }).advance 4) := by
  have hkind : (decide (k ≠ 0) || decide (d = 0)) = true := by simpa using hk
  have hall : (dst.all fun y => decide (y.pa < hbmEnd)) = true := List.all_eq_true.mpr fun y hy =>
    decide_eq_true (hhbm y hy)
  exact (settle_bind_ok (commandPoint_ok hissue) _).trans <| (settle_bind_ok (need_of_true hkind) _).trans <|
    (settle_bind_ok (needLength_ok hn) _).trans <| (settle_bind_ok hsrc _).trans <| (settle_bind_ok hdst _).trans <|
    (congrArg settle (if_pos hall)).trans <| settle_bind_ok (checkHeld_of_confirmed hconf _) _

theorem does_evict (hissue : CommandIssues s ctxCopy) (hn : (s.g b).toNat < 2 ^ 32)
    (hsrc : operand s (s.g a) (s.g b).toNat .read = .ok (s1, src)) (hconf : Confirmed s1) :
    Does (.evict a b) s ((s1.enterCmd { s1.newCmd (.evict a b) ctxCopy with opa := s.g a, opb := s.g b }).advance 4) :=
  (settle_bind_ok (commandPoint_ok hissue) _).trans <| (settle_bind_ok (needLength_ok hn) _).trans <|
    (settle_bind_ok hsrc _).trans <| settle_bind_ok (checkHeld_of_confirmed hconf _) _

variable {s3 : State} {desc : List Byte} {area list : List Span}

theorem does_gath (hissue : CommandIssues s ctxCopy) (hdesc : readDesc s (s.g a) = .ok (s1, desc))
    (hform : gsForm desc = true) (harea : localOperand s1 (s1.g d) (gsCount desc * gsElem desc) .write = .ok (s2, area))
    (hlist : localOperand s2 (gsIdx desc) (8 * gsCount desc) .read = .ok (s3, list))
    (hwrites : checkWrites s3 area = .ok ()) :
    Does (.gath d a) s ((s3.enterCmd { s3.newCmd (.gath d a) ctxCopy with
      opd := s3.g d, opa := s3.g a, desc := desc, reads := ownIntervals s3.cur.tile list,
      writes := ownIntervals s3.cur.tile area }).advance 4) :=
  (settle_bind_ok (commandPoint_ok hissue) _).trans <| (settle_bind_ok hdesc _).trans <|
    (settle_bind_ok (need_of_true hform) _).trans <| (settle_bind_ok harea _).trans <| (settle_bind_ok hlist _).trans <|
    settle_bind_ok hwrites _

/-- The pieces that a `scat` would write pass the check for speculation. -/
theorem checkWrites_scat (hmay : Confirmed s3 ∨
      ∀ y ∈ s3.scatTargets desc (list.flatMap fun x => s3.peek x.pa x.len), s3.mayWrite y.entry = true) :
    checkWrites s3 (if s3.confirmed then [] else s3.scatTargets desc (list.flatMap fun x => s3.peek x.pa x.len)) =
      .ok () := by
  refine if_pos ?_
  rcases hmay with hconf | hmay
  · rw [show s3.confirmed = true from hconf]; rfl
  · split
    next h => rw [h]; rfl
    next => rw [List.all_eq_true.mpr hmay, Bool.or_true]

theorem does_scat (hissue : CommandIssues s ctxCopy) (hdesc : readDesc s (s.g a) = .ok (s1, desc))
    (hform : gsForm desc = true) (harea : localOperand s1 (s1.g d) (gsCount desc * gsElem desc) .read = .ok (s2, area))
    (hlist : localOperand s2 (gsIdx desc) (8 * gsCount desc) .read = .ok (s3, list))
    (hmay : Confirmed s3 ∨
      ∀ y ∈ s3.scatTargets desc (list.flatMap fun x => s3.peek x.pa x.len), s3.mayWrite y.entry = true) :
    Does (.scat d a) s ((s3.enterCmd { s3.newCmd (.scat d a) ctxCopy with
      opd := s3.g d, opa := s3.g a, desc := desc, reads := ownIntervals s3.cur.tile (area ++ list) }).advance 4) :=
  (settle_bind_ok (commandPoint_ok hissue) _).trans <| (settle_bind_ok hdesc _).trans <|
    (settle_bind_ok (need_of_true hform) _).trans <| (settle_bind_ok harea _).trans <| (settle_bind_ok hlist _).trans <|
    settle_bind_ok (checkWrites_scat hmay) _

/-- An `rmove` whose checks pass, by whether the range is SHARED or moving (R403). -/
theorem does_rmove {l : Leaf} (hissue : CommandIssues s ctxCopy) (hscope : useScope s c = .ok x)
    (hva : (s.g a).toNat < 2 ^ 56) (hleaf : s.leafAt s.self.region (s.g a).toNat = some l)
    (hmove : l.entry.moveOk (s.g b) = true) (haccess : s.moveAccess l.entry (s.g b) = .ok ()) (hconf : Confirmed s) :
    Does (.rmove a b c) s (if (l.entry.shared || l.entry.forwarding) = true then s.putP 7 false
      else (s.enterCmd { s.newCmd (.rmove a b c) ctxCopy with
        opa := s.g a, opb := s.g b, sets := some x, reads := moveIntervals s.cur.tile l.entry l.entry.offset,
        writes := moveIntervals s.cur.tile l.entry (s.g b) }).putP 7 true) := by
  refine (settle_bind_ok (commandPoint_ok hissue) _).trans ((settle_bind_ok hscope _).trans ?_)
  dsimp only
  rw [if_pos hva, hleaf]
  refine (settle_bind_ok (need_of_true hmove) _).trans ((settle_bind_ok (causeAt_ok haccess) _).trans
    ((settle_bind_ok (checkHeld_of_confirmed hconf _) _).trans ?_))
  split <;> rfl

end

/-- Settles O41, form by form. -/
theorem copyCommands : Obligations.CopyCommands := by
  unfold Obligations.CopyCommands
  intro s s1 s2 d a b c x src dst n open'
  refine ⟨fun h => rfl, fun hissue hn hsrc => ⟨fun hdst hwrites => ?_, ?_, fun hscope hdst hconf => ?_,
    fun k hk hdst hhbm hconf => ?_, fun hconf => ?_⟩, fun s3 desc area list hissue hdesc hform =>
      ⟨fun harea hlist hwrites => ?_, fun harea hlist hmay => ?_⟩,
    fun l hissue hscope hva hleaf hmove haccess hconf => ⟨fun hshared hmoving => ?_, fun hheld => ?_⟩⟩
  · exact does_cpy hissue hn hsrc hdst hwrites
  · intro w hform hkind hdst hwrites
    exact does_cpyT hissue hn hsrc hform hkind hdst hwrites
  · exact does_cpyMc hissue hn hsrc hscope hdst hconf
  · exact does_promo hissue hn hsrc hk hdst hhbm hconf
  · exact does_evict hissue hn hsrc hconf
  · exact does_gath hissue hdesc hform harea hlist hwrites
  · exact does_scat hissue hdesc hform harea hlist hmay
  · have hdoes := does_rmove hissue hscope hva hleaf hmove haccess hconf
    rw [hshared, hmoving, if_neg (by simp)] at hdoes
    exact hdoes
  · have hdoes := does_rmove hissue hscope hva hleaf hmove haccess hconf
    rw [if_pos (Bool.or_eq_true_iff.mpr hheld)] at hdoes
    exact hdoes

end Sys2Proof.Machine
end

section
/-! SUPPORT. Draw and exchange commands at issue (R375 to R386, R392, R393). -/

namespace Sys2Proof.Machine

open Sys2Proof.Claims

/-! Draws. -/

/-- What the descriptor of a draw command has to keep besides its fields (R378, R383). -/
theorem drawAreasTest {f : DrawForm} {desc : List Byte}
    (htwo : f.twoStage desc = true → dwXaddr desc ≠ 0 ∧ dwMaddr desc = 0 ∧ (dwXaddr desc).toNat % 64 = 0)
    (hresidual : f.residual desc = true → dwXaddr desc ≠ 0) :
    (!(f.twoStage desc && (decide (dwXaddr desc = 0) || decide (dwMaddr desc ≠ 0))) &&
      !(f.residual desc && decide (dwXaddr desc = 0))) = true := by
  cases h2 : f.twoStage desc <;> cases hr : f.residual desc <;> simp_all

/-- A check that is made in one case only, and passes there, leaves what follows it. -/
theorem ite_bind_of_ok {c : Prop} [Decidable c] {b : Except Stop Unit} {rest : Unit → Body} (h : c → b = .ok ()) :
    (if c then b >>= rest else Except.ok () >>= rest) = rest () := by
  split
  next hc => rw [h hc, ok_bind]
  next => rw [ok_bind]

/-- A draw command whose checks pass (R375, R377, R378). -/
theorem settle_issueDraw {s s1 s2 s3 s4 : State} {i : Instr} {f : DrawForm} {d a : BitVec 5} {desc block : List Byte}
    {src dst : List Span} (hissue : CommandIssues s ctxDraw) (hdesc : readDesc s (s.g a) = .ok (s1, desc))
    (hform : dwForm f desc = true) (htag : f = .rng ∨ logitTag (dwTag desc) = true)
    (htwo : f.twoStage desc = true → dwXaddr desc ≠ 0 ∧ dwMaddr desc = 0 ∧ (dwXaddr desc).toNat % 64 = 0)
    (hresidual : f.residual desc = true → dwXaddr desc ≠ 0) (hareas : readAreas (f.areas desc) s1 = .ok (s2, src))
    (hout : localOperand s2 (s2.g d) (f.outBytes desc) .write = .ok (s3, dst))
    (hblock : (¬(f = .accept ∧ dwMode desc = 2) ∧ s4 = s3) ∨
      (f = .accept ∧ dwMode desc = 2 ∧ loadChecked s3 (dwXaddr desc) 64 64 = .ok (s4, block) ∧
        (wordAt block 3).toNat % 2 ^ 56 ≠ 0))
    (hwrites : checkWrites s4 dst = .ok ()) :
    settle (issueDraw i f d a s) = .next ((s4.enterCmd { s4.newCmd i ctxDraw with
      opa := s.g a, opd := s4.g d, desc := desc, reads := ownIntervals s4.cur.tile src,
      writes := ownIntervals s4.cur.tile dst }).advance 4) := by
  have htag' : (decide (f = .rng) || logitTag (dwTag desc)) = true := by simpa using htag
  unfold issueDraw
  rw [commandPoint_ok hissue, ok_bind]
  dsimp only
  rw [hdesc, ok_bind]
  dsimp only
  rw [need_of_true hform, ok_bind, need_of_true htag', ok_bind, need_of_true (drawAreasTest htwo hresidual), ok_bind,
    ite_bind_of_ok fun h => checkAligned_ok (htwo h).2.2, hareas, ok_bind]
  dsimp only
  rw [hout, ok_bind]
  rcases hblock with ⟨hno, rfl⟩ | ⟨rfl, hmode, hload, hmask⟩
  · have hnot : ¬(decide (f = .accept) && decide (dwMode desc = 2)) = true := by simpa using hno
    dsimp only
    rw [if_neg hnot, ok_bind, hwrites, ok_bind, settle_ok]
  · have hmask' : decide (bits (wordAt block 3) 55 0 ≠ 0) = true := by simpa [bits] using hmask
    have hyes : (decide (DrawForm.accept = .accept) && decide (dwMode desc = 2)) = true := by simpa using hmode
    dsimp only
    rw [if_pos hyes, hload, ok_bind]
    dsimp only
    rw [need_of_true hmask', ok_bind, ok_bind, hwrites, ok_bind, settle_ok]

/-- Settles O42: the draw commands share their issue. -/
theorem drawCommands : Obligations.DrawCommands := by
  unfold Obligations.DrawCommands
  intro s s1 s2 s3 s4 d a desc block src dst ready go
  have hexec (i : Instr) (f : DrawForm) (h : ready f) : settle (issueDraw i f d a s) = .next (go i) := by
    obtain ⟨hissue, hdesc, hform, htag, htwo, hresidual, hareas, hout, hblock, hwrites⟩ := h
    exact settle_issueDraw hissue hdesc hform htag htwo hresidual hareas hout hblock hwrites
  exact ⟨hexec _ _, hexec _ _, hexec _ _, hexec _ _, hexec _ _, hexec _ _⟩

/-! Exchanges. -/

/-- Settles O43, form by form. -/
theorem exchangeCommands : Obligations.ExchangeCommands := by
  unfold Obligations.ExchangeCommands
  intro s s1 s2 s3 d a c x desc src dst hissue hscope hdesc
  refine ⟨fun hform htag hareas hout hconf => ?_, fun hform hformat hsrc hdst hconf => ?_,
    fun s4 s5 s6 held fwd rcv l m hform hheld hheld' hfwd hrcv hrcv' hconf => ?_⟩
  · exact (settle_bind_ok (commandPoint_ok hissue) _).trans <| (settle_bind_ok hscope _).trans <|
      (settle_bind_ok hdesc _).trans <| (settle_bind_ok (need_of_true hform) _).trans <|
      (settle_bind_ok (need_of_true htag) _).trans <| (settle_bind_ok hareas _).trans
        <| (settle_bind_ok hout _).trans <|
      settle_bind_ok (checkHeld_of_confirmed hconf _) _
  · intro new
    have hexec : execColl a c s = .next ((if s3.secondColl new = true then s3.enterCancelled new else s3.enterCmd
      new).advance 4) :=
      (settle_bind_ok (commandPoint_ok hissue) _).trans <| (settle_bind_ok hscope _).trans <|
        (settle_bind_ok hdesc _).trans <| (settle_bind_ok (need_of_true hform) _).trans <|
        (settle_bind_ok (need_of_true hformat) _).trans <| (settle_bind_ok hsrc _).trans
          <| (settle_bind_ok hdst _).trans <|
        settle_bind_ok (checkHeld_of_confirmed hconf _) _
    refine ⟨fun hnone => hexec.trans ?_, fun hsome => hexec.trans ?_⟩
    · have hnot : ¬s3.secondColl new = true := by simpa [State.secondColl] using hnone
      rw [if_neg hnot]
    · have hsecond : s3.secondColl new = true := List.any_eq_true.mpr hsome
      rw [if_pos hsecond]
      rfl
  · exact (settle_bind_ok (commandPoint_ok hissue) _).trans <| (settle_bind_ok hscope _).trans <|
      (settle_bind_ok hdesc _).trans <| (settle_bind_ok (need_of_true hform) _).trans <|
      (settle_bind_ok hheld _).trans <| (settle_bind_ok hheld' _).trans <| (settle_bind_ok hfwd _).trans <|
      (settle_bind_ok hrcv _).trans <| (settle_bind_ok hrcv' _).trans <| settle_bind_ok
        (checkHeld_of_confirmed hconf _) _

end Sys2Proof.Machine
end

section
/-! SUPPORT. Contexts, their frames, appends of tokens and attention commands (R187 to R202, R364 to R373). -/

namespace Sys2Proof.Machine

open Sys2Proof.Claims

/-! Checks of context forms that pass. -/

theorem needCtxForm_ok {s : State} {h : Word} (hform : h.toNat < 2 ^ 56) : needCtxForm s h = .ok () :=
  need_of_true (decide_eq_true (bits_high_eq_zero hform))

theorem checkWrites_single {s : State} {y : Span} (h : Confirmed s ∨ s.mayWrite y.entry = true) :
    checkWrites s [y] = .ok () := by
  refine if_pos ?_
  rcases h with hconf | hmay
  · rw [show s.confirmed = true from hconf]; rfl
  · simp [hmay]

/-! Appends and attention. -/

/-- The sets of a form that may have captured them before it waited (R170). -/
theorem settle_capturedSets {s : State} {c : BitVec 4} {x : Sets}
    (h : s.self.captured = some x ∨ (s.self.captured = none ∧ useScope s c = .ok x)) (f : Sets → Body) :
    settle (match s.self.captured with
      | some y => Except.ok y >>= f
      | none => useScope s c >>= f) = settle (f x) := by
  rcases h with h | ⟨h, hscope⟩
  · rw [h]; rfl
  · rw [h, hscope]; rfl

/-- `kvapp` from the sets that its scope gives it (R195, R368). -/
theorem does_kvapp {s s1 s2 s3 s4 : State} {d a b : BitVec 5} {c : BitVec 4} {x : Sets} {cx : Nat} {key val : List Byte}
    {u : State × AppendSpans} {y : AppendSpans} (hform : (s.g a).toNat < 2 ^ 56)
    (hsets : s.self.captured = some x ∨ (s.self.captured = none ∧ useScope s c = .ok x))
    (hopen : openCtx s (s.g a) .write = .ok (s1, cx))
    (hlayer : (s.g b).toNat / 2 ^ 32 % 2 ^ 7 ≤ s1.clayers cx) (hw : (s.g b).toNat < 2 ^ 39)
    (hkey : loadChecked s1 (s1.g d) (s1.rowK cx) 32 = .ok (s2, key))
    (hval : loadChecked s2 (s1.g (pair d)) (s1.rowV cx) 32 = .ok (s3, val)) (hslab : checkSlab s1 cx = .ok ())
    (hjudge : judgeAppend s1 cx (s.g a) ((s.g b).toNat % 2 ^ 32) x = .ok ())
    (hready : appendReady s1 cx ((s.g b).toNat % 2 ^ 32) ((s.g b).toNat / 2 ^ 32 % 2 ^ 7) = .ok u)
    (hready' : appendReady s3 cx ((s.g b).toNat % 2 ^ 32) ((s.g b).toNat / 2 ^ 32 % 2 ^ 7) = .ok (s4, y)) :
    Does (.kvapp d a b c) s
      ((s4.append cx ((s.g b).toNat % 2 ^ 32) ((s.g (pair b)).toNat % 2 ^ 32) y key val x).advance 4) := by
  have hlayerBits : bits (s.g b) 38 32 = (s.g b).toNat / 2 ^ 32 % 2 ^ 7 := rfl
  have hlane : (decide (bits (s.g b) 38 32 ≤ s1.clayers cx) && decide (bits (s.g b) 63 39 = 0)) = true := by
    rw [hlayerBits, decide_eq_true hlayer, decide_eq_true (bits_high_eq_zero hw)]; rfl
  rw [← bits_low] at hjudge hready hready'
  rw [← bits_low, ← bits_low]
  exact (settle_bind_ok (needCtxForm_ok hform) _).trans <| (settle_capturedSets hsets _).trans <|
    (settle_bind_ok hopen _).trans <| (settle_bind_ok (need_of_true hlane) _).trans <|
    (settle_bind_ok hkey _).trans <| (settle_bind_ok hval _).trans <| (settle_bind_ok hslab _).trans <|
    (settle_bind_ok hjudge _).trans <| (settle_bind_ok hready _).trans <| settle_bind_ok hready' _

/-- `attn` over an open context (R170, R370 to R372). -/
theorem does_attn {s s1 s2 s3 s4 s5 : State} {a b : BitVec 5} {c : BitVec 4} {x : Sets} {cx : Nat} {desc : List Byte}
    {q y z : Span} (hissue : CommandIssues s ctxMatrix) (hform : (s.g a).toNat < 2 ^ 56) (hscope : useScope s c = .ok x)
    (hopen : openCtx s (s.g a) .read = .ok (s1, cx)) (hdesc : readDesc s1 (s.g b) = .ok (s2, desc))
    (hat : atForm desc = true) (hlayer : atLayer desc ≤ s2.clayers cx) (hhead : atHead desc ≤ s2.kvh cx)
    (hqaddr : (atQaddr desc).toNat % 16 = 0) (hsaddr : (atSaddr desc).toNat % 16 = 0)
    (hq : matrixOperand s2 (atQaddr desc) (atRows desc * 4 * s2.cdim cx) .read = .ok (s3, q))
    (hy : matrixOperand s3 (atSaddr desc) (atRows desc * rowSize (s3.cdim cx)) .write = .ok (s4, y))
    (hz : (atInit desc = true ∧ s5 = s4) ∨ (atInit desc = false ∧
      matrixOperand s4 (atSaddr desc) (atRows desc * rowSize (s4.cdim cx)) .read = .ok (s5, z)))
    (hwrites : Confirmed s5 ∨ s5.mayWrite y.entry = true) (hpos : s5.fstart cx (s5.topFrame cx) ≤ atQpos desc) :
    let r := (s5.acquire x).joinEpoch cx
    Does (.attn a b c) s ((r.enterCmd { r.newCmd (.attn a b c) ctxMatrix with
      opa := s.g b, opd := s.g a, opb1 := BitVec.ofNat 64 cx, desc := desc, sets := some x,
      snapshot := some (r.snapshotOf cx),
      reads := ownIntervals r.cur.tile (if atInit desc = true then [q] else [q, y]),
      writes := ownIntervals r.cur.tile [y] }).advance 4) := by
  intro r
  have hlane : (decide (atLayer desc ≤ s2.clayers cx) && decide (atHead desc ≤ s2.kvh cx)) = true := by
    rw [decide_eq_true hlayer, decide_eq_true hhead]; rfl
  refine (settle_bind_ok (commandPoint_ok hissue) _).trans <| (settle_bind_ok (needCtxForm_ok hform) _).trans <|
    (settle_bind_ok hscope _).trans <| (settle_bind_ok hopen _).trans <| (settle_bind_ok hdesc _).trans <|
    (settle_bind_ok (need_of_true hat) _).trans <| (settle_bind_ok (need_of_true hlane) _).trans <|
    (settle_bind_ok (checkAligned_ok hqaddr) _).trans <| (settle_bind_ok (checkAligned_ok hsaddr) _).trans <|
    (settle_bind_ok hq _).trans <| (settle_bind_ok hy _).trans ?_
  rcases hz with ⟨hinit, rfl⟩ | ⟨hinit, hz⟩
  · refine (congrArg settle (if_pos hinit)).trans ?_
    exact (settle_bind_ok (checkWrites_single hwrites) _).trans <| settle_bind_ok (need_of_true (decide_eq_true hpos)) _
  · refine (congrArg settle (if_neg (ne_true_of_eq_false hinit))).trans <| (settle_bind_ok hz _).trans ?_
    exact (settle_bind_ok (checkWrites_single hwrites) _).trans <| settle_bind_ok (need_of_true (decide_eq_true hpos)) _

/-- `attn.fin` over a row and an output of the tile (R373). -/
theorem does_attnFin {s s1 s2 : State} {d a : BitVec 5} {y z : Span} (hissue : CommandIssues s ctxMatrix)
    (hrow : (s.g a).toNat % 16 = 0) (hout : (s.g d).toNat % 16 = 0)
    (hy : matrixOperand s (s.g a) 16 .read = .ok (s1, y)) (hz : matrixOperand s1 (s.g d) 64 .write = .ok (s2, z))
    (hwrites : Confirmed s2 ∨ s2.mayWrite z.entry = true) :
    Does (.attnFin d a) s ((s2.enterCmd { s2.newCmd (.attnFin d a) ctxMatrix with
      opa := s.g a, opd := s.g d, p7dst := true,
      reads := (ownIntervals s2.cur.tile [y]).map fun i => (i.1, i.1 + rowSize 256),
      writes := (ownIntervals s2.cur.tile [z]).map fun i => (i.1, i.1 + 1024) }).advance 4) :=
  (settle_bind_ok (commandPoint_ok hissue) _).trans <| (settle_bind_ok (checkAligned_ok hrow) _).trans <|
    (settle_bind_ok (checkAligned_ok hout) _).trans <| (settle_bind_ok hy _).trans <| (settle_bind_ok hz _).trans <|
    settle_bind_ok (checkWrites_single hwrites) _

/-- Settles O44, form by form. -/
theorem appendsAndAttention : Obligations.AppendsAndAttention := by
  unfold Obligations.AppendsAndAttention
  intro s s1 s2 s3 s4 s5 d a b c x cx h
  refine ⟨?_, ?_, ?_⟩
  · intro key val u y w hform hsets hopen hlayer hw hkey hval hslab hjudge hready hready'
    exact does_kvapp hform hsets hopen hlayer hw hkey hval hslab hjudge hready hready'
  · intro desc q y z hissue hform hscope hopen hdesc hat hlayer hhead hqaddr hsaddr hq hy hz hwrites hpos
    exact does_attn hissue hform hscope hopen hdesc hat hlayer hhead hqaddr hsaddr hq hy hz hwrites hpos
  · intro y z wide hissue hrow hout hy hz hwrites
    exact does_attnFin hissue hrow hout hy hz hwrites

/-! Frames. -/

variable {s q u : State} {d a b : BitVec 5} {cx : Nat}

theorem does_ctxBind (hne : s.g a ≠ 0) (hform : (s.g a).toNat < 2 ^ 56) (hopen : openCtx s (s.g a) .read = .ok (q, cx))
    (hslab : checkSlab q cx = .ok ())
    (hroom : (q.boundHandle ≠ 0 ∧ u = q) ∨ (q.boundHandle = 0 ∧ needBlock q q.me = .ok u)) :
    Does (.ctxBind a) s
      ((u.acqrel14 fun t => if t.boundHandle = s.g a then t else t.bindTo (s.g a) cx).advance 4) := by
  refine (congrArg settle (if_neg hne)).trans <| (settle_bind_ok (needCtxForm_ok hform) _).trans <|
    (settle_bind_ok hopen _).trans <| (settle_bind_ok hslab _).trans ?_
  rcases hroom with ⟨hbound, rfl⟩ | ⟨hbound, hblock⟩
  · exact congrArg settle (if_neg hbound)
  · exact (congrArg settle (if_pos hbound)).trans <| settle_bind_ok hblock _

/-- `fpush` below the limit of frames where every reserved token is valid (R190). -/
theorem does_fpush (hform : (s.g a).toNat < 2 ^ 56) (hopen : openCtx s (s.g a) .write = .ok (q, cx))
    (hslab : checkSlab q cx = .ok ()) (hnot2 : q.cstate cx ≠ 2) (hnot3 : q.cstate cx ≠ 3) (hdepth : q.cdepth cx < 16)
    (hvalid : q.cvalid cx = q.ccursor cx) : Does (.fpush a) s ((q.acqrel14 fun s => s.pushFrame cx).advance 4) := by
  have hstate : ¬(decide (q.cstate cx = 2) || decide (q.cstate cx = 3)) = true := by simp [hnot2, hnot3]
  exact (settle_bind_ok (needCtxForm_ok hform) _).trans <| (settle_bind_ok hopen _).trans <|
    (settle_bind_ok hslab _).trans <| (congrArg settle (if_neg hstate)).trans <|
    (settle_bind_ok (need_of_true (decide_eq_true hdepth)) _).trans <| congrArg settle (if_neg (not_not_intro hvalid))

theorem does_farg (hform : (s.g a).toNat < 2 ^ 56) (hopen : openCtx s (s.g a) .write = .ok (q, cx))
    (hslab : checkSlab q cx = .ok ()) (hseal : q.fseal cx (q.topFrame cx) = 0)
    (hspan : q.spanOk cx (q.topFrame cx) (s.g b).toNat (s.g (pair b)).toNat = true) :
    Does (.farg a b) s ((q.acqrel14 fun t =>
      (t.pokeNat (cx + 8 * frameWord (q.topFrame cx) (2 + t.fnarg cx (q.topFrame cx))) 8
        ((s.g b).toNat + (s.g (pair b)).toNat * 2 ^ 32)).setCx cx (frameWord (q.topFrame cx) 1) 2 0
        (t.fnarg cx (q.topFrame cx) + 1)).advance 4) :=
  (settle_bind_ok (needCtxForm_ok hform) _).trans <| (settle_bind_ok hopen _).trans <| (settle_bind_ok hslab _).trans <|
    (settle_bind_ok (need_of_true (decide_eq_true hseal)) _).trans <| settle_bind_ok (need_of_true hspan) _

theorem does_fpro (hform : (s.g a).toNat < 2 ^ 56) (hopen : openCtx s (s.g a) .write = .ok (q, cx))
    (hslab : checkSlab q cx = .ok ()) (hseal : q.fseal cx (q.topFrame cx) = 0)
    (hunset : q.fproset cx (q.topFrame cx) = 0) (hlen : q.ccursor cx - q.fstart cx (q.topFrame cx) ≤ 65535) :
    Does (.fpro a) s ((q.acqrel14 fun s => (s.setCx cx (frameWord (q.topFrame cx) 0) 47 32
      (q.ccursor cx - q.fstart cx (q.topFrame cx))).setCx cx (frameWord (q.topFrame cx) 1) 4 4 1).advance 4) := by
  have hspan : (decide (q.fproset cx (q.topFrame cx) = 0) &&
      decide (q.ccursor cx - q.fstart cx (q.topFrame cx) ≤ 65535)) = true := by
    rw [decide_eq_true hunset, decide_eq_true hlen]; rfl
  exact (settle_bind_ok (needCtxForm_ok hform) _).trans <| (settle_bind_ok hopen _).trans <|
    (settle_bind_ok hslab _).trans <| (settle_bind_ok (need_of_true (decide_eq_true hseal)) _).trans <|
    settle_bind_ok (need_of_true hspan) _

variable {k : BitVec 4}

theorem does_finfo_context (hk : k.toNat < 7) (hform : (s.g a).toNat < 2 ^ 56)
    (hopen : openCtx s (s.g a) .read = .ok (q, cx)) :
    Does (.finfo d a k) s ((q.acquire setsDevice).putG d (q.ctxInfo cx k.toNat)) := by
  have hsel : (decide (k.toNat < 10) && (decide (k.toNat < 7) || decide (a = 0))) = true := by
    rw [decide_eq_true hk, decide_eq_true (by omega)]; rfl
  exact (settle_bind_ok (need_of_true hsel) _).trans <| (congrArg settle (if_pos hk)).trans <|
    (settle_bind_ok (needCtxForm_ok hform) _).trans <| settle_bind_ok hopen _

theorem does_finfo_fibre (hlo : 7 ≤ k.toNat) (hhi : k.toNat < 10) (ha : a = 0) :
    Does (.finfo d a k) s ((s.acquire setsDevice).putG d (s.fibreInfo k.toNat)) := by
  have hsel : (decide (k.toNat < 10) && (decide (k.toNat < 7) || decide (a = 0))) = true := by
    rw [decide_eq_true hhi, decide_eq_true ha, Bool.or_true]; rfl
  exact (settle_bind_ok (need_of_true hsel) _).trans <| congrArg settle (if_neg (Nat.not_lt.mpr hlo))

theorem frameActs : Claims.FrameActs := by
  intro s q u d a b cx h
  refine ⟨fun hzero => congrArg settle (if_pos hzero), does_ctxBind, fun hform hopen hslab => ⟨?_, ?_, ?_⟩, fun k =>
    ⟨?_, ?_⟩⟩
  · exact does_fpush hform hopen hslab
  · intro k start len hseal hspan
    exact does_farg hform hopen hslab hseal hspan
  · intro k n hseal hunset hlen
    exact does_fpro hform hopen hslab hseal hunset hlen
  · exact does_finfo_context
  · exact does_finfo_fibre

/-! Pops and forks. -/

theorem does_fpop {q1 q2 : State} (hform : (s.g a).toNat < 2 ^ 56) (hopen : openCtx s (s.g a) .write = .ok (q, cx))
    (hslab : checkSlab q cx = .ok ()) (hvalid : q.cvalid cx = q.ccursor cx) (hstate : q.cstate cx ≠ 2)
    (hdepth : q.cdepth cx ≠ 1) (hsealed : q.seald cx ≤ q.topFrame cx) (hseal : q.fseal cx (q.topFrame cx) = 0)
    (hstart : q.fstart cx (q.topFrame cx) ≤ (s.g b).toNat)
    (hend : (s.g b).toNat + (s.g (pair b)).toNat ≤ q.ccursor cx) (hlen : (s.g (pair b)).toNat ≤ 2 ^ 20)
    (hreaders : q.otherReaders cx = 0)
    (hread : needSlab q [.read] ((List.range (s.g (pair b)).toNat).flatMap fun i =>
      q.tokenSpans cx ((s.g b).toNat + i) (List.range (q.clayers cx + 1))) = .ok q1)
    (hwrite : needSlab q1 [.write] ((List.range (s.g (pair b)).toNat).flatMap fun i =>
      q1.tokenSpans cx (q.fstart cx (q.topFrame cx) + i) (List.range (q.clayers cx + 1))) = .ok q2) :
    Does (.fpop a b) s ((q2.acqrel14 fun t => (t.moveTokens cx (q.topFrame cx - 1) (s.g b).toNat
      (q.fstart cx (q.topFrame cx)) (s.g (pair b)).toNat).publishPop cx (q.topFrame cx) (s.g (pair b)).toNat).advance
      4) := by
  have hunder : (decide (q.cdepth cx ≠ 1) && decide (q.seald cx ≤ q.topFrame cx)) = true := by
    rw [decide_eq_true hdepth, decide_eq_true hsealed]; rfl
  have hresult : (decide (q.fstart cx (q.topFrame cx) ≤ (s.g b).toNat) &&
      decide ((s.g b).toNat + (s.g (pair b)).toNat ≤ q.ccursor cx) && decide ((s.g (pair b)).toNat ≤ 2 ^ 20))
        = true := by
    rw [decide_eq_true hstart, decide_eq_true hend, decide_eq_true hlen]; rfl
  have hfree : ¬(decide (q.cvalid cx ≠ q.ccursor cx) || decide (q.otherReaders cx ≠ 0)) = true := by
    simp [hvalid, hreaders]
  exact (settle_bind_ok (needCtxForm_ok hform) _).trans <| (settle_bind_ok hopen _).trans <|
    (settle_bind_ok hslab _).trans <| (congrArg settle (if_neg hstate)).trans <|
    (settle_bind_ok (need_of_true hunder) _).trans <| (settle_bind_ok (need_of_true (decide_eq_true hseal)) _).trans <|
    (settle_bind_ok (need_of_true hresult) _).trans <| (congrArg settle (if_neg hfree)).trans <|
    (settle_bind_ok hread _).trans <| settle_bind_ok hwrite _

/-- `ffork` below the limit of a chain, by what the fork answers (R202). -/
theorem execFfork_of_fork (hform : (s.g a).toNat < 2 ^ 56) (hopen : openCtx s (s.g a) .write = .ok (q, cx))
    (hslab : checkSlab q cx = .ok ()) (hvalid : q.cvalid cx = q.ccursor cx) (hstate : q.cstate cx ≠ 2)
    (hchain : q.chain cx ≠ 15) :
    execFfork d a s = settle (match ((q.release setsDevice).sealFrames cx).forkCtx cx (s.g a) with
      | .error s => .error (.wait .retest s)
      | .ok (ch, s) => .ok ((s.acquire setsDevice).putG d ch)) :=
  (settle_bind_ok (needCtxForm_ok hform) _).trans <| (settle_bind_ok hopen _).trans <|
    (settle_bind_ok hslab _).trans <| (settle_bind_ok (need_of_true (decide_eq_true hchain)) _).trans <|
    (congrArg settle (if_neg hstate)).trans <| congrArg settle (if_neg (not_not_intro hvalid))

theorem popsAndForks : Claims.PopsAndForks := by
  intro s q d a b cx h hform hopen hslab hvalid hstate
  refine ⟨?_, ?_⟩
  · intro q1 q2 k rs rl hdepth hsealed hseal hstart hend hlen hreaders hslabs
    obtain ⟨hread, hwrite⟩ := hslabs
    exact does_fpop hform hopen hslab hvalid hstate hdepth hsealed hseal hstart hend hlen hreaders hread hwrite
  · intro hchain p
    have hexec := execFfork_of_fork (d := d) hform hopen hslab hvalid hstate hchain
    refine ⟨fun child t hfork => hexec.trans ?_, fun t hfork => hexec.trans ?_⟩
    · rw [show ((q.release setsDevice).sealFrames cx).forkCtx cx (s.g a) = .ok (child, t) from hfork]
      rfl
    · rw [show ((q.release setsDevice).sealFrames cx).forkCtx cx (s.g a) = .error t from hfork]
      rfl

/-- Settles O46: the acts on one frame, then pops and forks. -/
theorem contextForms : Obligations.ContextForms := ⟨frameActs, popsAndForks⟩

end Sys2Proof.Machine
end

section
/-! SUPPORT. Privilege (R420) and the forms over ranges (R129, R132, R135, R138, R143, R397 to R402, R404). -/

namespace Sys2Proof.Machine

open Sys2Proof.Claims

/-- Settles O48: every privileged form checks the privilege first. -/
theorem privilegeStops : Obligations.PrivilegeStops := by
  unfold Obligations.PrivilegeStops
  intro s d a b n m hnot t
  have hstop : needPrivilege s = .error (.fault .privileged 0 0 s) := need_of_false hnot
  exact ⟨settle_bind_fault hstop _, settle_bind_fault hstop _, settle_bind_fault hstop _, settle_bind_fault hstop _,
    settle_bind_fault hstop _, settle_bind_fault hstop _, settle_bind_fault hstop _, settle_bind_fault hstop _⟩

/-! Probes, changes of the tree, invalidations. -/

variable {s : State} {a b d : BitVec 5}

theorem does_rprobe_beyond (h : 2 ^ 56 ≤ (s.g a).toNat) : Does (.rprobe d a) s ((s.setP 7 false).putG d 0) := if_pos h

theorem does_rprobe_covered {q : State} {e : RangeEntry} (h : (s.g a).toNat < 2 ^ 56)
    (hlook : s.lookup s.cur.tile s.self.region (s.g a).toNat = .ok (q, e)) :
    Does (.rprobe d a) s ((q.setP 7 true).putG d (q.probeWord e (s.g a).toNat)) := by
  show execRprobe d a s = _
  simp only [execRprobe, if_neg (Nat.not_le.mpr h), hlook]

theorem does_rprobe_uncovered {q : State} {k : Cause} (h : (s.g a).toNat < 2 ^ 56)
    (hlook : s.lookup s.cur.tile s.self.region (s.g a).toNat = .error (k, q)) :
    Does (.rprobe d a) s ((q.setP 7 false).putG d 0) := by
  show execRprobe d a s = _
  simp only [execRprobe, if_neg (Nat.not_le.mpr h), hlook]

/-- A form that changes the tree, past the check for speculation (R132, R135). -/
theorem settle_treeForm (hconf : Confirmed s) (meets : State → Bool) (f : State → Except TreeStop State) :
    settle (treeForm s meets f) =
      settle (treeEnd (s.release setsDevice) (meets (s.release setsDevice)) (f (s.release setsDevice))) :=
  settle_bind_ok (checkHeld_of_confirmed hconf _) _

theorem settle_treeEnd_ok {meets : Bool} {r : Except TreeStop State} {t : State} (h : r = .ok t) :
    settle (treeEnd s meets r) = .next ((t.acquire setsDevice).putP 7 true) := by rw [h]; rfl

theorem settle_treeEnd_refused {meets : Bool} {r : Except TreeStop State} (h : r = .error none) :
    settle (treeEnd s meets r) = .next (((if meets = true then s.refuseNode else s).acquire setsDevice).putP 7
      false) := by
  rw [h]; rfl

theorem settle_treeEnd_waits {meets : Bool} {r : Except TreeStop State} {t : State} (h : r = .error (some t)) :
    settle (treeEnd s meets r) = .next (t.holdThread t.cur .retest) := by rw [h]; rfl

/-- `rinv` from the sets that its scope gives it (R138, R400). -/
theorem execRinv_of_sets {c : BitVec 4} {x : Sets} (hconf : Confirmed s)
    (hsets : s.self.captured = some x ∨ (s.self.captured = none ∧ useScope s c = .ok x)) :
    execRinv a c s =
      let u := (s.release x).dropThose (s.treeOf s.self.region) x s.cur.tile fun e => e.covers (s.g a).toNat
      settle (if (s.release x).pagesBusy (s.treeOf s.self.region) x (fun e => e.covers (s.g a).toNat) = true
        then .error (.wait .retest (u.modSelf fun t => { t with captured := some x }))
        else .ok ((u.acquire x).advance 4)) :=
  (settle_capturedSets hsets _).trans <| settle_bind_ok (checkHeld_of_confirmed hconf _) _

theorem rangeActs : Claims.RangeActs := by
  intro s d a b c x
  refine ⟨does_rprobe_beyond, fun hva => ⟨fun q e => does_rprobe_covered hva, fun k q => does_rprobe_uncovered hva⟩,
    fun hconf => ?_⟩
  intro q va split merge
  refine ⟨fun t h => ?_, fun h => ?_, fun t h => ?_, fun t h => ?_, fun h => ?_, fun t h => ?_, fun hsets => ?_,
    fun hpriv hd hk => ?_⟩
  · exact (settle_treeForm hconf _ _).trans (settle_treeEnd_ok h)
  · exact (settle_treeForm hconf _ _).trans (settle_treeEnd_refused h)
  · exact (settle_treeForm hconf _ _).trans (settle_treeEnd_waits h)
  · exact (settle_treeForm hconf _ _).trans (settle_treeEnd_ok h)
  · exact (settle_treeForm hconf _ _).trans (settle_treeEnd_refused h)
  · exact (settle_treeForm hconf _ _).trans (settle_treeEnd_waits h)
  · intro tree r u
    have hexec := execRinv_of_sets (a := a) hconf hsets
    exact ⟨fun hfree => hexec.trans (congrArg settle (if_neg (ne_true_of_eq_false hfree))),
      fun hbusy => hexec.trans (congrArg settle (if_pos hbusy))⟩
  · intro die
    have hdoes := does_rcompact hconf hpriv (Nat.le_of_lt_succ hd) hk
    exact ⟨fun hfree => State.requestCompaction_of_none hfree _ ▸ hdoes,
      fun hbusy => State.requestCompaction_of_ne_none hbusy _ ▸ hdoes⟩

/-! `rset`, `pin` and `unpin`. -/

variable {s1 : State} {bs : List Byte} {e : RangeEntry}

/-- `rset` past the check for speculation and the read of its image (R401). -/
theorem execRset_of_image (hconf : Confirmed s)
    (hload : loadChecked (s.release setsDevice) ((s.release setsDevice).g a) 64 64 = .ok (s1, bs)) :
    execRset a s = settle (do
      let _ ← need s1 (rsetForm bs && (entryOfBytes bs).allowed) .reservedField
      let _ ← need s1 (!s1.overlapsOther s1.self.region (entryOfBytes bs)) .rangeOverlap
      treeEnd s1 (s1.canSet s1.self.region (entryOfBytes bs)) (s1.rsetAct s1.self.region (entryOfBytes bs))) :=
  (settle_bind_ok (checkHeld_of_confirmed hconf _) _).trans <| settle_bind_ok hload _

theorem does_rset_reservedField (hconf : Confirmed s)
    (hload : loadChecked (s.release setsDevice) ((s.release setsDevice).g a) 64 64 = .ok (s1, bs))
    (hbad : rsetForm bs = false ∨ (entryOfBytes bs).allowed = false) :
    Does (.rset a) s (s1.stop ⟨.reservedField, 0, 0, none, none⟩) :=
  (execRset_of_image hconf hload).trans <|
    settle_bind_fault (need_of_false (Bool.and_eq_false_iff.mpr hbad)) _

/-- `rset` of an image in form (R129, R401). -/
theorem execRset_of_form (hconf : Confirmed s)
    (hload : loadChecked (s.release setsDevice) ((s.release setsDevice).g a) 64 64 = .ok (s1, bs))
    (hform : rsetForm bs = true) (hallowed : (entryOfBytes bs).allowed = true) :
    execRset a s = settle (do
      let _ ← need s1 (!s1.overlapsOther s1.self.region (entryOfBytes bs)) .rangeOverlap
      treeEnd s1 (s1.canSet s1.self.region (entryOfBytes bs)) (s1.rsetAct s1.self.region (entryOfBytes bs))) :=
  (execRset_of_image hconf hload).trans <| settle_bind_ok (need_of_true (Bool.and_eq_true_iff.mpr ⟨hform, hallowed⟩)) _

/-- `pin` and `unpin` of at least one byte that translates (R397). -/
theorem settle_pinBody {up : Bool} (hne : s.g b ≠ 0) (hn : (s.g b).toNat < 2 ^ 32)
    (htrans : s.translate s.cur.tile s.self.region (s.lineage s.me) (s.g a) (s.g b).toNat .read = .ok (s1, e))
    (hconf : Confirmed s1) :
    settle (pinBody up a b s) =
      let p := s1.pinBlocks up s1.self.region e [] (blocksOf (s.g a).toNat (s.g b).toNat)
      settle (if e.tiered = true then .ok (p.1.putP 7 p.2) else .ok (s1.putP 7 true)) :=
  (settle_bind_ok (needLength_ok hn) _).trans <| (congrArg settle (if_neg hne)).trans <|
    (settle_bind_ok (causeAt_ok htrans) _).trans <| settle_bind_ok (checkHeld_of_confirmed hconf _) _

theorem settle_pinBody_zero {up : Bool} (hconf : Confirmed s) (hzero : s.g b = 0) :
    settle (pinBody up a b s) = .next (s.putP 7 true) :=
  (settle_bind_ok (needLength_ok (by rw [hzero]; decide)) _).trans <| (congrArg settle (if_pos hzero)).trans <|
    settle_bind_ok (checkHeld_of_confirmed hconf _) _

theorem rangeSetAndPin : Claims.RangeSetAndPin := by
  intro s s1 a b bs e hconf
  refine ⟨?_, fun hzero => ⟨settle_pinBody_zero hconf hzero, settle_pinBody_zero hconf hzero⟩,
    fun hne hn htrans hconf1 => ?_⟩
  · intro q f hload
    refine ⟨does_rset_reservedField hconf hload, fun hform hallowed => ?_⟩
    have hexec := execRset_of_form hconf hload hform hallowed
    refine ⟨fun hover => hexec.trans ?_, fun hclear => ?_⟩
    · exact settle_bind_fault (need_of_false (by rw [hover]; rfl)) _
    · have hend := hexec.trans <| settle_bind_ok (need_of_true (by rw [hclear]; rfl)) _
      exact ⟨fun t h => hend.trans (settle_treeEnd_ok h), fun h => hend.trans (settle_treeEnd_refused h),
        fun t h => hend.trans (settle_treeEnd_waits h)⟩
  · have hpin (up : Bool) := settle_pinBody (up := up) hne hn htrans hconf1
    refine ⟨fun huntiered => ?_, fun htiered => ?_⟩
    · have hnot : ¬e.tiered = true := ne_true_of_eq_false huntiered
      exact ⟨(hpin true).trans (congrArg settle (if_neg hnot)), (hpin false).trans (congrArg settle (if_neg hnot))⟩
    · exact ⟨(hpin true).trans (congrArg settle (if_pos htiered)),
        (hpin false).trans (congrArg settle (if_pos htiered))⟩

/-- Settles O49: the acts on the tree and its entries, then the changes of entries and the pins. -/
theorem rangeForms : Obligations.RangeForms := ⟨rangeActs, rangeSetAndPin⟩

end Sys2Proof.Machine
end

section
/-! SUPPORT. The system forms (R104, R105, R159, R214, R226, R229, R407 to R412). -/

namespace Sys2Proof.Machine

open Sys2Proof.Claims

/-! Fields of a word as numbers. -/

theorem bits_high_eq_zero_iff {x : Word} {l : Nat} (hl : l ≤ 64) : bits x 63 l = 0 ↔ x.toNat < 2 ^ l := by
  refine ⟨fun h => ?_, bits_high_eq_zero⟩
  have hquot : x.toNat / 2 ^ l < 2 ^ (64 - l) := by
    rw [Nat.div_lt_iff_lt_mul (Nat.two_pow_pos _), ← Nat.pow_add, Nat.sub_add_cancel hl]
    exact x.isLt
  rw [bits, show 63 + 1 - l = 64 - l from rfl, Nat.mod_eq_of_lt hquot] at h
  exact (Nat.div_eq_zero_iff_lt (Nat.two_pow_pos _)).mp h

theorem bits_zero_low (x : Word) (h : Nat) : bits x h 0 = x.toNat % 2 ^ (h + 1) := by simp [bits]

theorem bits_of_lt {x : Word} {h : Nat} (hx : x.toNat < 2 ^ (h + 1)) : bits x h 0 = x.toNat := by
  rw [bits_zero_low, Nat.mod_eq_of_lt hx]

theorem ofNat_mod_pow (n k : Nat) : BitVec.ofNat n (k % 2 ^ n) = BitVec.ofNat n k :=
  BitVec.eq_of_toNat_eq (by simp)

/-! Reads of system registers. -/

variable {s : State} {a b d n m : BitVec 5}

theorem does_sysr {x : Word} (hpriv : Privileged s) (h : s.sysreg (sysregNumber n m) = some x) :
    Does (.sysr d n m) s (s.putG d x) :=
  (settle_bind_ok (needPrivilege_of_privileged hpriv) _).trans (by rw [h]; rfl)

theorem does_sysr_invalid (hpriv : Privileged s) (h : s.sysreg (sysregNumber n m) = none) :
    Does (.sysr d n m) s (s.stop ⟨.sysregInvalid, 0, 0, none, none⟩) :=
  (settle_bind_ok (needPrivilege_of_privileged hpriv) _).trans (by rw [h]; rfl)

theorem sysreg_srctl (s : State) (i : BitVec 2) : s.sysreg (8 + i.toNat) = some (s.die i).srctl := by
  have hi := i.isLt
  have hname : BitVec.ofNat 2 (8 + i.toNat - 8) = i := by rw
    [Nat.add_sub_cancel_left, BitVec.ofNat_toNat, BitVec.setWidth_eq]
  rw [State.sysreg, if_neg (by omega), if_neg (by omega), if_neg (by omega), if_neg (by omega), if_neg (by omega),
    if_neg (by omega), if_pos (by omega), hname]

theorem sysreg_srstat (s : State) (i : BitVec 2) : s.sysreg (12 + i.toNat) = some (s.die i).srstat := by
  have hi := i.isLt
  have hname : BitVec.ofNat 2 (12 + i.toNat - 12) = i := by
    rw [Nat.add_sub_cancel_left, BitVec.ofNat_toNat, BitVec.setWidth_eq]
  rw [State.sysreg, if_neg (by omega), if_neg (by omega), if_neg (by omega), if_neg (by omega), if_neg (by omega),
    if_neg (by omega), if_neg (by omega), if_pos (by omega), hname]

/-- A register that only acts reads 0 (R408). -/
theorem sysreg_acts (s : State) {k : Nat} (h : k = 16 ∨ k = 17) : s.sysreg k = some 0 := by
  rcases h with rfl | rfl <;> rfl

theorem sysreg_unlisted (s : State) {k : Nat} (h : k = 6 ∨ k = 7 ∨ 17 < k) : s.sysreg k = none := by
  rw [State.sysreg, if_neg (by omega), if_neg (by omega), if_neg (by omega), if_neg (by omega), if_neg (by omega),
    if_neg (by omega), if_neg (by omega), if_neg (by omega), if_neg (by omega)]

theorem systemReads : Claims.SystemReads := by
  intro s d n m hpriv k
  have hreads {x : Word} {j : Nat} (hk : k = j) (h : s.sysreg j = some x) : Does (.sysr d n m) s (s.putG d x) :=
    does_sysr hpriv (show s.sysreg k = some x by rw [hk, h])
  exact ⟨fun hk => hreads hk rfl, fun hk => hreads hk rfl, fun hk => hreads hk rfl, fun hk => hreads hk rfl,
    fun hk => hreads hk rfl, fun hk => hreads hk rfl, fun i hk => hreads hk (sysreg_srctl s i),
    fun i hk => hreads hk (sysreg_srstat s i), fun hk => does_sysr hpriv (sysreg_acts s hk),
    fun hk => does_sysr_invalid hpriv (sysreg_unlisted s hk)⟩

/-! Writes of system registers. -/

/-- What a write of SRCTL leaves in a die (R159). -/
theorem does_sysw_srctl {i : BitVec 2} (hpriv : Privileged s) (hk : sysregNumber n m = 8 + i.toNat)
    (hx : (s.g d).toNat < 2 ^ 23) :
    Does (.sysw d n m) s ((s.modDie i fun y =>
      { y with reserve := BitVec.ofNat 22 (s.g d).toNat, nolend := decide (2 ^ 22 ≤ (s.g d).toNat) }).advance 4) := by
  have hi := i.isLt
  have hname : BitVec.ofNat 2 (sysregNumber n m - 8) = i := by
    rw [hk, Nat.add_sub_cancel_left, BitVec.ofNat_toNat, BitVec.setWidth_eq]
  have hreserve : BitVec.ofNat 22 (bits (s.g d) 21 0) = BitVec.ofNat 22 (s.g d).toNat := by
    rw [bits_zero_low, ofNat_mod_pow]
  have hnolend : bit (s.g d) 22 = decide (2 ^ 22 ≤ (s.g d).toNat) := by
    rw [bit, Nat.testBit_eq_decide_div_mod_eq]
    exact decide_eq_decide.mpr (by omega)
  refine (settle_bind_ok (needPrivilege_of_privileged hpriv) _).trans <| (congrArg settle (if_pos (by omega))).trans <|
    (settle_bind_ok (need_of_true (decide_eq_true (bits_high_eq_zero hx))) _).trans ?_
  rw [hname, hreserve, hnolend]
  rfl

theorem does_sysw_srctl_reserved {i : BitVec 2} (hpriv : Privileged s) (hk : sysregNumber n m = 8 + i.toNat)
    (hx : 2 ^ 23 ≤ (s.g d).toNat) : Does (.sysw d n m) s (s.stop ⟨.reservedField, 0, 0, none, none⟩) := by
  have hi := i.isLt
  have hhigh : ¬bits (s.g d) 63 23 = 0 := by rw [bits_high_eq_zero_iff (by decide)]; omega
  exact (settle_bind_ok (needPrivilege_of_privileged hpriv) _).trans <| (congrArg settle (if_pos (by omega))).trans <|
    settle_bind_fault (need_of_false (decide_eq_false hhigh)) _

/-- A write of HOSTSIG, by what its check comes to (R408). -/
theorem execSysw_hostsig (hpriv : Privileged s) (hk : sysregNumber n m = 16) :
    execSysw d n m s = settle (do
      let _ ← need s (bits (s.g d) 63 4 = 0 && 2 ≤ bits (s.g d) 3 0) .reservedField
      .ok ((s.raise (BitVec.ofNat 4 (bits (s.g d) 3 0))).advance 4)) :=
  (settle_bind_ok (needPrivilege_of_privileged hpriv) _).trans <| (congrArg settle (if_neg (by omega))).trans <|
    congrArg settle (if_pos hk)

/-- A write of RGNCTL, by what its check comes to (R408). -/
theorem execSysw_rgnctl (hpriv : Privileged s) (hk : sysregNumber n m = 17) :
    execSysw d n m s = settle (do
      let _ ← need s (bits (s.g d) 63 18 = 0 && bits (s.g d) 17 16 < 2) .reservedField
      let r := BitVec.ofNat 16 (bits (s.g d) 15 0)
      let q := (s.setP 7 (s.rgnctlOk s.self.region r)).advance 4
      .ok (if bits (s.g d) 17 16 = 0 then q.rgnctlFreeze s.self.region r else q.rgnctlThaw s.self.region r)) :=
  (settle_bind_ok (needPrivilege_of_privileged hpriv) _).trans <| (congrArg settle (if_neg (by omega))).trans <|
    (congrArg settle (if_neg (by omega))).trans <| congrArg settle (if_pos hk)

theorem does_sysw_invalid (hpriv : Privileged s)
    (hk : sysregNumber n m < 8 ∨ (12 ≤ sysregNumber n m ∧ sysregNumber n m < 16) ∨ 17 < sysregNumber n m) :
    Does (.sysw d n m) s (s.stop ⟨.sysregInvalid, 0, 0, none, none⟩) :=
  (settle_bind_ok (needPrivilege_of_privileged hpriv) _).trans <| (congrArg settle (if_neg (by omega))).trans <|
    (congrArg settle (if_neg (by omega))).trans <| congrArg settle (if_neg (by omega))

/-- A word of HOSTSIG is in form where it names a vector of 2 to 15. -/
theorem hostsigForm_iff {x : Word} :
    (decide (bits x 63 4 = 0) && decide (2 ≤ bits x 3 0)) = true ↔ 2 ≤ x.toNat ∧ x.toNat < 16 := by
  rw [Bool.and_eq_true, decide_eq_true_eq, decide_eq_true_eq, bits_high_eq_zero_iff (by decide), bits_zero_low]
  omega

/-- A word of RGNCTL is in form where its act is 0 or 1. -/
theorem rgnctlForm_iff {x : Word} :
    (decide (bits x 63 18 = 0) && decide (bits x 17 16 < 2)) = true ↔ x.toNat < 2 ^ 17 := by
  rw [Bool.and_eq_true, decide_eq_true_eq, decide_eq_true_eq, bits_high_eq_zero_iff (by decide), bits]
  omega

theorem does_sysw_hostsig (hpriv : Privileged s) (hk : sysregNumber n m = 16) (hlo : 2 ≤ (s.g d).toNat)
    (hhi : (s.g d).toNat < 16) :
    Does (.sysw d n m) s ((s.raise (BitVec.ofNat 4 (s.g d).toNat)).advance 4) := by
  refine (execSysw_hostsig hpriv hk).trans <|
    (settle_bind_ok (need_of_true (hostsigForm_iff.mpr ⟨hlo, hhi⟩)) _).trans ?_
  rw [bits_of_lt hhi]
  rfl

theorem does_sysw_rgnctl (hpriv : Privileged s) (hk : sysregNumber n m = 17) (hx : (s.g d).toNat < 2 ^ 17) :
    let r := BitVec.ofNat 16 (s.g d).toNat
    let q := (s.setP 7 (s.rgnctlOk s.self.region r)).advance 4
    Does (.sysw d n m) s (if (s.g d).toNat < 2 ^ 16 then q.rgnctlFreeze s.self.region r else
      q.rgnctlThaw s.self.region r) := by
  intro r q
  have hact : bits (s.g d) 17 16 = 0 ↔ (s.g d).toNat < 2 ^ 16 := by rw [bits]; omega
  have hr : BitVec.ofNat 16 (bits (s.g d) 15 0) = r := by rw [bits_zero_low, ofNat_mod_pow]
  refine (execSysw_rgnctl hpriv hk).trans <| (settle_bind_ok (need_of_true (rgnctlForm_iff.mpr hx)) _).trans ?_
  simp only [hr, hact]
  rfl

theorem systemWrites : Claims.SystemWrites := by
  intro s d n m hpriv k x reserved
  refine ⟨fun i hk => ⟨does_sysw_srctl hpriv hk, does_sysw_srctl_reserved hpriv hk⟩, fun hk hx => ?_, fun hk hx => ?_,
    fun hk => does_sysw_hostsig hpriv hk, fun hk => does_sysw_rgnctl hpriv hk, does_sysw_invalid hpriv,
    settle_bind_ok (needPrivilege_of_privileged hpriv) _⟩
  · have hnot := mt hostsigForm_iff.mp (show ¬(2 ≤ x ∧ x < 16) by omega)
    exact (execSysw_hostsig hpriv hk).trans (settle_bind_fault (need_of_false (Bool.eq_false_iff.mpr hnot)) _)
  · have hnot := mt rgnctlForm_iff.mp (Nat.not_lt.mpr hx)
    exact (execSysw_rgnctl hpriv hk).trans (settle_bind_fault (need_of_false (Bool.eq_false_iff.mpr hnot)) _)

/-! The carve-out and the watch pairs. -/

/-- A value of CARVE within the limits (R104). -/
theorem carveOk_iff {x : Word} :
    carveOk x = true ↔ x.toNat % 2 ^ 5 ≤ 16 ∧ x.toNat / 2 ^ 5 % 2 ^ 3 ≤ 4 ∧ 2 ≤ x.toNat / 2 ^ 8 % 2 ^ 6 ∧
      x.toNat / 2 ^ 8 % 2 ^ 6 ≤ 32 ∧ x.toNat / 2 ^ 14 % 2 ^ 2 = 0 ∧ x.toNat < 2 ^ 25 ∧
      16 * (x.toNat % 2 ^ 5) + 96 * (x.toNat / 2 ^ 5 % 2 ^ 3) + x.toNat / 2 ^ 8 % 2 ^ 6 + 64 ≤ 384 := by
  simp only [carveOk, Bool.and_eq_true, decide_eq_true_eq, bits_high_eq_zero_iff (show 25 ≤ 64 by decide), and_assoc]
  simp only [bits, Nat.pow_zero, Nat.div_one]

/-- `carve` by its two checks (R410). -/
theorem does_carve (hpriv : Privileged s) (hform : carveOk (s.g a) = true)
    (hquiet : (s.tile s.cur.tile).quiescent (some s.cur.thread) = true) :
    Does (.carve a) s ((s.writeCarve s.cur.tile (BitVec.ofNat 5 ((s.g a).toNat % 2 ^ 5))
      (BitVec.ofNat 3 ((s.g a).toNat / 2 ^ 5 % 2 ^ 3)) (BitVec.ofNat 6 ((s.g a).toNat / 2 ^ 8 % 2 ^ 6))).advance
        4) := by
  rw [← bits_zero_low (s.g a) 4]
  exact (settle_bind_ok (needPrivilege_of_privileged hpriv) _).trans <| (settle_bind_ok (need_of_true hform) _).trans <|
    settle_bind_ok (need_of_true hquiet) _

theorem does_carve_reserved (hpriv : Privileged s) (hform : carveOk (s.g a) = false) :
    Does (.carve a) s (s.stop ⟨.reservedField, 0, 0, none, none⟩) :=
  (settle_bind_ok (needPrivilege_of_privileged hpriv) _).trans <| settle_bind_fault (need_of_false hform) _

theorem does_carve_busy (hpriv : Privileged s) (hform : carveOk (s.g a) = true)
    (hbusy : (s.tile s.cur.tile).quiescent (some s.cur.thread) = false) :
    Does (.carve a) s (s.stop ⟨.carveBusy, 0, 0, none, none⟩) :=
  (settle_bind_ok (needPrivilege_of_privileged hpriv) _).trans <| (settle_bind_ok (need_of_true hform) _).trans <|
    settle_bind_fault (need_of_false hbusy) _

/-- The home that the operand of `wpset` names (R226). -/
theorem wpHome_eq (y : Word) :
    wpHome y = if y.toNat / 2 ^ 2 % 2 = 0 then some (.tile (y.toNat / 2 ^ 3 % 2 ^ 10))
      else if y.toNat / 2 ^ 3 % 2 ^ 10 < 64 then some (.cmem (y.toNat / 2 ^ 3 % 2 ^ 10)) else none := by
  have hbits : bits y 12 3 = y.toNat / 2 ^ 3 % 2 ^ 10 := rfl
  have hbit : bit y 2 = !decide (y.toNat / 2 ^ 2 % 2 = 0) := by
    rw [bit, Nat.testBit_eq_decide_div_mod_eq, ← decide_not]
    exact decide_eq_decide.mpr (by omega)
  rw [wpHome, hbits, hbit]
  by_cases h : y.toNat / 2 ^ 2 % 2 = 0
  · rw [if_pos h, decide_eq_true h]; rfl
  · rw [if_neg h, decide_eq_false h]; rfl

/-- A pair image in form (R226, R411). -/
theorem pairOk_iff {s : State} {w0 w1 y : Word} :
    s.pairOk w0 w1 y = true ↔ y.toNat < 2 ^ 13 ∧ w0.toNat < 2 ^ 52 ∧ w1.toNat / 2 ^ 8 % 2 ^ 8 = 0 ∧ w1.toNat < 2 ^ 33 ∧
      3 ≤ w1.toNat % 2 ^ 4 ∧ w1.toNat % 2 ^ 4 ≤ 12 ∧ w0.toNat % 2 ^ (w1.toNat % 2 ^ 4) = 0 ∧ (wpHome y).isSome = true ∧
      home? w0.toNat = wpHome y ∧ (s.region? (BitVec.ofNat 16 (w1.toNat / 2 ^ 16))).isSome = true ∧
      s.atOrBelow s.self.region (BitVec.ofNat 16 (w1.toNat / 2 ^ 16)) = true := by
  have hregion : BitVec.ofNat 16 (bits w1 31 16) = BitVec.ofNat 16 (w1.toNat / 2 ^ 16) := ofNat_mod_pow 16 _
  simp only [State.pairOk, Bool.and_eq_true, decide_eq_true_eq, bits_high_eq_zero_iff (show 13 ≤ 64 by decide),
    bits_high_eq_zero_iff (show 52 ≤ 64 by decide), bits_high_eq_zero_iff (show 33 ≤ 64 by decide), and_assoc, hregion,
    bits_zero_low w1]
  by_cases hw0 : w0.toNat < 2 ^ 52
  · rw [bits_of_lt hw0]; rfl
  · exact ⟨fun h => absurd h.2.1 hw0, fun h => absurd h.2.1 hw0⟩

/-- The pair that an image in form gives (R226). -/
theorem pairOf_eq {w0 w1 : Word} (hw0 : w0.toNat < 2 ^ 52) :
    pairOf w0 w1 = ⟨BitVec.ofNat 52 w0.toNat, BitVec.ofNat 4 w1.toNat, bitAt w1 4, bitAt w1 5, bitAt w1 6, bitAt w1 7,
      BitVec.ofNat 16 (w1.toNat / 2 ^ 16), bitAt w1 32⟩ := by
  rw [pairOf, bits_of_lt hw0, bits_zero_low, ofNat_mod_pow,
    show BitVec.ofNat 16 (bits w1 31 16) = _ from ofNat_mod_pow 16 _]
  rfl

variable {s1 : State} {bs : List Byte}

theorem does_wpset (hpriv : Privileged s) (hload : loadChecked s (s.g a) 16 16 = .ok (s1, bs))
    (hform : s1.pairOk (wordAt bs 0) (wordAt bs 1) (s1.g b) = true) {i : Fin 4} (hi : i.val = (s1.g b).toNat % 4) :
    Does (.wpset a b) s ((s1.setPairs (wordAt bs 0).toNat ((s1.pairs (wordAt bs 0).toNat).set i
      (pairOf (wordAt bs 0) (wordAt bs 1)))).advance 4) := by
  obtain ⟨-, hw0, -⟩ := pairOk_iff.mp hform
  refine (settle_bind_ok (needPrivilege_of_privileged hpriv) _).trans <| (settle_bind_ok hload _).trans <|
    (settle_bind_ok (need_of_true hform) _).trans ?_
  have hindex : bits (s1.g b) 1 0 = i.val := (bits_zero_low _ _).trans hi.symm
  simp only [bits_of_lt (show (wordAt bs 0).toNat < 2 ^ (51 + 1) from hw0), hindex, dif_pos i.isLt]
  rfl

theorem does_wpset_reserved (hpriv : Privileged s) (hload : loadChecked s (s.g a) 16 16 = .ok (s1, bs))
    (hform : s1.pairOk (wordAt bs 0) (wordAt bs 1) (s1.g b) = false) :
    Does (.wpset a b) s (s1.stop ⟨.reservedField, 0, 0, none, none⟩) :=
  (settle_bind_ok (needPrivilege_of_privileged hpriv) _).trans <| (settle_bind_ok hload _).trans <|
    settle_bind_fault (need_of_false hform) _

theorem carveAndWatch : Claims.CarveAndWatch := by
  intro s s1 a b bs hpriv
  refine ⟨?_, fun hload => ?_⟩
  · intro x tregs accs lzb limits quiet
    refine ⟨fun hnot => ?_, fun hlim hquiet => ?_, fun hlim hbusy => ?_⟩
    · exact does_carve_reserved hpriv (Bool.eq_false_iff.mpr (mt carveOk_iff.mp hnot))
    · exact does_carve hpriv (carveOk_iff.mpr hlim) hquiet
    · exact does_carve_busy hpriv (carveOk_iff.mpr hlim) hbusy
  · intro w0 w1 y r named form
    have hnamed : wpHome (s1.g b) = named := wpHome_eq (s1.g b)
    have hform : s1.pairOk (wordAt bs 0) (wordAt bs 1) (s1.g b) = true ↔ form := by rw [pairOk_iff, hnamed]
    refine ⟨fun h i hi => ?_, fun h => ?_⟩
    · have hw0 : (wordAt bs 0).toNat < 2 ^ 52 := h.2.1
      exact pairOf_eq hw0 ▸ does_wpset hpriv hload (hform.mpr h) hi
    · exact does_wpset_reserved hpriv hload (Bool.eq_false_iff.mpr (mt hform.mp h))

/-! `eret` and `sstep`. -/

/-- The handle names a fibre of the issuer's region or of one below it whose fault is pending (R214). -/
def State.maySettle (s : State) (h : Word) : Bool :=
  handleForm h && hKind h = 1 && match s.fibre? h with
    | some f => s.atOrBelow s.self.region f.region && f.fault.isSome
    | none => false

theorem State.maySettle_iff {s : State} {h : Word} :
    s.maySettle h = true ↔ handleForm h = true ∧ hKind h = 1 ∧ ∃ f, s.fibre? h = some f ∧
      s.atOrBelow s.self.region f.region = true ∧ f.fault.isSome = true := by
  rw [State.maySettle, Bool.and_eq_true, Bool.and_eq_true, decide_eq_true_eq, and_assoc]
  cases s.fibre? h with
  | none => simp
  | some f => simp

/-- `eret` with a disposition of 0 to 3 (R407). -/
theorem execEret_of_disposition (hpriv : Privileged s) (hd : (s.g b).toNat < 4) :
    execEret a b s = settle (.ok (
      if (!s.maySettle (s.g a)) = true then s.putP 7 (s.maySettle (s.g a))
      else if (s.g b).toNat = 1 then
        ((s.putP 7 (s.maySettle (s.g a))).drainFibre (s.g a)).dispose (s.g a) (s.g b).toNat
      else (s.putP 7 (s.maySettle (s.g a))).dispose (s.g a) (s.g b).toNat)) :=
  (settle_bind_ok (needPrivilege_of_privileged hpriv) _).trans <|
    settle_bind_ok (need_of_true (decide_eq_true hd)) _

theorem does_eret_reserved (hpriv : Privileged s) (hd : 4 ≤ (s.g b).toNat) :
    Does (.eret a b) s (s.stop ⟨.reservedField, 0, 0, none, none⟩) :=
  (settle_bind_ok (needPrivilege_of_privileged hpriv) _).trans <|
    settle_bind_fault (need_of_false (decide_eq_false (Nat.not_lt.mpr hd))) _

theorem does_eret_settles (hpriv : Privileged s) (hd : (s.g b).toNat < 4) (hset : s.maySettle (s.g a) = true)
    (hne : (s.g b).toNat ≠ 1) : Does (.eret a b) s ((s.putP 7 true).dispose (s.g a) (s.g b).toNat) := by
  refine (execEret_of_disposition hpriv hd).trans ?_
  rw [hset, Bool.not_true, if_neg Bool.false_ne_true, if_neg hne]
  rfl

theorem does_eret_repeats (hpriv : Privileged s) (hset : s.maySettle (s.g a) = true) (hone : (s.g b).toNat = 1) :
    Does (.eret a b) s (((s.putP 7 true).drainFibre (s.g a)).dispose (s.g a) 1) := by
  refine (execEret_of_disposition hpriv (by omega)).trans ?_
  rw [hset, Bool.not_true, if_neg Bool.false_ne_true, if_pos hone, hone]
  rfl

theorem does_eret_none (hpriv : Privileged s) (hd : (s.g b).toNat < 4) (hset : s.maySettle (s.g a) = false) :
    Does (.eret a b) s (s.putP 7 false) := by
  refine (execEret_of_disposition hpriv hd).trans ?_
  rw [hset, Bool.not_false, if_pos rfl]
  rfl

/-- `sstep` of a thread that its operand names in form (R412). -/
theorem execSstep_of_form (hpriv : Privileged s) (hform : (s.g a).toNat < 2 ^ 13) :
    let y : ThreadId := ⟨BitVec.ofNat 10 (s.g a).toNat, BitVec.ofNat 3 ((s.g a).toNat / 2 ^ 10)⟩
    execSstep a s = settle (if s.steppable s.self.region y = true then
      .ok { (s.putP 7 true).modSelf (fun t => { t with hold := .stepping y }) with
        agenda := .step y.tile y.thread :: ((s.putP 7 true).modSelf fun t => { t with hold := .stepping y }).agenda }
      else .ok (s.putP 7 false)) := by
  intro y
  have htile : BitVec.ofNat 10 (bits (s.g a) 9 0) = BitVec.ofNat 10 (s.g a).toNat := by
    rw [bits_zero_low, ofNat_mod_pow]
  have hthread : BitVec.ofNat 3 (bits (s.g a) 12 10) = BitVec.ofNat 3 ((s.g a).toNat / 2 ^ 10) := ofNat_mod_pow 3 _
  refine (settle_bind_ok (needPrivilege_of_privileged hpriv) _).trans <|
    (settle_bind_ok (need_of_true (decide_eq_true (bits_high_eq_zero hform))) _).trans ?_
  rw [htile, hthread]

theorem does_sstep_reserved (hpriv : Privileged s) (h : 2 ^ 13 ≤ (s.g a).toNat) :
    Does (.sstep a) s (s.stop ⟨.reservedField, 0, 0, none, none⟩) := by
  have hhigh : ¬bits (s.g a) 63 13 = 0 := by rw [bits_high_eq_zero_iff (by decide)]; exact Nat.not_lt.mpr h
  exact (settle_bind_ok (needPrivilege_of_privileged hpriv) _).trans <|
    settle_bind_fault (need_of_false (decide_eq_false hhigh)) _

/-! A single step and its end in the agenda. -/

variable {q : State} {t : BitVec 10} {k : BitVec 3}

/-- An entry that is put off goes behind those that stand in the agenda. -/
theorem State.later_of_agenda (h : q.agenda ≠ []) (e : Act) : q.later e = { q with agenda := q.agenda ++ [e] } := by
  rw [State.later, if_neg (by simpa using h)]

theorem step_step (hpower : q.powered = true) (k : BitVec 3) :
    step { q with agenda := .step t k :: q.agenda } =
      if q.stepWaits ⟨t, k⟩ = true then .next (q.later (.step t k))
      else andThen (q.singleStep ⟨t, k⟩) fun u => { u with agenda := .stepDone t k :: u.agenda } :=
  if_neg (show ¬(!q.powered) = true by rw [hpower]; exact Bool.false_ne_true)

theorem step_stepDone (hpower : q.powered = true) (k : BitVec 3) :
    step { q with agenda := .stepDone t k :: q.agenda } =
      if q.stepOpen ⟨t, k⟩ = true then .next (q.later (.stepDone t k)) else .next (q.stepEnds ⟨t, k⟩) :=
  if_neg (show ¬(!q.powered) = true by rw [hpower]; exact Bool.false_ne_true)

/-- A step whose command still runs is not over (R229). -/
theorem State.stepOpen_of_cmd {c : Cmd} (hc : c ∈ (q.tile t).cmds) (hthr : c.thr = k)
    (hicnt : c.icnt = (q.thread ⟨t, k⟩).icnt) (hsusp : (q.thread ⟨t, k⟩).suspended = true) :
    q.stepOpen ⟨t, k⟩ = true := by
  have hown : (q.tile t).cmds.any (fun c => c.thr = k &&
      (c.icnt = (q.thread ⟨t, k⟩).icnt || !q.awaitsPartner t c)) = true :=
    List.any_eq_true.mpr ⟨c, hc, by rw [decide_eq_true hthr, decide_eq_true hicnt]; rfl⟩
  rw [State.stepOpen, hsusp]
  exact Bool.or_eq_true_iff.mpr (.inl hown)

theorem settleAndStep : Claims.SettleAndStep := by
  intro s a b hpriv h d settles
  have hsettles : s.maySettle h = true ↔ settles := State.maySettle_iff
  refine ⟨does_eret_reserved hpriv, fun hd hset => does_eret_settles hpriv hd (hsettles.mpr hset),
    fun hset => does_eret_repeats hpriv (hsettles.mpr hset),
    fun hd hset => does_eret_none hpriv hd (Bool.eq_false_iff.mpr (mt hsettles.mp hset)), fun hform => ?_,
    does_sstep_reserved hpriv, ?_⟩
  · intro y
    have hexec := execSstep_of_form hpriv hform
    exact ⟨fun hyes => hexec.trans (congrArg settle (if_pos hyes)),
      fun hno => hexec.trans (congrArg settle (if_neg (ne_true_of_eq_false hno)))⟩
  · rintro t k r q hpower rfl
    refine ⟨fun hwaits hne => ?_, fun hruns => ?_, fun hopen hne => ?_, fun hover => ?_,
      fun c hc hthr hicnt hsusp => State.stepOpen_of_cmd hc hthr hicnt hsusp⟩
    · rw [step_step hpower, if_pos hwaits, State.later_of_agenda hne]
    · rw [step_step hpower, if_neg (ne_true_of_eq_false hruns)]
    · rw [step_stepDone hpower, if_pos hopen, State.later_of_agenda hne]
    · rw [step_stepDone hpower, if_neg (ne_true_of_eq_false hover)]

/-- Settles O50: reads and writes of the system registers, the carve-out and the watch pairs, `eret` and `sstep`. -/
theorem systemForms : Obligations.SystemForms := ⟨systemReads, systemWrites, carveAndWatch, settleAndStep⟩

end Sys2Proof.Machine
end

section
/-! SUPPORT. How an activation stops (R210 to R217, R406). -/

namespace Sys2Proof.Machine

open Sys2Proof.Claims

variable {s : State} {x : ThreadId} {c : Cause} {addr info : Word}

/-! The cause that a stop gets. -/

theorem State.stopAs_of_not_system (h : s.isSystem (s.thread x).region x.tile (s.thread x).handler = false) (c : Cause)
    (info : Word) : s.stopAs x c info = (c, info) := by
  simp only [State.stopAs, h]
  rfl

theorem State.stopAs_of_system (h : s.isSystem (s.thread x).region x.tile (s.thread x).handler = true)
    (hfate : causeFate c ≠ .p) (info : Word) : s.stopAs x c info = (.doubleFault, 0) := by
  simp only [State.stopAs, h, decide_eq_true hfate]
  rfl

theorem State.stopAs_of_park (hfate : causeFate c = .p) (info : Word) : s.stopAs x c info = (c, info) := by
  have hnot : (decide (causeFate c ≠ .p)) = false := decide_eq_false (not_not_intro hfate)
  simp only [State.stopAs, hnot, Bool.and_false]
  rfl

/-! The effects of each fate, by the cause that the stop gets. -/

variable {c' : Cause} {info' : Word}

/-- The stop leaves its record with the fibre, which waits for a disposition (fates S, W and K of R210). -/
def State.stopPending (s : State) (x : ThreadId) (f : FaultRec) : State :=
  ((s.keepRecord x f).abort x true).pendFault (s.thread x).fibre f

/-- The thread is suspended behind the instruction (fate D of R210). -/
def State.stopDebug (s : State) (x : ThreadId) (f : FaultRec) : State :=
  ((s.modThread x fun t => { t with suspended := true, pc := t.pc + 4, hold := .free, counted := false }).sendDebug
    (some x.tile) f).askFreeze (s.thread x).region

/-- The fault stays with the fibre (fate F of R210; log 90). -/
def State.stopFrozen (s : State) (x : ThreadId) (f : FaultRec) : State :=
  ((((s.keepRecord x f).abort x true).modFibre (s.thread x).fibre fun y =>
    if y.rclm then y else { y with fault := some f }).sendDebug (some x.tile) f).askFreeze (s.thread x).region

theorem State.takeFate_pending (h : s.stopAs x c info = (c', info')) (hfate : causeFate c' = .s) :
    s.takeFate x none c addr info = s.stopPending x (s.faultRec x c' .s addr info') := by
  simp only [State.takeFate, h, hfate]
  rfl

theorem State.takeFate_kvRetry (h : s.stopAs x c info = (c', info')) (hfate : causeFate c' = .k) :
    s.takeFate x none c addr info = s.stopPending x (s.faultRec x c' .s addr info') := by
  simp only [State.takeFate, h, hfate]
  rfl

theorem State.takeFate_watchdog (h : s.stopAs x c info = (c', info')) (hfate : causeFate c' = .w) :
    s.takeFate x none c addr info =
      if (s.fibre? (s.thread x).fibre).any (·.rclm) = true then s.reclaimRunning x
      else s.stopPending x (s.faultRec x c' .w addr info') := by
  simp only [State.takeFate, h, hfate]
  cases s.fibre? (s.thread x).fibre <;> rfl

theorem State.takeFate_debug (h : s.stopAs x c info = (c', info')) (hfate : causeFate c' = .d) :
    s.takeFate x none c addr info = s.stopDebug x (s.faultRec x c' .d addr info') := by
  simp only [State.takeFate, h, hfate]
  rfl

theorem State.takeFate_frozen (h : s.stopAs x c info = (c', info')) (hfate : causeFate c' = .f) :
    s.takeFate x none c addr info = s.stopFrozen x (s.faultRec x c' .f addr info') := by
  simp only [State.takeFate, h, hfate]
  rfl

theorem State.takeFate_park (hfate : causeFate c = .p) :
    s.takeFate x none c addr info = s.parkFibre x (if c = .specHold then .speculation else .residency []) := by
  simp only [State.takeFate, State.stopAs_of_park hfate, hfate]

/-- A stop in a system handler is DOUBLE_FAULT, whatever the cause (R215). -/
theorem State.takeFault_system
    (h : (s.actsFor (some (s.thread x).eff)).isSystem (s.thread x).region x.tile (s.thread x).handler = true)
    (hfate : causeFate c ≠ .p) :
    s.takeFault x c addr info = ((s.actsFor (some (s.thread x).eff)).stopFrozen x
      ((s.actsFor (some (s.thread x).eff)).faultRec x .doubleFault .f addr 0)).actsFor s.acting :=
  congrArg (State.actsFor · s.acting) (State.takeFate_frozen (State.stopAs_of_system h hfate info) rfl)

/-! `trap` and `bkpt`. -/

theorem State.stop_of_active {f : StepStop} (h : s.self.suspended = false) : s.stop f = s.takeStop s.cur f :=
  if_neg (ne_true_of_eq_false h)

theorem State.stop_of_suspended {f : StepStop} (h : s.self.suspended = true) : s.stop f = s.holdStop s.cur f := if_pos h

theorem trapAndBreakpoint : Claims.TrapAndBreakpoint := by
  intro s t q system
  refine ⟨fun hactive => ⟨?_, ?_, fun hnot => ?_, fun hsystem => ⟨?_, ?_⟩⟩, fun hsusp => ⟨?_, ?_⟩⟩
  · exact congrArg Host.Outcome.next (State.stop_of_active hactive)
  · exact congrArg Host.Outcome.next (State.stop_of_active hactive)
  · exact congrArg (State.actsFor · s.acting) (State.takeFate_debug (State.stopAs_of_not_system hnot _ _) rfl)
  · rw [State.takeFault_system hsystem (by decide), State.takeFault_system hsystem (by decide)]
  · rw [State.takeFault_system hsystem (by decide), State.takeFault_system hsystem (by decide)]
  · exact congrArg Host.Outcome.next (State.stop_of_suspended hsusp)
  · exact congrArg Host.Outcome.next (State.stop_of_suspended hsusp)

/-! KV_RETRY over a context. -/

/-- The fibre h of a KV_RETRY parks until the regeneration ends, with the record (R207). -/
def State.parkRetry (s : State) (x : ThreadId) (h : Word) (cx : Nat) (r : FaultRec) : State :=
  ((s.keepRecord x r).parkFibre x (.regeneration cx)).modFibre h fun y =>
    if y.rclm = true then y else { y with kvFault := some r }

/-- The state in which a KV_RETRY over a context is judged: KVRETRY has risen (R207). -/
def State.countRetry (s : State) (cx : Nat) : State := s.setCx cx 10 31 0 (s.cx cx 10 31 0 + 1)

/-- What a KV_RETRY waits for: a region with a regeneration handler, an activation that is not of the system handler,
and a regeneration whose message did not become a dead letter (R207). -/
def State.RetryParks (s : State) (t : Thread) (x : ThreadId) (cx : Nat) : Prop :=
  (s.regen? t.region).isSome = true ∧ s.isSystem t.region x.tile t.handler = false ∧ t.regenFate cx ≠ .lettered

theorem State.retryParks_iff {t : Thread} {cx : Nat} :
    ((s.regen? t.region).isSome && !(s.isSystem t.region x.tile t.handler) && decide (t.regenFate cx ≠ .lettered)) =
      true ↔ s.RetryParks t x cx := by
  simp only [State.RetryParks, Bool.and_eq_true, Bool.not_eq_true', decide_eq_true_eq, and_assoc]

theorem State.takeRetry_eq (s : State) (x : ThreadId) (cx : Nat) (addr : Word) :
    s.takeRetry x none cx addr =
      let u := s.countRetry cx
      let v := u.parkRetry x (s.thread x).fibre cx (u.faultRec x .kvRetry .k addr 0)
      if ((u.regen? (s.thread x).region).isSome && !(u.isSystem (s.thread x).region x.tile (s.thread x).handler) &&
          decide ((s.thread x).regenFate cx ≠ .lettered)) = true then
        if (decide ((s.thread x).regenFate cx = .waiting) && decide (v.rgpend cx = 1)) = true then v
        else v.unpark (s.thread x).fibre
      else u.takeFate x none .kvRetry addr 0 := by
  rw [State.takeRetry]
  rfl

theorem State.takeRetry_parks {cx : Nat} (h : (s.countRetry cx).RetryParks (s.thread x) x cx) :
    s.takeRetry x none cx addr =
      let v := (s.countRetry cx).parkRetry x (s.thread x).fibre cx ((s.countRetry cx).faultRec x .kvRetry .k addr 0)
      if (decide ((s.thread x).regenFate cx = .waiting) && decide (v.rgpend cx = 1)) = true then v
      else v.unpark (s.thread x).fibre :=
  (s.takeRetry_eq x cx addr).trans (if_pos (State.retryParks_iff.mpr h))

theorem State.takeRetry_stops {cx : Nat} (h : ¬(s.countRetry cx).RetryParks (s.thread x) x cx) :
    s.takeRetry x none cx addr = (s.countRetry cx).takeFate x none .kvRetry addr 0 :=
  (s.takeRetry_eq x cx addr).trans (if_neg (mt State.retryParks_iff.mp h))

/-! Taking a stop. -/

theorem takingAStop : Claims.TakingAStop := by
  intro s x c addr info t q system rec' pending
  refine ⟨fun hnot => ?_, fun cx i => ?_, fun hpark => ?_, fun hsystem hfate => ?_, fun fa => rfl⟩
  · have hcause := State.stopAs_of_not_system (s := q) hnot c info
    exact ⟨fun h => congrArg (State.actsFor · s.acting) (State.takeFate_pending hcause h),
      fun h => (congrArg (State.actsFor · s.acting) (State.takeFate_watchdog hcause h)).trans
        (apply_ite (State.actsFor · s.acting) _ _ _),
      fun h => congrArg (State.actsFor · s.acting) (State.takeFate_debug hcause h),
      fun h => congrArg (State.actsFor · s.acting) (State.takeFate_frozen hcause h),
      fun h => congrArg (State.actsFor · s.acting) (State.takeFate_kvRetry hcause h)⟩
  · intro u r v k stopped
    refine ⟨fun hk hwaits hpend => ?_, fun hk hends => ?_, fun hk => ?_⟩
    · refine congrArg (State.actsFor · s.acting) ((State.takeRetry_parks (s := q) hk).trans (if_pos ?_))
      exact Bool.and_eq_true_iff.mpr ⟨decide_eq_true hwaits, decide_eq_true hpend⟩
    · refine congrArg (State.actsFor · s.acting) ((State.takeRetry_parks (s := q) hk).trans (if_neg fun h => ?_))
      obtain ⟨hwaits, hpend⟩ := Bool.and_eq_true_iff.mp h
      exact hends.elim (· (of_decide_eq_true hwaits)) (· (of_decide_eq_true hpend))
    · exact congrArg (State.actsFor · s.acting) (State.takeRetry_stops (s := q) hk)
  · exact congrArg (State.actsFor · s.acting) (State.takeFate_park hpark)
  · exact State.takeFault_system hsystem hfate

/-- Settles O51: the two instructions, then every fate. -/
theorem stops : Obligations.Stops := ⟨trapAndBreakpoint, takingAStop⟩

end Sys2Proof.Machine
end

section
/-! SUPPORT. STAT and its fields, regions that are asked to freeze, links, drives, TIME and the clock (R27, R29, R36,
R42, R53, R55, R56). -/

namespace Sys2Proof.Machine

open Sys2Proof.Claims

/-! The fields of STAT (R42). -/

theorem nb_le_one (b : Bool) : nb b ≤ 1 := by cases b <;> decide

theorem nb_injective : ∀ {a b : Bool}, nb a = nb b → a = b := by decide

theorem Hub.stat_toNat (h : Hub) : h.stat.toNat =
    nb h.ready + 2 * nb h.fail + h.phase.toNat * 2 ^ 2 + h.failstep.toNat * 2 ^ 6 + nb h.tsync * 2 ^ 16 +
      nb h.early * 2 ^ 17 + nb h.hmerr * 2 ^ 18 + h.linkup.toNat * 2 ^ 32 + h.driveup.toNat * 2 ^ 48 := by
  have hready := nb_le_one h.ready
  have hfail := nb_le_one h.fail
  have htsync := nb_le_one h.tsync
  have hearly := nb_le_one h.early
  have hhmerr := nb_le_one h.hmerr
  have hphase := h.phase.isLt
  have hfailstep := h.failstep.isLt
  have hlinkup := h.linkup.isLt
  have hdriveup := h.driveup.isLt
  rw [Hub.stat, wd, BitVec.toNat_ofNat, Nat.mod_eq_of_lt (by omega)]

/-- Equal words have equal fields. -/
theorem Hub.stat_fields {h g : Hub} (heq : h.stat = g.stat) :
    h.fail = g.fail ∧ h.phase = g.phase ∧ h.linkup = g.linkup ∧ h.driveup = g.driveup := by
  have hword := congrArg BitVec.toNat heq
  rw [Hub.stat_toNat, Hub.stat_toNat] at hword
  have hready := nb_le_one h.ready
  have hfail := nb_le_one h.fail
  have htsync := nb_le_one h.tsync
  have hearly := nb_le_one h.early
  have hhmerr := nb_le_one h.hmerr
  have hready' := nb_le_one g.ready
  have hfail' := nb_le_one g.fail
  have htsync' := nb_le_one g.tsync
  have hearly' := nb_le_one g.early
  have hhmerr' := nb_le_one g.hmerr
  have hphase := h.phase.isLt
  have hfailstep := h.failstep.isLt
  have hlinkup := h.linkup.isLt
  have hphase' := g.phase.isLt
  have hfailstep' := g.failstep.isLt
  have hlinkup' := g.linkup.isLt
  exact ⟨nb_injective (by omega), BitVec.eq_of_toNat_eq (by omega), BitVec.eq_of_toNat_eq (by omega),
    BitVec.eq_of_toNat_eq (by omega)⟩

/-! Changes of STAT. -/

theorem State.modStat_of_ne {s : State} {f : Hub → Hub} (h : (f s.hub).stat ≠ s.hub.stat) :
    s.modStat f = (s.modHub f).raise 1 := if_neg h

/-- A change of the hub with STAT leaves the changed hub, but for the count of vector 1. -/
theorem State.modStat_hub (s : State) (f : Hub → Hub) :
    (s.modStat f).hub = { f s.hub with msix := (s.modStat f).hub.msix } := by
  rw [State.modStat]
  dsimp only
  split <;> rfl

theorem State.modStat_regions (s : State) (f : Hub → Hub) : (s.modStat f).regions = s.regions := by
  rw [State.modStat]
  split <;> rfl

theorem State.modStat_mem (s : State) (f : Hub → Hub) : (s.modStat f).mem = s.mem := by
  rw [State.modStat]
  split <;> rfl

/-- A change of STAT raises vector 1 (R40). -/
theorem State.modStat_msix {s : State} {f : Hub → Hub} (h : (f s.hub).stat ≠ s.hub.stat)
    (hmsix : (f s.hub).msix = s.hub.msix) : (s.modStat f).hub.msix[1] = s.hub.msix[1] + 1 := by
  rw [State.modStat_of_ne h]
  show ((f s.hub).msix.set 1 ((f s.hub).msix[1] + 1))[1] = _
  rw [hmsix, Vector.getElem_set_self]

/-- Only the hub that the change leaves counts. -/
theorem State.modStat_congr {s : State} {f g : Hub → Hub} (h : f s.hub = g s.hub) : s.modStat f = s.modStat g := by
  have hmod : s.modHub f = s.modHub g := by rw [State.modHub, State.modHub, h]
  unfold State.modStat
  rw [hmod]

/-! Regions that are asked to freeze (R56, R218). -/

theorem mem_of_mfind {α : Type} {l : List (Nat × α)} {k : Nat} {a : α} (h : mfind l k = some a) : (k, a) ∈ l := by
  induction l with
  | nil => exact absurd h (by simp [mfind])
  | cons x l ih =>
    obtain ⟨i, b⟩ := x
    rw [mfind] at h
    split at h
    next hik => exact hik ▸ Option.some.inj h ▸ List.mem_cons_self
    next => exact List.mem_cons_of_mem _ (ih h)

theorem Region.freeze_of_frozen {x : Region} (h : x.frozen = true) : x.freeze = x := if_pos h

theorem Region.freeze_of_running {x : Region} (h : x.frozen = false) (hstop : x.stopping = false ∨ x.thawing = false) :
    x.freeze = { x with stopping := true, thawing := false, again := false } := by
  have hboth : ¬(x.stopping && x.thawing) = true := by rcases hstop with hs | ht <;> simp [*]
  exact (if_neg (ne_true_of_eq_false h)).trans (if_neg hboth)

theorem Region.freeze_of_thawing {x : Region} (h : x.frozen = false) (hstop : x.stopping = true)
    (hthaw : x.thawing = true) : x.freeze = { x with again := true } := by
  have hboth : (x.stopping && x.thawing) = true := by rw [hstop, hthaw]; rfl
  exact (if_neg (ne_true_of_eq_false h)).trans (if_pos hboth)

/-- A second request to freeze changes nothing. -/
theorem Region.freeze_freeze (x : Region) : x.freeze.freeze = x.freeze := by
  cases hfrozen : x.frozen with
  | true => rw [Region.freeze_of_frozen hfrozen, Region.freeze_of_frozen hfrozen]
  | false =>
    by_cases hboth : x.stopping = true ∧ x.thawing = true
    · rw [Region.freeze_of_thawing hfrozen hboth.1 hboth.2]
      exact Region.freeze_of_thawing hfrozen hboth.1 hboth.2
    · have hstop : x.stopping = false ∨ x.thawing = false := by
        simpa only [Classical.not_and_iff_not_or_not, Bool.not_eq_true] using hboth
      rw [Region.freeze_of_running hfrozen hstop]
      exact Region.freeze_of_running hfrozen (.inr rfl)

theorem State.region?_modRegion (s : State) (q r : BitVec 16) (f : Region → Region) :
    (s.modRegion q f).region? r = if q = r then (s.region? r).map f else s.region? r := by
  rw [State.modRegion]
  split
  next x hq =>
    show mfind (mset s.regions q.toNat (f x)) r.toNat = _
    rw [mfind_mset]
    split
    next h =>
      have hqr : q = r := BitVec.eq_of_toNat_eq h
      rw [if_pos hqr, ← hqr, hq]
      rfl
    next h => rw [if_neg fun hqr => h (congrArg BitVec.toNat hqr)]; rfl
  next hq =>
    split
    next h => rw [← h, hq]; rfl
    next => rfl

/-- Requests to freeze the regions of a list. -/
theorem State.region?_freezeList {r : BitVec 16} {x : Region} (l : List (BitVec 16)) {s : State}
    (h : s.region? r = some x) :
    (l.foldl (fun s q => s.modRegion q Region.freeze) s).region? r = if r ∈ l then some x.freeze else some x := by
  induction l generalizing s x with
  | nil => rw [if_neg List.not_mem_nil]; exact h
  | cons q l ih =>
    rw [List.foldl_cons]
    by_cases hq : q = r
    · have hhead : (s.modRegion q Region.freeze).region? r = some x.freeze := by
        rw [State.region?_modRegion, if_pos hq, h]; rfl
      rw [ih hhead, Region.freeze_freeze, if_pos (List.mem_cons.mpr (.inl hq.symm)), ite_self]
    · have hhead : (s.modRegion q Region.freeze).region? r = some x := by
        rw [State.region?_modRegion, if_neg hq, h]
      have hmem : r ∈ q :: l ↔ r ∈ l := by rw [List.mem_cons, or_iff_right (Ne.symm hq)]
      rw [ih hhead, ite_of_iff hmem]

/-- A loaded region is of its own group (R219). -/
theorem State.mem_group {s : State} {r : BitVec 16} {x : Region} (h : s.region? r = some x) : r ∈ s.group r := by
  rw [State.group]
  split
  next => exact List.mem_singleton_self r
  next =>
    refine List.mem_filter.mpr ⟨List.mem_map.mpr ⟨(r.toNat, x), mem_of_mfind h, ?_⟩, decide_eq_true rfl⟩
    rw [BitVec.ofNat_toNat, BitVec.setWidth_eq]

theorem State.region?_askFreeze {s : State} {r : BitVec 16} {x : Region} (h : s.region? r = some x) :
    (s.askFreeze r).region? r = some x.freeze :=
  (State.region?_freezeList (s.group r) h).trans (if_pos (State.mem_group h))

/-- Requests to freeze the groups of the regions of a list. -/
theorem State.region?_askFreezeList {r : BitVec 16} {x : Region} (l : List (Nat × Region)) {s : State}
    (h : s.region? r = some x) (hlast : x.freeze = x ∨ ∃ y ∈ l, BitVec.ofNat 16 y.1 = r) :
    (l.foldl (fun s y => s.askFreeze (BitVec.ofNat 16 y.1)) s).region? r = some x.freeze := by
  induction l generalizing s x with
  | nil =>
    have hfixed : x.freeze = x := hlast.resolve_right fun ⟨y, hy, _⟩ => List.not_mem_nil hy
    rw [hfixed]
    exact h
  | cons y l ih =>
    rw [List.foldl_cons]
    have hhead : (s.askFreeze (BitVec.ofNat 16 y.1)).region? r =
        if r ∈ s.group (BitVec.ofNat 16 y.1) then some x.freeze else some x :=
      State.region?_freezeList (s.group (BitVec.ofNat 16 y.1)) h
    by_cases hmem : r ∈ s.group (BitVec.ofNat 16 y.1)
    · rw [if_pos hmem] at hhead
      rw [ih hhead (.inl x.freeze_freeze), Region.freeze_freeze]
    · rw [if_neg hmem] at hhead
      refine ih hhead (hlast.imp_right ?_)
      rintro ⟨z, hz, hzr⟩
      refine ⟨z, (List.mem_cons.mp hz).resolve_left fun hzy => hmem ?_, hzr⟩
      rw [← hzy, hzr]
      exact State.mem_group h

theorem State.askFreeze_hub (s : State) (r : BitVec 16) : (s.askFreeze r).hub = s.hub := by
  rw [State.askFreeze]
  generalize s.group r = l
  induction l generalizing s with
  | nil => rfl
  | cons q l ih =>
    rw [List.foldl_cons, ih, State.modRegion]
    split <;> rfl

theorem State.freezeAll_hub (s : State) : s.freezeAll.hub = s.hub := by
  rw [State.freezeAll]
  generalize s.regions = l
  induction l generalizing s with
  | nil => rfl
  | cons x l ih => rw [List.foldl_cons, ih, State.askFreeze_hub]

theorem State.region?_failWith {s : State} {r : BitVec 16} {x : Region} (h : s.region? r = some x) (n : BitVec 4) :
    (s.failWith n).region? r = some x.freeze := by
  rw [State.failWith, State.region?, State.modStat_regions]
  refine State.region?_askFreezeList s.regions h (.inr ⟨(r.toNat, x), mem_of_mfind h, ?_⟩)
  rw [BitVec.ofNat_toNat, BitVec.setWidth_eq]

theorem State.failWith_hub (s : State) (n : BitVec 4) :
    (s.failWith n).hub.fail = true ∧ (s.failWith n).hub.failstep = n ∧
      (s.hub.fail = false → (s.failWith n).hub.msix[1] = s.hub.msix[1] + 1) := by
  rw [State.failWith]
  refine ⟨by rw [State.modStat_hub], by rw [State.modStat_hub], fun hfail => ?_⟩
  rw [State.modStat_msix ?_ rfl]
  · simp only [State.freezeAll_hub]
  · intro hstat
    have hsame := (Hub.stat_fields hstat).1
    rw [State.freezeAll_hub, hfail] at hsame
    exact Bool.noConfusion hsame

/-! Links and drives. -/

/-- A word with one bit cleared. -/
theorem getLsbD_clear (x : BitVec 16) (p : BitVec 4) (i : Nat) :
    (x &&& ~~~((1 : BitVec 16) <<< p.toNat)).getLsbD i = (x.getLsbD i && decide (i ≠ p.toNat)) := by
  have hp := p.isLt
  by_cases hi : i < 16
  · show (x &&& ~~~(1#16 <<< p.toNat)).getLsbD i = _
    rw [BitVec.getLsbD_and, BitVec.getLsbD_not, BitVec.getLsbD_shiftLeft, BitVec.getLsbD_one]
    by_cases hip : i = p.toNat
    · simp [hip]
    · have hbit : i < p.toNat ∨ i - p.toNat ≠ 0 := by omega
      rcases hbit with hlt | hne
      · simp [hi, hip, hlt]
      · simp [hi, hip, hne]
  · rw [BitVec.getLsbD_of_ge _ _ (by omega), BitVec.getLsbD_of_ge _ _ (by omega), Bool.false_and]

theorem clear_ne {x : BitVec 16} {p : BitVec 4} (h : x.getLsbD p.toNat = true) :
    x &&& ~~~((1 : BitVec 16) <<< p.toNat) ≠ x := by
  intro heq
  have hbit := getLsbD_clear x p p.toNat
  rw [heq, h, decide_eq_false (not_not_intro rfl)] at hbit
  exact Bool.noConfusion hbit

/-- A port that fails leaves LINKUP (R29). -/
theorem does_portFailure {s : State} {p : BitVec 4} (h : s.hub.linkup.getLsbD p.toNat = true) :
    ∃ t, Does (.portFailure p) s t ∧ t.hub.msix[1] = s.hub.msix[1] + 1 ∧
      ∀ i, t.hub.linkup.getLsbD i = (s.hub.linkup.getLsbD i && decide (i ≠ p.toNat)) := by
  refine ⟨_, congrArg Host.Outcome.next (if_pos h), ?_, fun i => ?_⟩
  · exact State.modStat_msix (fun hstat => clear_ne h (Hub.stat_fields hstat).2.2.1) rfl
  · rw [State.modStat_hub]
    exact getLsbD_clear _ p i

/-- A drive that fails leaves DRIVEUP (R36). -/
theorem does_driveFailure {s : State} {p : BitVec 4} (hready : s.hub.ready = true)
    (h : s.hub.driveup.getLsbD p.toNat = true) :
    ∃ t, Does (.driveFailure p) s t ∧ t.hub.msix[1] = s.hub.msix[1] + 1 ∧
      ∀ i, t.hub.driveup.getLsbD i = (s.hub.driveup.getLsbD i && decide (i ≠ p.toNat)) := by
  refine ⟨_, congrArg Host.Outcome.next (if_pos (Bool.and_eq_true_iff.mpr ⟨hready, h⟩)), ?_, fun i => ?_⟩
  · exact State.modStat_msix (fun hstat => clear_ne h (Hub.stat_fields hstat).2.2.2) rfl
  · rw [State.modStat_hub]
    exact getLsbD_clear _ p i

/-! The time master (R53). -/

theorem le_foldl_min {α : Type} (f : α → Nat) (l : List α) (n k : Nat) :
    k ≤ l.foldl (fun m a => min m (f a)) n ↔ k ≤ n ∧ ∀ a ∈ l, k ≤ f a := by
  induction l generalizing n with
  | nil => simp
  | cons a l ih => rw [List.foldl_cons, ih, Nat.le_min, List.forall_mem_cons, and_assoc]

theorem foldl_min_attained {α : Type} (f : α → Nat) (l : List α) (n : Nat) :
    l.foldl (fun m a => min m (f a)) n = n ∨ ∃ a ∈ l, l.foldl (fun m a => min m (f a)) n = f a := by
  induction l generalizing n with
  | nil => exact .inl rfl
  | cons a l ih =>
    rw [List.foldl_cons]
    rcases ih (min n (f a)) with h | ⟨b, hb, h⟩
    · rcases (by omega : min n (f a) = n ∨ min n (f a) = f a) with hn | ha
      · exact .inl (h.trans hn)
      · exact .inr ⟨a, List.mem_cons_self, h.trans ha⟩
    · exact .inr ⟨b, List.mem_cons_of_mem _ hb, h⟩

theorem Hub.le_masterNumber {h : Hub} {k : Nat} :
    k ≤ h.masterNumber ↔ k ≤ h.devnum.toNat ∧ ∀ r ∈ h.routes, k ≤ r.device.toNat := le_foldl_min _ _ _ _

theorem Hub.masterNumber_bounds (h : Hub) :
    h.masterNumber ≤ h.devnum.toNat ∧ (∀ r ∈ h.routes, h.masterNumber ≤ r.device.toNat) ∧
      (h.masterNumber = h.devnum.toNat ∨ ∃ r ∈ h.routes, h.masterNumber = r.device.toNat) := by
  obtain ⟨hself, hroutes⟩ := Hub.le_masterNumber.mp (Nat.le_refl h.masterNumber)
  exact ⟨hself, hroutes, foldl_min_attained _ _ _⟩

theorem Hub.master_iff (h : Hub) : h.master = true ↔ ∀ r ∈ h.routes, h.devnum.toNat ≤ r.device.toNat := by
  rw [Hub.master, decide_eq_true_eq]
  obtain ⟨hself, -⟩ := h.masterNumber_bounds
  constructor
  · intro heq
    exact (Hub.le_masterNumber.mp (Nat.le_of_eq heq.symm)).2
  · intro hall
    exact Nat.le_antisymm hself (Hub.le_masterNumber.mpr ⟨Nat.le_refl _, hall⟩)

/-! Domains, TIME and power. -/

/-- A domain that forms, by what TSYNC is then (R29, R53). -/
theorem does_linkDomainFormation {s : State} {n : BitVec 8} {l : BitVec 16} {r : List Route} {p : Int} {sync : Bool}
    (hready : s.hub.ready = true) (hn : n ≠ 0xFF)
    (hppm : (if ({ s.hub with devnum := n, linkup := l, routes := r } : Hub).master = true then 0 else s.ppm) = p)
    (hsync : (({ s.hub with devnum := n, linkup := l, routes := r } : Hub).master ||
      ((decide (s.hub.devnum ≠ 0xFF) && !s.hub.master &&
        decide (({ s.hub with devnum := n, linkup := l, routes := r } : Hub).masterNumber = s.hub.masterNumber)) &&
        s.hub.tsync)) = sync) :
    Does (.linkDomainFormation n l r) s ({ s with ppm := p }.modStat fun h =>
      { h with devnum := n, linkup := l, routes := r }.setSync sync) := by
  have hguard : (s.hub.ready && decide (n ≠ 0xFF)) = true := by rw [hready, decide_eq_true hn]; rfl
  refine congrArg Host.Outcome.next ((if_pos hguard).trans ?_)
  rw [← hppm, ← hsync]
  exact State.modStat_congr rfl

theorem does_linkDomainFormation_none {s : State} {l : BitVec 16} {r : List Route} :
    Does (.linkDomainFormation 0xFF l r) s s := by
  have hguard : ¬(s.hub.ready && decide ((0xFF : BitVec 8) ≠ 0xFF)) = true := by
    rw [decide_eq_false (not_not_intro rfl), Bool.and_false]
    exact Bool.false_ne_true
  exact congrArg Host.Outcome.next (if_neg hguard)

/-- The state of a synchronisation before the slots that are due fire (R53). -/
def State.synchronised (s : State) (k : BitVec 64) (p : Int) : State :=
  { s with
    time := if s.synced = false ∧ s.hub.master = false ∧ s.time.toNat + k.toNat < 2 ^ 64 then s.time + k else s.time
    ppm := if s.hub.master = true then 0 else p
    synced := s.synced || !s.hub.master }

theorem does_timeSync {s : State} {k : BitVec 64} {p : Int} {b : Bool} (h : s.hub.devnum ≠ 0xFF) :
    Does (.timeSync k p b) s ((s.synchronised k p).fireDue.modStat fun h => h.setSync (b || s.hub.master)) := by
  have hsteps : (!s.synced && !s.hub.master && decide (s.time.toNat + k.toNat < 2 ^ 64)) = true ↔
      s.synced = false ∧ s.hub.master = false ∧ s.time.toNat + k.toNat < 2 ^ 64 := by
    simp only [Bool.and_eq_true, Bool.not_eq_true', decide_eq_true_eq, and_assoc]
  refine congrArg Host.Outcome.next ((if_neg h).trans ?_)
  simp only [hsteps]
  rfl

/-- TIME never decreases (log 67). -/
theorem State.le_synchronised_time (s : State) (k : BitVec 64) (p : Int) :
    s.time.toNat ≤ (s.synchronised k p).time.toNat := by
  rw [State.synchronised]
  dsimp only
  split
  next h =>
    rw [BitVec.toNat_add, Nat.mod_eq_of_lt h.2.2]
    exact Nat.le_add_right _ _
  next => exact Nat.le_refl _

theorem State.powered_iff (s : State) : s.powered = true ↔ s.hub.hot = false ∨ ∃ x ∈ s.regions, x.2.frozen = false := by
  simp only [State.powered, Bool.or_eq_true, Bool.not_eq_true', List.any_eq_true]

/-- Settles O52, clause by clause. -/
theorem linksAndClock : Obligations.LinksAndClock := by
  unfold Obligations.LinksAndClock
  intro s
  refine ⟨fun hphase => ⟨congrArg Host.Outcome.next (if_neg hphase), congrArg Host.Outcome.next (if_neg hphase)⟩,
    s.failWith_hub, fun r x n hr => ⟨State.region?_askFreeze hr, State.region?_failWith hr n⟩,
    fun x => ⟨Region.freeze_of_frozen, Region.freeze_of_running, Region.freeze_of_thawing⟩, s.powered_iff,
    s.hub.master_iff, fun p => does_portFailure, fun p => does_driveFailure, ?_, Hub.masterNumber_bounds, ?_, rfl, rfl⟩
  · intro n l r hready joined known
    refine ⟨fun hn => ⟨fun hmaster => ?_, fun hother hknown => ?_, fun hother hnew => ?_⟩, ?_⟩
    · exact does_linkDomainFormation hready hn (if_pos hmaster) (by rw [hmaster, Bool.true_or])
    · obtain ⟨hdev, hself, hsame, hsync⟩ := hknown
      refine does_linkDomainFormation hready hn (if_neg (ne_true_of_eq_false hother)) ?_
      rw [hother, hself, hsync, decide_eq_true hdev, decide_eq_true hsame]
      rfl
    · refine does_linkDomainFormation hready hn (if_neg (ne_true_of_eq_false hother))
        (Bool.eq_false_iff.mpr fun h => hnew ?_)
      rw [hother, Bool.false_or] at h
      simpa only [Bool.and_eq_true, Bool.not_eq_true', decide_eq_true_eq, and_assoc] using h
    · rintro rfl
      exact does_linkDomainFormation_none
  · intro k p b hdev q sync
    exact ⟨does_timeSync hdev, s.le_synchronised_time k p⟩

end Sys2Proof.Machine
end

section
/-! SUPPORT. Resets and the steps of bring-up (R31 to R37, R50, R60), and the guard of the mailbox's commands (R50). -/

namespace Sys2Proof.Machine

open Sys2Proof.Claims

/-! The guard of a mailbox command. -/

variable {s : State} {code : Nat} {early : Bool} {fits : Nat → Bool} {f : State → State}

/-- A command that the mailbox has to process, past the check of its code (R50). -/
theorem State.command_of_code (hpending : s.hub.mbxPending.isSome = true) (hfree : s.hub.freezing = none)
    (hcode : s.hub.mbxCode = code) :
    s.command code early fits f =
      if (!early && !s.hub.ready) = true then s.answer statusNotready []
      else if fits s.hub.mbxLen = true then f s else s.answer statusBadarg [] := by
  refine if_neg ?_
  rw [Option.isNone_eq_false_iff.mpr hpending, hfree, decide_eq_false (not_not_intro hcode)]
  exact Bool.false_ne_true

/-- Its effect, where it need not wait for READY or READY is set, and its length fits. -/
theorem State.command_runs (hpending : s.hub.mbxPending.isSome = true) (hfree : s.hub.freezing = none)
    (hcode : s.hub.mbxCode = code) (hready : early = true ∨ s.hub.ready = true) (hfits : fits s.hub.mbxLen = true) :
    s.command code early fits f = f s := by
  have hnow : ¬(!early && !s.hub.ready) = true := by rcases hready with h | h <;> simp [h]
  rw [State.command_of_code hpending hfree hcode, if_neg hnow, if_pos hfits]

theorem State.command_notReady (hpending : s.hub.mbxPending.isSome = true) (hfree : s.hub.freezing = none)
    (hcode : s.hub.mbxCode = code) (hearly : early = false) (hready : s.hub.ready = false) :
    s.command code early fits f = s.answer statusNotready [] := by
  rw [State.command_of_code hpending hfree hcode, hearly, hready]
  exact if_pos rfl

theorem State.command_badArg (hpending : s.hub.mbxPending.isSome = true) (hfree : s.hub.freezing = none)
    (hcode : s.hub.mbxCode = code) (hready : early = true ∨ s.hub.ready = true) (hfits : fits s.hub.mbxLen = false) :
    s.command code early fits f = s.answer statusBadarg [] := by
  have hnow : ¬(!early && !s.hub.ready) = true := by rcases hready with h | h <;> simp [h]
  rw [State.command_of_code hpending hfree hcode, if_neg hnow, if_neg (ne_true_of_eq_false hfits)]

/-! Resets. -/

theorem does_reset (hpending : s.hub.mbxPending.isSome = true) (hfree : s.hub.freezing = none)
    (hcode : s.hub.mbxCode = 8) (hlen : s.hub.mbxLen = 0) : Does .reset s s.restart := by
  show execReset s = _
  rw [execReset, State.command_runs hpending hfree hcode (.inl rfl) (decide_eq_true hlen)]

/-- What a reset leaves is the reset module but for what survives it. -/
theorem State.restart_cleared (s : State) :
    { s.restart with
        agenda := [], draws := 0, uids := 0, mem := [], cellar := [], poison := [],
        hub := { s.restart.hub with phase := 0, slotA := [], slotB := [], activeB := false, counter := 0 } } =
      State.reset := rfl

theorem State.restart_stat (s : State) : s.restart.hub.stat = 4 := by
  refine BitVec.eq_of_toNat_eq ?_
  rw [Hub.stat_toNat]
  simp [State.restart, Hub.restart, Hub.reset, nb]

theorem resets : Claims.Resets := by
  intro s
  refine ⟨rfl, rfl, rfl, does_reset, ?_⟩
  refine ⟨rfl, s.restart_stat, rfl, rfl, rfl, rfl, rfl, rfl, rfl, rfl, rfl, rfl, rfl, rfl, rfl, rfl, rfl, rfl, rfl, ?_⟩
  exact s.restart_cleared

/-! The end of a step of bring-up. -/

variable {n : BitVec 4}

theorem Hub.inStep_iff {h : Hub} : h.inStep n = true ↔ h.phase = n ∧ h.fail = false ∧ h.ready = false := by
  simp only [Hub.inStep, Bool.and_eq_true, Bool.not_eq_true', decide_eq_true_eq, and_assoc]

theorem next_step_ne (n : BitVec 4) : n + 1 ≠ n := by revert n; decide

/-- The end of a step changes STAT (R31, R40). -/
theorem State.stepEnd_msix (h : s.hub.inStep n = true) (ok : Bool) :
    (s.stepEnd n ok).hub.msix[1] = s.hub.msix[1] + 1 := by
  obtain ⟨hphase, hfail, -⟩ := Hub.inStep_iff.mp h
  cases ok with
  | true =>
    refine State.modStat_msix (fun hstat => next_step_ne n ?_) rfl
    exact (Hub.stat_fields hstat).2.1.trans hphase
  | false =>
    refine State.modStat_msix (fun hstat => ?_) rfl
    exact Bool.noConfusion ((Hub.stat_fields hstat).1.trans hfail)

theorem State.stepEnd_phase (s : State) (n : BitVec 4) : (s.stepEnd n true).hub.phase = n + 1 := by
  rw [State.stepEnd, State.modStat_hub]; rfl

theorem State.stepEnd_fail (s : State) (n : BitVec 4) :
    (s.stepEnd n false).hub.fail = true ∧ (s.stepEnd n false).hub.failstep = n := by
  rw [State.stepEnd, State.modStat_hub]; exact ⟨rfl, rfl⟩

theorem State.stepEnd_ready (s : State) (n : BitVec 4) (ok : Bool) : (s.stepEnd n ok).hub.ready = s.hub.ready := by
  rw [State.stepEnd, State.modStat_hub]
  cases ok <;> rfl

theorem State.stepEnd_mem (s : State) (n : BitVec 4) (ok : Bool) : (s.stepEnd n ok).mem = s.mem := State.modStat_mem s _

theorem State.bringUp_eq (h : s.hub.inStep n = true) (ok : Bool) : s.bringUp n ok = s.stepEnd n ok := if_pos h

theorem Hub.accepts_iff {h : Hub} {k : Nat} {image : List (Nat × Byte)} :
    h.accepts k image = true ↔ Config.imageAccepted k image = true ∧ h.counter ≤ Config.imageVersion image := by
  rw [Hub.accepts, Bool.and_eq_true, decide_eq_true_eq]

/-! Steps with an effect of their own. -/

/-- Step 2 (R31, R33). -/
theorem does_atticKernelVerify (h : s.hub.inStep 2 = true) :
    (∀ b, s.hub.bootSlot = some b → Does .atticKernelVerify s
      ((s.modHub fun h =>
        { h with attic := true, runsB := b, runImage := h.slot b, mbxBusy := false }).stepEnd 2 true)) ∧
    (s.hub.bootSlot = none → Does .atticKernelVerify s (s.stepEnd 2 false)) := by
  refine ⟨fun b hslot => ?_, fun hslot => ?_⟩
  · exact congrArg Host.Outcome.next ((if_pos h).trans (by rw [hslot]))
  · exact congrArg Host.Outcome.next ((if_pos h).trans (by rw [hslot]))

/-- Step 7 finds the drives where it succeeds and the link firmware is accepted (R35 to R37; log 66). -/
theorem does_portEqualisation (h : s.hub.inStep 7 = true) (haccepts : s.hub.accepts 1 s.hub.runImage = true)
    (d : BitVec 16) (k : Nat) :
    Does (.portEqualisation true d k) s ((s.modHub fun h =>
      { h with driveup := d, drives := (List.range 16).filter fun i => d.getLsbD i,
               cellarBytes := ((List.range 16).filter fun i => d.getLsbD i).length * (k / 131072 * 131072) }).stepEnd
        7 true) := by
  refine congrArg Host.Outcome.next (if_pos ?_)
  rw [h, haccepts]
  rfl

theorem does_portEqualisation_fails (h : s.hub.inStep 7 = true) {ok : Bool}
    (hbad : (ok && s.hub.accepts 1 s.hub.runImage) = false) (d : BitVec 16) (k : Nat) :
    Does (.portEqualisation ok d k) s (s.stepEnd 7 false) := by
  refine congrArg Host.Outcome.next ?_
  dsimp only
  rw [hbad, Bool.and_false, if_neg Bool.false_ne_true, State.bringUp_eq h]

/-- Step 8 zeroes HBM (R31, R32). -/
theorem does_hbmZeroing (h : s.hub.inStep 8 = true) :
    ∃ t, Does (.hbmZeroing true) s t ∧ t.hub.phase = 9 ∧ (∀ a, a < hbmEnd → readByte t.mem a = 0) ∧
      ∀ a, hbmEnd ≤ a → readByte t.mem a = readByte s.mem a := by
  refine ⟨_, congrArg Host.Outcome.next (if_pos (Bool.and_eq_true_iff.mpr ⟨h, rfl⟩)), State.stepEnd_phase _ _,
    fun a ha => ?_, fun a ha => ?_⟩
  · rw [State.stepEnd_mem, readByte_zeroBytes, if_pos ⟨Nat.zero_le a, ha⟩]
  · rw [State.stepEnd_mem, readByte_zeroBytes, if_neg fun hin => Nat.not_lt.mpr ha hin.2]

/-- The module once the arrays have been zeroed (R32). -/
def State.arraysZeroed (s : State) : State :=
  { s with mem := zeroBytes s.mem arrayBase arrayEnd
           poison := s.poison.filter fun u => !(arrayBase ≤ u && u < arrayEnd)
           tiles := s.tiles.map fun t => (t.1, { t.2 with l1 := [], icache := [] }) }

theorem State.arraysZeroed_mem (s : State) : s.arraysZeroed.mem = zeroBytes s.mem arrayBase arrayEnd := rfl

theorem does_sramZeroing_arrays (h : s.hub.inStep 9 = true) :
    Does (.sramZeroing true) s (s.arraysZeroed.stepEnd 9 true) :=
  congrArg Host.Outcome.next (if_pos (Bool.and_eq_true_iff.mpr ⟨h, rfl⟩))

/-- Step 9 zeroes the arrays (R31, R32). -/
theorem does_sramZeroing (h : s.hub.inStep 9 = true) :
    ∃ t, Does (.sramZeroing true) s t ∧ t.hub.phase = 10 ∧
      (∀ a, arrayBase ≤ a → a < arrayEnd → readByte t.mem a = 0) ∧
      ∀ a, a < arrayBase ∨ arrayEnd ≤ a → readByte t.mem a = readByte s.mem a := by
  refine ⟨s.arraysZeroed.stepEnd 9 true, does_sramZeroing_arrays h, State.stepEnd_phase _ 9, fun a hlo hhi => ?_,
    fun a ha => ?_⟩
  · rw [State.stepEnd_mem, State.arraysZeroed_mem, readByte_zeroBytes, if_pos ⟨hlo, hhi⟩]
  · rw [State.stepEnd_mem, State.arraysZeroed_mem, readByte_zeroBytes, if_neg (by omega)]

/-- A step of zeroing that fails. -/
theorem does_hbmZeroing_fails (h : s.hub.inStep 8 = true) : Does (.hbmZeroing false) s (s.stepEnd 8 false) := by
  refine congrArg Host.Outcome.next ?_
  rw [Bool.and_false, if_neg Bool.false_ne_true, State.bringUp_eq h]

theorem does_sramZeroing_fails (h : s.hub.inStep 9 = true) : Does (.sramZeroing false) s (s.stepEnd 9 false) := by
  refine congrArg Host.Outcome.next ?_
  rw [Bool.and_false, if_neg Bool.false_ne_true, State.bringUp_eq h]

theorem bringUp : Claims.BringUp := by
  intro s ok
  refine ⟨fun n h => ?_, fun k image => Hub.accepts_iff, fun h => ?_, does_atticKernelVerify, fun h => ?_, fun h => ?_,
    fun h => ?_, fun h => ?_, fun d n h => ⟨fun hacc => ?_, fun hrej => ?_, ?_⟩, fun h => ?_, fun h => ?_,
    fun h => ⟨fun hacc => ?_, fun hrej => ?_⟩⟩
  · obtain ⟨hfail, hstep⟩ := s.stepEnd_fail n
    exact ⟨s.stepEnd_phase n, hfail, hstep, State.stepEnd_msix h ok, s.stepEnd_ready n ok⟩
  · exact congrArg Host.Outcome.next (State.bringUp_eq h ok)
  · exact congrArg Host.Outcome.next (State.bringUp_eq h ok)
  · exact congrArg Host.Outcome.next (State.bringUp_eq h ok)
  · exact congrArg Host.Outcome.next (State.bringUp_eq h ok)
  · exact congrArg Host.Outcome.next (State.bringUp_eq h ok)
  · exact does_portEqualisation h hacc d n
  · exact does_portEqualisation_fails h (by rw [hrej, Bool.and_false]) d n
  · exact does_portEqualisation_fails h rfl d n
  · exact ⟨does_hbmZeroing h, does_hbmZeroing_fails h⟩
  · exact ⟨does_sramZeroing h, does_sramZeroing_fails h⟩
  · exact congrArg Host.Outcome.next ((if_pos h).trans (if_pos hacc))
  · exact congrArg Host.Outcome.next ((if_pos h).trans (if_neg (ne_true_of_eq_false hrej)))

/-- Settles O56: the resets, then bring-up step by step. -/
theorem resetAndBringUp : Obligations.ResetAndBringUp := ⟨resets, bringUp⟩

end Sys2Proof.Machine
end

section
/-! SUPPORT. The commands of the mailbox (R33, R34, R38, R39, R49 to R52). -/

namespace Sys2Proof.Machine

open Sys2Proof.Claims

theorem State.answer_hub (s : State) (c : BitVec 8) (bs : List Byte) :
    (s.answer c bs).hub.mbxBusy = false ∧ (s.answer c bs).hub.mbxDone = true ∧ (s.answer c bs).hub.mbxStatus = c ∧
      (s.answer c bs).hub.msix[0] = s.hub.msix[0] + 1 :=
  ⟨rfl, rfl, rfl, Vector.getElem_set_self _⟩

theorem State.modHub_congr {s : State} {f g : Hub → Hub} (h : f s.hub = g s.hub) : s.modHub f = s.modHub g := by
  rw [State.modHub, State.modHub, h]

/-! The region that an argument names. -/

theorem State.namedRegion_of_none {s : State} {k : Nat} (h : 2 ^ 16 ≤ k ∨ s.region? (BitVec.ofNat 16 k) = none) :
    s.namedRegion k = none := by
  refine if_neg fun hnamed => ?_
  obtain ⟨hlt, hsome⟩ := hnamed
  rcases h with hge | hnone
  · exact absurd hlt (Nat.not_lt.mpr hge)
  · rw [hnone] at hsome
    exact Bool.noConfusion hsome

theorem State.namedRegion_of_some {s : State} {r : BitVec 16} {x : Region} {k : Nat} (hk : k = r.toNat)
    (h : s.region? r = some x) : s.namedRegion k = some r := by
  have hr : BitVec.ofNat 16 k = r := by rw [hk, BitVec.ofNat_toNat, BitVec.setWidth_eq]
  rw [State.namedRegion, hr, if_pos ⟨hk ▸ r.isLt, by rw [h]; rfl⟩]

section

variable {s : State} (hpending : s.hub.mbxPending.isSome = true) (hfree : s.hub.freezing = none)

include hpending hfree

/-! Commands that are turned away. -/

/-- A code that is not assigned (R33, R50; log 39). -/
theorem does_mailboxBadcmd (hcode : s.hub.mbxCode = 0 ∨ 9 < s.hub.mbxCode) :
    Does .mailboxBadcmd s (s.answer (if s.hub.ready = true then 1 else 4) []) := by
  have hunassigned : (decide (1 ≤ s.hub.mbxCode) && decide (s.hub.mbxCode ≤ 9)) = false := by
    simp only [Bool.and_eq_false_iff, decide_eq_false_iff_not]
    omega
  refine congrArg Host.Outcome.next ((if_neg ?_).trans (apply_ite (s.answer · []) _ _ _).symm)
  rw [Option.isNone_eq_false_iff.mpr hpending, hfree, hunassigned]
  exact Bool.false_ne_true

/-- Before READY the commands that wait for it are answered NOTREADY (R33). -/
theorem mailbox_notReady (hready : s.hub.ready = false) :
    (s.hub.mbxCode = 3 → Does .readback s (s.answer 4 [])) ∧ (s.hub.mbxCode = 4 → Does .freeze s (s.answer 4 [])) ∧
      (s.hub.mbxCode = 5 → Does .thaw s (s.answer 4 [])) ∧ (s.hub.mbxCode = 6 → Does .fwstage s (s.answer 4 [])) ∧
      (s.hub.mbxCode = 7 → Does .fwcommit s (s.answer 4 [])) ∧ (s.hub.mbxCode = 9 → Does .links s (s.answer 4 [])) := by
  refine ⟨fun h => ?_, fun h => ?_, fun h => ?_, fun h => ?_, fun h => ?_, fun h => ?_⟩
  all_goals exact congrArg Host.Outcome.next (State.command_notReady hpending hfree h rfl hready)

/-- A command whose argument length does not fit (R50). -/
theorem command_badLength {code : Nat} {early : Bool} {fits : Nat → Bool} {f : State → State}
    (hcode : s.hub.mbxCode = code) (hready : early = true ∨ s.hub.ready = true) (hlen : fits s.hub.mbxLen = false) :
    (Host.Outcome.next (s.command code early fits f) : Host.Outcome State Fault Refusal) = .next (s.answer 2 []) :=
  congrArg Host.Outcome.next (State.command_badArg hpending hfree hcode hready hlen)

/-- A command with a length that fits has its effect. -/
theorem command_effect {code : Nat} {early : Bool} {fits : Nat → Bool} {f : State → State}
    (hcode : s.hub.mbxCode = code) (hready : early = true ∨ s.hub.ready = true) (hlen : fits s.hub.mbxLen = true) :
    (Host.Outcome.next (s.command code early fits f) : Host.Outcome State Fault Refusal) = .next (f s) :=
  congrArg Host.Outcome.next (State.command_runs hpending hfree hcode hready hlen)

/-! READBACK, FWSTAGE and FWCOMMIT. -/

theorem does_readback (hready : s.hub.ready = true) (hcode : s.hub.mbxCode = 3) (hlen : s.hub.mbxLen = 40)
    {bs : List Byte} (hread : s.readback (s.hub.mbxArg 0) (s.hub.mbxArg 1) (s.hub.mbxArg 2) (s.hub.mbxArg 3)
      (s.hub.mbxArg 4) = some bs) : Does .readback s (s.answer 0 bs) := by
  refine (command_effect hpending hfree hcode (.inr hready) (decide_eq_true hlen)).trans ?_
  dsimp only
  rw [hread]
  rfl

theorem does_readback_badArg (hready : s.hub.ready = true) (hcode : s.hub.mbxCode = 3)
    (hbad : s.hub.mbxLen ≠ 40 ∨ s.readback (s.hub.mbxArg 0) (s.hub.mbxArg 1) (s.hub.mbxArg 2) (s.hub.mbxArg 3)
      (s.hub.mbxArg 4) = none) : Does .readback s (s.answer 2 []) := by
  by_cases hlen : s.hub.mbxLen = 40
  · refine (command_effect hpending hfree hcode (.inr hready) (decide_eq_true hlen)).trans ?_
    dsimp only
    rw [hbad.resolve_left (not_not_intro hlen)]
    rfl
  · exact command_badLength hpending hfree hcode (.inr hready) (decide_eq_false hlen)

theorem does_fwstage (hready : s.hub.ready = true) (hcode : s.hub.mbxCode = 6) (hlo : 8 ≤ s.hub.mbxLen)
    (hhi : s.hub.mbxLen ≤ 4088) :
    Does .fwstage s ((s.modHub fun h => h.stage (h.mbxArg 0) (h.mbxBytes 8 (h.mbxLen - 8))).answer 0 []) :=
  command_effect hpending hfree hcode (.inr hready)
    (Bool.and_eq_true_iff.mpr ⟨decide_eq_true hlo, decide_eq_true hhi⟩)

theorem does_fwstage_badArg (hready : s.hub.ready = true) (hcode : s.hub.mbxCode = 6)
    (hlen : s.hub.mbxLen < 8 ∨ 4088 < s.hub.mbxLen) : Does .fwstage s (s.answer 2 []) := by
  refine command_badLength hpending hfree hcode (.inr hready) ?_
  simp only [Bool.and_eq_false_iff, decide_eq_false_iff_not]
  omega

theorem does_fwcommit_badArg (hready : s.hub.ready = true) (hcode : s.hub.mbxCode = 7) (harg : 1 < s.hub.mbxArg 0) :
    Does .fwcommit s (s.answer 2 []) := by
  by_cases hlen : s.hub.mbxLen = 8
  · exact (command_effect hpending hfree hcode (.inr hready) (decide_eq_true hlen)).trans
      (congrArg Host.Outcome.next (if_pos harg))
  · exact command_badLength hpending hfree hcode (.inr hready) (decide_eq_false hlen)

/-- FWCOMMIT past its arguments, by whether the staged image is accepted (R38). -/
theorem does_fwcommit (hready : s.hub.ready = true) (hcode : s.hub.mbxCode = 7) (hlen : s.hub.mbxLen = 8)
    (harg : s.hub.mbxArg 0 ≤ 1) :
    (s.hub.accepts 3 (s.hub.slot (!s.hub.activeB)) = true → Does .fwcommit s ((s.modHub fun h =>
      { h with activeB := !h.activeB,
               counter := if h.mbxArg 0 = 1 then
                 min 64 (max h.counter (Config.imageVersion (s.hub.slot (!s.hub.activeB)))) else h.counter }).answer
        0 [])) ∧
    (s.hub.accepts 3 (s.hub.slot (!s.hub.activeB)) = false → Does .fwcommit s (s.answer 3 [])) := by
  refine ⟨fun hacc => ?_, fun hrej => ?_⟩
  · refine (command_effect hpending hfree hcode (.inr hready) (decide_eq_true hlen)).trans ?_
    dsimp only
    rw [if_neg (Nat.not_lt.mpr harg), if_pos hacc]
    exact congrArg (fun u => Host.Outcome.next (State.answer u 0 [])) (State.modHub_congr (by dsimp only))
  · refine (command_effect hpending hfree hcode (.inr hready) (decide_eq_true hlen)).trans ?_
    dsimp only
    rw [if_neg (Nat.not_lt.mpr harg), if_neg (ne_true_of_eq_false hrej)]
    rfl

/-! FREEZE and THAW. -/

/-- FREEZE and THAW of a region that is not loaded (R52). -/
theorem mailbox_noRegion (hready : s.hub.ready = true) (hlen : s.hub.mbxLen = 8)
    (hnone : 2 ^ 16 ≤ s.hub.mbxArg 0 ∨ s.region? (BitVec.ofNat 16 (s.hub.mbxArg 0)) = none) :
    (s.hub.mbxCode = 4 → Does .freeze s (s.answer 5 [])) ∧ (s.hub.mbxCode = 5 → Does .thaw s (s.answer 5 [])) := by
  refine ⟨fun hcode => ?_, fun hcode => ?_⟩
  · refine (command_effect hpending hfree hcode (.inr hready) (decide_eq_true hlen)).trans ?_
    dsimp only
    rw [State.namedRegion_of_none hnone]
    rfl
  · refine (command_effect hpending hfree hcode (.inr hready) (decide_eq_true hlen)).trans ?_
    rw [State.namedRegion_of_none hnone]
    rfl

variable {r : BitVec 16} {x : Region}

theorem does_freeze (hready : s.hub.ready = true) (hlen : s.hub.mbxLen = 8) (hcode : s.hub.mbxCode = 4)
    (harg : s.hub.mbxArg 0 = r.toNat) (hregion : s.region? r = some x) :
    Does .freeze s (if x.frozen = true then s.answer 0 [] else (s.askFreeze r).waitFor r false) := by
  refine (command_effect hpending hfree hcode (.inr hready) (decide_eq_true hlen)).trans ?_
  dsimp only
  rw [State.namedRegion_of_some harg hregion]
  dsimp only
  rw [hregion]
  rfl

theorem does_thaw (hready : s.hub.ready = true) (hlen : s.hub.mbxLen = 8) (hcode : s.hub.mbxCode = 5)
    (harg : s.hub.mbxArg 0 = r.toNat) (hregion : s.region? r = some x) :
    Does .thaw s (
      if s.hub.hot = true then s.waitFor r true
      else if x.saved.isSome = true then (s.modRegion r fun y => { y with thawing := true }).waitFor r true
      else if x.frozen = true then (s.thaw r).answer 0 []
      else if x.stopping = true then (s.thaw r).waitFor r true
      else s.answer 0 []) := by
  refine (command_effect hpending hfree hcode (.inr hready) (decide_eq_true hlen)).trans ?_
  rw [State.namedRegion_of_some harg hregion]
  dsimp only
  rw [hregion]
  rfl

/-- FREEZE and THAW of a loaded region, by the state of the region (R52, R218, R222; log 23, log 70). -/
theorem mailbox_region (hready : s.hub.ready = true) (hlen : s.hub.mbxLen = 8) (harg : s.hub.mbxArg 0 = r.toNat)
    (hregion : s.region? r = some x) :
    (s.hub.mbxCode = 4 →
      (x.frozen = true → Does .freeze s (s.answer 0 [])) ∧
      (x.frozen = false → Does .freeze s ((s.askFreeze r).waitFor r false))) ∧
    (∀ b, s.waitFor r b = s.modHub fun h => { h with freezing := some r, mbxThaw := b }) ∧
    (s.hub.mbxCode = 5 → s.hub.hot = true → Does .thaw s (s.waitFor r true)) ∧
    (s.hub.mbxCode = 5 → x.saved.isSome = true → s.hub.hot = false → Does .thaw s
      ((s.modRegion r fun y => { y with thawing := true }).waitFor r true)) ∧
    (s.hub.mbxCode = 5 → x.saved = none → s.hub.hot = false →
      (x.frozen = true → Does .thaw s ((s.thaw r).answer 0 [])) ∧
      (x.frozen = false → x.stopping = true → Does .thaw s ((s.thaw r).waitFor r true)) ∧
      (x.frozen = false → x.stopping = false → Does .thaw s (s.answer 0 []))) := by
  have hfreeze (hcode : s.hub.mbxCode = 4) := does_freeze hpending hfree hready hlen hcode harg hregion
  have hthaw (hcode : s.hub.mbxCode = 5) := does_thaw hpending hfree hready hlen hcode harg hregion
  refine ⟨fun hcode => ⟨fun hf => ?_, fun hf => ?_⟩, fun b => rfl, fun hcode hhot => ?_, fun hcode hsaved hhot => ?_,
    fun hcode hsaved hhot => ⟨fun hf => ?_, fun hf hstop => ?_, fun hf hstop => ?_⟩⟩
  · simpa only [hf, if_true] using hfreeze hcode
  · simpa only [hf, Bool.false_eq_true, if_false] using hfreeze hcode
  · simpa only [hhot, if_true] using hthaw hcode
  · simpa only [hhot, hsaved, Bool.false_eq_true, if_false, if_true] using hthaw hcode
  · simpa only [hhot, hsaved, hf, Option.isSome_none, Bool.false_eq_true, if_false, if_true] using hthaw hcode
  · simpa only [hhot, hsaved, hf, hstop, Option.isSome_none, Bool.false_eq_true, if_false, if_true] using hthaw hcode
  · simpa only [hhot, hsaved, hf, hstop, Option.isSome_none, Bool.false_eq_true, if_false] using hthaw hcode

end

/-- Settles O53: each command past its guard, by its row. -/
theorem mailboxCommands : Obligations.MailboxCommands := by
  unfold Obligations.MailboxCommands
  intro s
  refine ⟨s.answer_hub, ?_, fun r => ⟨fun h => if_pos h, fun h => if_neg h⟩⟩
  intro hpending hfree code len
  refine ⟨fun hcode hlen => ?_, fun hcode hlen => ?_, does_mailboxBadcmd hpending hfree,
    mailbox_notReady hpending hfree, fun hcode hlen => ?_, fun hcode hlen => ?_, fun hcode hlen => ?_, fun hready => ?_⟩
  · exact command_effect hpending hfree hcode (.inl rfl) (decide_eq_true hlen)
  · exact command_effect hpending hfree hcode (.inl rfl) (decide_eq_true hlen)
  · exact command_badLength hpending hfree hcode (.inl rfl) (decide_eq_false hlen)
  · exact command_badLength hpending hfree hcode (.inl rfl) (decide_eq_false hlen)
  · exact command_badLength hpending hfree hcode (.inl rfl) (decide_eq_false hlen)
  · refine ⟨fun hcode hbad => ?_, fun hlen => ⟨fun hcode => ?_, fun hcode => ?_, fun hcode => ?_⟩, fun hcode hlen => ?_,
      fun hcode harg => ?_, fun hcode hlen => ?_, fun hlen hnone => ?_, fun hcode hlen => ?_,
        fun bs hcode hlen hread => ?_,
      fun hcode hlo hhi => ?_, fun hcode hlen harg => ?_, fun r x hlen harg hregion => ?_⟩
    · exact does_readback_badArg hpending hfree hready hcode hbad
    · exact command_badLength hpending hfree hcode (.inr hready) (decide_eq_false hlen)
    · exact command_badLength hpending hfree hcode (.inr hready) (decide_eq_false hlen)
    · exact command_badLength hpending hfree hcode (.inr hready) (decide_eq_false hlen)
    · exact does_fwstage_badArg hpending hfree hready hcode hlen
    · exact does_fwcommit_badArg hpending hfree hready hcode harg
    · exact command_badLength hpending hfree hcode (.inr hready) (decide_eq_false hlen)
    · exact mailbox_noRegion hpending hfree hready hlen hnone
    · exact command_effect hpending hfree hcode (.inr hready) (decide_eq_true hlen)
    · exact does_readback hpending hfree hready hcode hlen hread
    · exact does_fwstage hpending hfree hready hcode hlo hhi
    · exact does_fwcommit hpending hfree hready hcode hlen harg
    · exact mailbox_region hpending hfree hready hlen harg hregion

end Sys2Proof.Machine
end

section
/-! SUPPORT. The events of the scheduler (R84 to R94, R98, R184, R220, R223, R311). -/

namespace Sys2Proof.Machine

open Sys2Proof.Claims

/-! Dispatch and the queues. -/

variable {s : State} {t : BitVec 10} {h : BitVec 3}

/-- The choice of a tile starts (R93, R94). -/
theorem does_threadDispatch {c : Candidate} {k : BitVec 3} (hchoice : (s.dropStale t).choice t = some (c, k)) :
    (∀ m, c.work = .message m → Does (.threadDispatch t) s ((s.dropStale t).startMessage ⟨t, k⟩ m)) ∧
    (∀ e, c.work = .entry e → Does (.threadDispatch t) s ((s.dropStale t).startEntry ⟨t, k⟩ e)) := by
  refine ⟨fun m hwork => ?_, fun e hwork => ?_⟩
  · show execThreadDispatch t s = _
    simp only [execThreadDispatch, hchoice, hwork]
  · show execThreadDispatch t s = _
    simp only [execThreadDispatch, hchoice, hwork]

theorem does_queueRefill_above (hlen : (s.tile t).ready.length < 8) (hempty : (s.tile t).backlog = []) :
    Does (.queueRefill (.tile t)) s (s.refillTile t) :=
  congrArg Host.Outcome.next ((if_pos hlen).trans (if_pos (List.isEmpty_iff.mpr hempty)))

theorem does_queueRefill_backlog (hlen : (s.tile t).ready.length < 8) (hne : (s.tile t).backlog ≠ []) :
    Does (.queueRefill (.tile t)) s (s.refillBacklog t) :=
  congrArg Host.Outcome.next ((if_pos hlen).trans (if_neg (mt List.isEmpty_iff.mp hne)))

/-! Steals. -/

/-- A tile takes half of what its victim holds for it, at most eight entries (R92). -/
theorem does_steal (hmay : s.maySteal t = true) {v : BitVec 10} (hvictim : s.victim t = some v) :
    let p := takeBlock (spillsFirst s.cyc) (fun e => !s.pinned e && s.entryFits t e)
      (min 8 ((s.stealable v t).length / 2)) (s.tile v).ready
    Does (.steal t) s ((s.modTile v fun x => { x with ready := p.2 }).bringIn t p.1) := by
  intro p
  refine congrArg Host.Outcome.next ((if_pos hmay).trans ?_)
  rw [hvictim]

/-- A tile that finds nothing asks no more for 256 cycles (R92; log 45). -/
theorem does_steal_none (hmay : s.maySteal t = true) (hvictim : s.victim t = none)
    (hdies : ∀ d ∈ neighbours (dieOf t), (s.die d).queue.any (s.entryFits t) = false) :
    Does (.steal t) s (s.modTile t fun x => { x with stealAt := s.cyc.toNat + 256 }) := by
  have hfind : ((neighbours (dieOf t)).find? fun d => (s.die d).queue.any (s.entryFits t)) = none :=
    List.find?_eq_none.mpr fun d hd => ne_true_of_eq_false (hdies d hd)
  refine congrArg Host.Outcome.next ((if_pos hmay).trans ?_)
  rw [hvictim]
  dsimp only
  rw [hfind]

theorem State.bringIn_tile {l : List ReadyEntry} (hne : l ≠ []) :
    (s.bringIn t l).tile t = { s.tile t with ready := (s.tile t).ready ++ l, stealAt := 0 } := by
  rw [State.bringIn, if_neg (mt List.isEmpty_iff.mp hne), State.tile_modTile, if_pos rfl]

/-! Threads. -/

theorem State.modThread_congr {x : ThreadId} {f g : Thread → Thread} (heq : f (s.thread x) = g (s.thread x)) :
    s.modThread x f = s.modThread x g :=
  congrArg (fun y => s.modTile x.tile fun t => t.setThread x.thread y) heq

/-- An activation beyond its budget stops (R98, R184). -/
theorem does_watchdog (hactive : (s.thread ⟨t, h⟩).active = true) (hruns : (s.thread ⟨t, h⟩).suspended = false)
    (hover : 2 ^ (s.thread ⟨t, h⟩).eff.wdog ≤ (s.thread ⟨t, h⟩).wdUsed.toNat) :
    Does (.watchdog t h) s (match (s.thread ⟨t, h⟩).barScope with
      | some c => s.takeFault ⟨t, h⟩ .barTimeout 0 (c.setWidth 64)
      | none => s.takeFault ⟨t, h⟩ .watchdog 0 0) := by
  refine congrArg Host.Outcome.next (if_pos ?_)
  rw [Thread.expired, hactive, hruns, decide_eq_true hover]
  rfl

theorem does_barrierWake {a : Nat} (hhold : (s.thread ⟨t, h⟩).hold = .barrier a) :
    Does (.barrierWake t h) s (s.modThread ⟨t, h⟩ fun y => { y with hold := .retest }) :=
  congrArg Host.Outcome.next (State.modThread_congr (by rw [hhold]))

theorem does_pauseExpiry {c : Nat} (hhold : (s.thread ⟨t, h⟩).hold = .pause c)
    (hfirst : (s.thread ⟨t, h⟩).counted = false) (hdue : c ≤ s.cyc.toNat) :
    Does (.pauseExpiry t h) s (s.modThread ⟨t, h⟩ fun y => { y with hold := .free }) := by
  have hends : (!(s.thread ⟨t, h⟩).counted && decide (c ≤ s.cyc.toNat)) = true := by
    rw [hfirst, decide_eq_true hdue]; rfl
  refine congrArg Host.Outcome.next (State.modThread_congr ?_)
  rw [hhold]
  exact if_pos hends

/-! Entries that a stop keeps where they are (R220, R223). -/

theorem mem_of_best {α : Type} {better : α → α → Bool} {l : List α} {x : α} (h : best better l = some x) : x ∈ l := by
  induction l generalizing x with
  | nil => exact absurd h (by simp [best])
  | cons y l ih =>
    rw [best] at h
    split at h
    next => exact Option.some.inj h ▸ List.mem_cons_self
    next z hz =>
      split at h
      next => exact Option.some.inj h ▸ List.mem_cons_of_mem _ (ih hz)
      next => exact Option.some.inj h ▸ List.mem_cons_self

theorem mem_removeFirst {α : Type} {p : α → Bool} {l : List α} {x : α} (hx : x ∈ l) (hp : p x = false) :
    x ∈ removeFirst p l := by
  induction l with
  | nil => exact hx
  | cons y l ih =>
    rw [removeFirst]
    rcases List.mem_cons.mp hx with rfl | hx
    · rw [if_neg (ne_true_of_eq_false hp)]
      exact List.mem_cons_self
    · split
      next => exact hx
      next => exact List.mem_cons_of_mem _ (ih hx)

/-- A block that is taken leaves every entry that may not be taken. -/
theorem mem_takeBlock {better : ReadyEntry → ReadyEntry → Bool} {ok : ReadyEntry → Bool} {e : ReadyEntry} (n : Nat)
    {q : List ReadyEntry} (he : e ∈ q) (hok : ok e = false) : e ∈ (takeBlock better ok n q).2 := by
  induction n generalizing q with
  | zero => exact he
  | succ n ih =>
    rw [takeBlock]
    split
    next => exact he
    next y hy =>
      have hyok : ok y = true := (List.mem_filter.mp (mem_of_best hy)).2
      have hne : e ≠ y := fun hey => Bool.noConfusion (hok.symm.trans (hey ▸ hyok))
      exact ih (mem_removeFirst he (decide_eq_false hne))

variable {e : ReadyEntry} {f : Fibre} {x : Region}

theorem State.stands_of_stop (hregion : s.region? f.region = some x) (hstop : x.stopping = true ∨ x.frozen = true) :
    s.stands f.region = true := by
  rw [State.stands, hregion]
  exact Bool.or_eq_true_iff.mpr hstop

theorem State.entryFits_of_stands (hfibre : s.fibre? e.handle = some f) (hstands : s.stands f.region = true) :
    s.entryFits t e = false := by
  rw [State.entryFits, hfibre]
  dsimp only
  split
  next => rw [hstands, Bool.not_true, Bool.and_false]
  next => rfl

theorem State.mayNotSpill (hfibre : s.fibre? e.handle = some f) (hstands : s.stands f.region = true) :
    (!s.pinned e && !s.entryStands e) = false := by
  rw [State.entryStands, hfibre]
  dsimp only
  rw [hstands, Bool.not_true, Bool.and_false]

theorem State.tile_modCmem (s : State) (c : Nat) (f : Cmem → Cmem) (i : BitVec 10) :
    (s.modCmem c f).tile i = s.tile i := rfl

theorem State.mem_spillTile (hfibre : s.fibre? e.handle = some f) (hstands : s.stands f.region = true)
    (he : e ∈ (s.tile t).ready) : e ∈ ((s.spillTile t).tile t).ready := by
  rw [State.spillTile]
  dsimp only
  split
  next => exact he
  next =>
    rw [State.tile_modCmem, State.tile_modTile, if_pos rfl]
    exact mem_takeBlock 8 he (State.mayNotSpill hfibre hstands)

theorem State.mem_spillCluster {c : Nat} (hfibre : s.fibre? e.handle = some f) (hstands : s.stands f.region = true)
    (he : e ∈ (s.cmem c).queue) : e ∈ ((s.spillCluster c).cmem c).queue := by
  rw [State.spillCluster]
  dsimp only
  split
  next => exact he
  next =>
    show e ∈ (mget Cmem.reset (mset s.cmems c _) c).queue
    rw [mget_mset, if_pos rfl]
    exact mem_takeBlock 8 he (State.mayNotSpill hfibre hstands)

/-- Settles O54, event by event. -/
theorem schedulerEvents : Obligations.SchedulerEvents := by
  unfold Obligations.SchedulerEvents
  intro s t h
  refine ⟨fun c k => does_threadDispatch, fun hlen => congrArg Host.Outcome.next (if_pos hlen), does_queueRefill_above,
    does_queueRefill_backlog, fun c => ⟨fun hlen => congrArg Host.Outcome.next (if_pos hlen),
      fun hlen => congrArg Host.Outcome.next (if_pos hlen)⟩,
    fun hmay => ⟨fun v => does_steal hmay, fun l => State.bringIn_tile, does_steal_none hmay⟩,
    ⟨does_watchdog, fun a => does_barrierWake, fun c => does_pauseExpiry⟩, fun e f x hfibre hregion hstop => ?_⟩
  have hstands := State.stands_of_stop hregion hstop
  exact ⟨State.entryFits_of_stands hfibre hstands, State.mem_spillTile hfibre hstands,
    State.mem_spillCluster hfibre hstands⟩

end Sys2Proof.Machine
end

section
/-! SUPPORT. Fetch stops, words that are no instruction, and errors of memory and of the host (R26, R149, R254, R259).
-/

namespace Sys2Proof.Machine

open Sys2Proof.Claims

variable {s : State}

/-- A fetch that stops for another reason than its residency (R254). -/
theorem does_fetchStop (hactive : s.self.active = true) {q : State} {c : Cause} {a : Word} {w : Nat}
    (hfetch : s.fetch s.cur = .stop q c a w) (hc : c ≠ .partialResidency) :
    Does (.fetchStop c a (BitVec.ofNat 32 w)) s ((q.setInsn (BitVec.ofNat 32 w)).stop ⟨c, a, 0, none, none⟩) := by
  have hsame : (s.self.active && decide (c = c) && decide (a = a) &&
      decide (BitVec.ofNat 32 w = BitVec.ofNat 32 w)) = true := by simp [hactive]
  show execFetchStop c a (BitVec.ofNat 32 w) s = _
  rw [execFetchStop, hfetch]
  dsimp only
  rw [if_pos hsame, if_neg hc]

theorem does_notAnInstruction (hactive : s.self.active = true) {q : State} {w : Nat} {e : Bad}
    (hfetch : s.fetch s.cur = .word q w) (hdecode : decodeWord w = .error e) :
    Does (.notAnInstruction (badCause e) (BitVec.ofNat 32 w)) s
      ((q.setInsn (BitVec.ofNat 32 w)).stop ⟨badCause e, 0, 0, none, none⟩) := by
  have hsame : (s.self.active && decide (badCause e = badCause e) &&
      decide (BitVec.ofNat 32 w = BitVec.ofNat 32 w)) = true := by simp [hactive]
  show execNotAnInstruction (badCause e) (BitVec.ofNat 32 w) s = _
  rw [execNotAnInstruction, hfetch]
  dsimp only
  rw [hdecode]
  dsimp only
  rw [if_pos hsame]

/-- An error at a home of the module poisons its unit (R26). -/
theorem does_uncorrectableError {a : BitVec 52} {h : Home} (hhome : home? a.toNat = some h) (hne : h ≠ .host) :
    Does (.uncorrectableError (.home a)) s (s.mark a.toNat 1) := by
  show execUncorrectableError (.home a) s = _
  rw [execUncorrectableError, hhome]
  cases h with
  | host => exact absurd rfl hne
  | _ => rfl

/-- A host that does not answer loses the stores on their way to the line (R149). -/
theorem does_hostAccessTimeout_stores {a : BitVec 52} (hhome : home? a.toNat = some .host)
    (hstores : ∃ y ∈ s.inflight, y.pa / 128 * 128 = a.toNat / 128 * 128) :
    Does (.hostAccessTimeout a) s
      { s with inflight := s.inflight.filter fun y => !decide (y.pa / 128 * 128 = a.toNat / 128 * 128) } := by
  obtain ⟨y, hy, hline⟩ := hstores
  have hany : (s.inflight.any fun y => decide (y.pa / 128 * 128 = a.toNat / 128 * 128)) = true :=
    List.any_eq_true.mpr ⟨y, hy, decide_eq_true hline⟩
  show execHostAccessTimeout a s = _
  simp only [execHostAccessTimeout, hhome, if_pos hany]

/-- Where none is, the next access that reads the line reads poison (R149; log 14). -/
theorem does_hostAccessTimeout_read {a : BitVec 52} (hhome : home? a.toNat = some .host)
    (hnone : ∀ y ∈ s.inflight, y.pa / 128 * 128 ≠ a.toNat / 128 * 128)
    (hclean : poisoned s.poison (a.toNat / 128 * 128) 128 = false) :
    Does (.hostAccessTimeout a) s
      { s.mark (a.toNat / 128 * 128) 1 with unanswered := s.unanswered ++ [a.toNat / 128 * 128] } := by
  have hany : ¬(s.inflight.any fun y => decide (y.pa / 128 * 128 = a.toNat / 128 * 128)) = true := by
    simpa using hnone
  show execHostAccessTimeout a s = _
  simp only [execHostAccessTimeout, hhome, if_neg hany, if_neg (ne_true_of_eq_false hclean)]

/-- Settles O55, event by event. -/
theorem errorEvents : Obligations.ErrorEvents := by
  unfold Obligations.ErrorEvents
  intro s
  refine ⟨fun hactive => ⟨fun q c a w => does_fetchStop hactive, fun q w e => does_notAnInstruction hactive⟩,
    fun a h hhome => ⟨fun t => rfl, does_uncorrectableError hhome, ?_⟩⟩
  rintro rfl line
  exact ⟨does_hostAccessTimeout_stores hhome, does_hostAccessTimeout_read hhome⟩

end Sys2Proof.Machine
end

section
/-! SUPPORT. What the host does through BAR0 and its windows (R40 to R48, R54, R55, R150, R151). -/

namespace Sys2Proof.Machine

open Sys2Proof.Claims

variable {s : State}

/-! The message window (R44 to R47). -/

theorem Hub.takes_iff {h : Hub} : h.takes = true ↔ h.ready = true ∧ h.fail = false := by
  rw [Hub.takes, Bool.and_eq_true, Bool.not_eq_true']

section

variable {o : BitVec 16} {data : List (BitVec 8)}

theorem does_hostMessage_early (hne : data ≠ []) (hready : s.hub.ready = false) :
    Does (.hostMessage o data) s (s.modStat fun h =>
      { h with hmdrop := h.hmdrop + BitVec.ofNat 64 ((o.toNat + data.length - 1) / 64 + 1 - o.toNat / 64),
               early := true }) := by
  have hlen : data.length ≠ 0 := mt List.length_eq_zero_iff.mp hne
  have hearly : (!s.hub.ready) = true := by rw [hready]; rfl
  exact congrArg Host.Outcome.next ((if_neg hlen).trans (if_pos hearly))

/-- A window write of a module that takes messages (R44, R45, R47). -/
theorem execHostMessage_takes (hne : data ≠ []) (htakes : s.hub.takes = true) :
    execHostMessage o data s = .next (
      if (decide (o.toNat % 64 ≠ 0) || decide (data.length % 64 ≠ 0)) = true then s.hmError
      else s.offer ((List.range (data.length / 64)).map fun i =>
        (o.toNat / 64 + i, (data.drop (64 * i)).take 64))) := by
  have hlen : data.length ≠ 0 := mt List.length_eq_zero_iff.mp hne
  obtain ⟨hready, -⟩ := Hub.takes_iff.mp htakes
  have hlate : ¬(!s.hub.ready) = true := by rw [hready]; exact Bool.false_ne_true
  have hserves : ¬(!s.hub.takes) = true := by rw [htakes]; exact Bool.false_ne_true
  exact congrArg Host.Outcome.next ((if_neg hlen).trans ((if_neg hlate).trans (if_neg hserves)))

theorem does_hostMessage_misaligned (hne : data ≠ []) (htakes : s.hub.takes = true)
    (hbad : o.toNat % 64 ≠ 0 ∨ data.length % 64 ≠ 0) : Does (.hostMessage o data) s s.hmError :=
  (execHostMessage_takes hne htakes).trans (congrArg Host.Outcome.next (if_pos (by simpa using hbad)))

theorem does_hostMessage_flits (hne : data ≠ []) (htakes : s.hub.takes = true) (hoff : o.toNat % 64 = 0)
    (hlen : data.length % 64 = 0) :
    Does (.hostMessage o data) s (s.offer ((List.range (data.length / 64)).map fun i =>
      (o.toNat / 64 + i, (data.drop (64 * i)).take 64))) :=
  (execHostMessage_takes hne htakes).trans (congrArg Host.Outcome.next (if_neg (by simp [hoff, hlen])))

theorem does_hostMessage_flit (hne : data ≠ []) (htakes : s.hub.takes = true) (hoff : o.toNat % 64 = 0)
    (hlen : data.length = 64) : Does (.hostMessage o data) s (s.offer [(o.toNat / 64, data)]) := by
  have hone : ((List.range (data.length / 64)).map fun i => (o.toNat / 64 + i, (data.drop (64 * i)).take 64)) =
      [(o.toNat / 64, data)] := by
    rw [hlen]
    simp [List.take_of_length_le (Nat.le_of_eq hlen)]
  exact hone ▸ does_hostMessage_flits hne htakes hoff (by rw [hlen])

/-- The pieces of a list, one behind the other, are the list. -/
theorem flatten_pieces {α : Type} (k n : Nat) (l : List α) (h : l.length = n * k) :
    ((List.range n).map fun i => (l.drop (k * i)).take k).flatten = l := by
  induction n generalizing l with
  | zero => rw [Nat.zero_mul] at h; rw [List.length_eq_zero_iff.mp h]; rfl
  | succ n ih =>
    have hrest : (l.drop k).length = n * k := by rw [List.length_drop, h, Nat.succ_mul, Nat.add_sub_cancel]
    rw [List.range_succ_eq_map, List.map_cons, List.map_map, List.flatten_cons]
    have hshift : ((fun i => (l.drop (k * i)).take k) ∘ Nat.succ) = fun i => ((l.drop k).drop (k * i)).take k := by
      funext i
      rw [Function.comp_apply, List.drop_drop, Nat.mul_succ, Nat.add_comm]
    rw [hshift, ih _ hrest, Nat.mul_zero, List.drop_zero, List.take_append_drop]

/-- The flits of an aligned window write: they are offered in the order of their addresses (R44). -/
theorem does_hostMessage_all (hne : data ≠ []) (htakes : s.hub.takes = true) (hoff : o.toNat % 64 = 0)
    (hlen : data.length % 64 = 0) :
    ∃ flits : List (Nat × List Byte), Does (.hostMessage o data) s (s.offer flits) ∧
      flits.length = data.length / 64 ∧ (flits.map (·.2)).flatten = data ∧
      ∀ i : Nat, ∀ f, flits[i]? = some f → f.1 = o.toNat / 64 + i ∧ f.2.length = 64 := by
  refine ⟨_, does_hostMessage_flits hne htakes hoff hlen, by rw [List.length_map, List.length_range], ?_,
    fun i f hf => ?_⟩
  · rw [List.map_map]
    exact flatten_pieces 64 (data.length / 64) data (by omega)
  · rw [List.getElem?_map] at hf
    obtain ⟨j, hj, rfl⟩ := Option.map_eq_some_iff.mp hf
    obtain ⟨hlt, rfl⟩ := List.getElem?_eq_some_iff.mp hj
    rw [List.length_range] at hlt
    rw [List.getElem_range]
    exact ⟨rfl, by rw [List.length_take, List.length_drop]; omega⟩

end

/-- One flit offered while none waits (R47). -/
theorem offer_single {n : Nat} {f : List Byte} (hn : n < 1024) (hnone : s.hub.stalled = []) :
    s.offer [(n, f)] = if s.hubRoom (s.completes n f) = true then (s.flit n f).modHub fun h => { h with stalled := [] }
      else s.modHub fun h => { h with stalled := [(n, f)] } := by
  have hwindow : decide (n = 1024) = false := decide_eq_false (Nat.ne_of_lt hn)
  rw [State.offer, hnone, List.nil_append, takeFlits]
  simp only [hwindow, takeFlits, Bool.false_eq_true, if_false]
  cases s.hubRoom (s.completes n f) <;> rfl

section

variable {n : Nat} {f : List Byte}

/-- A flit to a slot that assembles no message (R44, R45). -/
theorem flit_of_no_assembly (hnone : ∀ a ∈ s.hub.assemblies, a.slot ≠ n) : s.flit n f = s.headerFlit n f := by
  have hfind : (s.hub.assemblies.find? fun a => decide (a.slot = n)) = none :=
    List.find?_eq_none.mpr fun a ha => by simpa using hnone a ha
  rw [State.flit, hfind]

theorem headerFlit_bad (hbad : headerOk n f = false) : s.headerFlit n f = s.hmError :=
  if_pos (by rw [hbad]; rfl)

/-- A header flit in form, by whether it holds the whole message (R44). -/
theorem headerFlit_good (hok : headerOk n f = true) :
    s.headerFlit n f = if flitLen f ≤ 40 then s.inject f (f.drop 24)
      else s.modHub fun h => { h with assemblies := h.assemblies ++ [⟨n, f, f.drop 24, s.time.toNat⟩] } :=
  if_neg (by rw [hok]; exact Bool.false_ne_true)

end

/-- A message that has been assembled for too long is dropped, and its slot reads the next flit as a header (R45). -/
theorem late_assembly {n : BitVec 10} {a : Assembly}
    (hfind : s.hub.assemblies.find? (fun a => decide (a.slot = n.toNat)) = some a)
    (hlate : a.since + 2 ^ 20 < s.time.toNat) :
    Does (.hostMessageTimeout n) s (s.dropAssembly n.toNat) ∧
      ∀ f, s.flit n.toNat f = (s.dropAssembly n.toNat).headerFlit n.toNat f := by
  have hdue : a.late s.time = true := decide_eq_true hlate
  refine ⟨congrArg Host.Outcome.next ?_, fun f => ?_⟩
  · rw [hfind]
    exact if_pos hdue
  · rw [State.flit, hfind]
    exact if_pos hdue

theorem timely_assembly {n : BitVec 10} {a : Assembly}
    (hfind : s.hub.assemblies.find? (fun a => decide (a.slot = n.toNat)) = some a)
    (htime : s.time.toNat ≤ a.since + 2 ^ 20) : Does (.hostMessageTimeout n) s s := by
  refine congrArg Host.Outcome.next ?_
  rw [hfind]
  exact if_neg (ne_true_of_eq_false (decide_eq_false (Nat.not_lt.mpr htime)))

/-! Registers of BAR0 (R41, R42, R49, R54). -/

theorem getLsbD_eq_mod (x : Word) (i : Nat) : x.getLsbD i = decide (x.toNat / 2 ^ i % 2 = 1) := by
  rw [BitVec.getLsbD, Nat.testBit_eq_decide_div_mod_eq]

theorem decide_nb_eq_one (b : Bool) : decide (nb b = 1) = b := by cases b <;> rfl

theorem Hub.stat_early (h : Hub) : h.stat.getLsbD 17 = h.early := by
  have hready := nb_le_one h.ready
  have hfail := nb_le_one h.fail
  have htsync := nb_le_one h.tsync
  have hearly := nb_le_one h.early
  have hphase := h.phase.isLt
  have hfailstep := h.failstep.isLt
  have hfield : h.stat.toNat / 2 ^ 17 % 2 = nb h.early := by rw [Hub.stat_toNat]; omega
  rw [getLsbD_eq_mod, hfield, decide_nb_eq_one]

theorem Hub.stat_hmerr (h : Hub) : h.stat.getLsbD 18 = h.hmerr := by
  have hready := nb_le_one h.ready
  have hfail := nb_le_one h.fail
  have htsync := nb_le_one h.tsync
  have hearly := nb_le_one h.early
  have hhmerr := nb_le_one h.hmerr
  have hphase := h.phase.isLt
  have hfailstep := h.failstep.isLt
  have hfield : h.stat.toNat / 2 ^ 18 % 2 = nb h.hmerr := by rw [Hub.stat_toNat]; omega
  rw [getLsbD_eq_mod, hfield, decide_nb_eq_one]

section

variable (h : Hub) (x : BitVec 8) (n : BitVec 3)

/-- The slot whose field of 2^k bytes holds a byte. -/
theorem gangOf_byte (n : BitVec 3) {k i base : Nat} (hi : i < k) :
    BitVec.ofNat 3 ((base + k * n.toNat + i - base) / k) = n := by
  have hquot : (base + k * n.toNat + i - base) / k = n.toNat := by
    rw [Nat.add_assoc, Nat.add_sub_cancel_left, Nat.mul_add_div (Nat.zero_lt_of_lt hi), Nat.div_eq_of_lt hi,
      Nat.add_zero]
  rw [hquot, BitVec.ofNat_toNat, BitVec.setWidth_eq]

theorem Hub.writeByte_tick {i : Nat} (hi : i < 8) :
    h.writeByte (0x240 + 8 * n.toNat + i) x = if (h.gang n).state = 1 then h else
      h.setGang n { h.gang n with tick := putByte (h.gang n).tick i x } := by
  have hn := n.isLt
  have hbyte : (0x240 + 8 * n.toNat + i) % 8 = i := by omega
  rw [Hub.writeByte, if_neg (by omega), if_pos (by omega)]
  simp only [gangOf_byte n hi, hbyte]

theorem Hub.writeByte_staged {i : Nat} (hi : i < 64) :
    h.writeByte (0x6000 + 64 * n.toNat + i) x = if (h.gang n).state = 1 then h else
      h.setGang n { h.gang n with staged := bufferBytes (h.gang n).staged i [x] } := by
  have hn := n.isLt
  have hbyte : (0x6000 + 64 * n.toNat + i) % 64 = i := by omega
  rw [Hub.writeByte, if_neg (by omega), if_neg (by omega), if_neg (by omega), if_pos (by omega)]
  simp only [gangOf_byte n hi, hbyte]

theorem Hub.writeByte_request {a : Nat} (hlo : 0x2000 ≤ a) (hhi : a < 0x3000) :
    h.writeByte a x = { h with request := bufferBytes h.request (a - 0x2000) [x] } := by
  rw [Hub.writeByte, if_neg (by omega), if_neg (by omega), if_pos ⟨hlo, hhi⟩]

theorem Hub.writeByte_ignored {a : Nat} (hstat : a ≠ 2) (htick : a < 0x240 ∨ 0x280 ≤ a)
    (hrequest : a < 0x2000 ∨ 0x3000 ≤ a) (hstaged : a < 0x6000 ∨ 0x6200 ≤ a) : h.writeByte a x = h := by
  rw [Hub.writeByte, if_neg hstat, if_neg (by omega), if_neg (by omega), if_neg (by omega)]

/-- The bytes of MBXDB and those behind it change no register. -/
theorem Hub.writeBytes_ignored {base : Nat} (data : List (BitVec 8)) (k : Nat) (hlo : 0x280 ≤ base + k)
    (hhi : base + k + data.length ≤ 0x2000) :
    (data.zipIdx k).foldl (fun h x => h.writeByte (base + x.2) x.1) h = h := by
  induction data generalizing k with
  | nil => rfl
  | cons y data ih =>
    rw [List.length_cons] at hhi
    rw [List.zipIdx_cons, List.foldl_cons,
      Hub.writeByte_ignored _ _ (by omega) (by omega) (by omega) (by omega)]
    exact ih (k + 1) (by omega) (by omega)

end

/-- A write that does not touch MBXDB is done byte by byte (R41). -/
theorem does_registerWrite {o : BitVec 17} {data : List (BitVec 8)}
    (hout : o.toNat + data.length ≤ 0x1000 ∨ 0x1008 ≤ o.toNat) :
    Does (.registerWrite o data) s
      (s.modStat fun h => (data.zipIdx).foldl (fun h x => h.writeByte (o.toNat + x.2) x.1) h) := by
  have hrings : (decide (o.toNat < 0x1008) && decide (0x1000 < o.toNat + data.length)) = false := by
    simp only [Bool.and_eq_false_iff, decide_eq_false_iff_not]
    omega
  refine congrArg Host.Outcome.next (State.modStat_congr ?_)
  rw [hrings, if_neg Bool.false_ne_true]

theorem State.modStat_of_eq {f : Hub → Hub} (h : (f s.hub).stat = s.hub.stat) : s.modStat f = s.modHub f := if_pos h

/-- The doorbell changes no bit of STAT. -/
theorem Hub.doorbell_stat (h : Hub) (q : BitVec 16) : (h.doorbell q).stat = h.stat := by
  rw [Hub.doorbell]
  split <;> rfl

/-- A write over MBXDB rings the doorbell with the sequence number that it holds (R49). -/
theorem does_registerWrite_doorbell {data : List (BitVec 8)} (hlen : data.length = 8) :
    Does (.registerWrite 0x1000 data) s
      (s.modHub fun h => h.doorbell (BitVec.ofNat 16 (leNat (data.take 2)))) := by
  obtain ⟨x, y, rest, rfl⟩ : ∃ x y rest, data = x :: y :: rest := by
    match data, hlen with
    | x :: y :: rest, _ => exact ⟨x, y, rest, rfl⟩
  have hignored : (((x :: y :: rest).zipIdx).foldl (fun h x => h.writeByte ((0x1000 : BitVec 17).toNat + x.2) x.1)
    s.hub) =
      s.hub :=
    Hub.writeBytes_ignored s.hub (x :: y :: rest) 0 (by decide) (by rw [hlen]; decide)
  have hrings : (decide ((0x1000 : BitVec 17).toNat < 0x1008) &&
      decide (0x1000 < (0x1000 : BitVec 17).toNat + (x :: y :: rest).length)) = true := by
    rw [hlen]; decide
  refine congrArg Host.Outcome.next ((State.modStat_congr (g := fun h => h.doorbell (BitVec.ofNat 16
    (leNat ((x :: y :: rest).take 2)))) ?_).trans (State.modStat_of_eq (Hub.doorbell_stat _ _)))
  rw [hrings, if_pos rfl, hignored]
  rfl

/-! Reads of BAR0 (R41; log 77). -/

section

variable (s) (n : BitVec 3)

theorem barWord_gangCtl : s.barWord (0x200 + 8 * n.toNat) = (s.hub.gang n).ctl := by
  have hn := n.isLt
  have hgang := gangOf_byte n (k := 8) (i := 0) (base := 0x200) (by decide)
  rw [Nat.add_zero] at hgang
  rw [State.barWord]
  simp only [hgang]
  rw [if_neg (by omega), if_neg (by omega), if_neg (by omega), if_neg (by omega), if_pos (by omega)]

theorem barWord_gangTick : s.barWord (0x240 + 8 * n.toNat) = (s.hub.gang n).tick := by
  have hn := n.isLt
  have hgang := gangOf_byte n (k := 8) (i := 0) (base := 0x240) (by decide)
  rw [Nat.add_zero] at hgang
  rw [State.barWord]
  simp only [hgang]
  rw [if_neg (by omega), if_neg (by omega), if_neg (by omega), if_neg (by omega), if_neg (by omega), if_pos (by omega)]

theorem barWord_staged {i : Nat} (hi : i < 8) :
    s.barWord (0x6000 + 64 * n.toNat + 8 * i) = BitVec.ofNat 64
      (leNat (((s.hub.gang n).flit.drop (8 * i)).take 8)) := by
  have hn := n.isLt
  have hgang := gangOf_byte n (k := 64) (i := 8 * i) (base := 0x6000) (by omega)
  have hoff : (0x6000 + 64 * n.toNat + 8 * i) % 64 = 8 * i := by omega
  rw [State.barWord]
  simp only [hgang, hoff]
  rw [if_neg (by omega), if_neg (by omega), if_neg (by omega), if_neg (by omega), if_neg (by omega), if_neg (by omega),
    if_neg (by omega), if_neg (by omega), if_neg (by omega), if_pos (by omega)]
  rfl

/-- What the map does not list reads as zero (R41). -/
theorem barWord_unlisted {k : Nat} (h : (0x18 ≤ k ∧ k < 0x100) ∨ (0x108 ≤ k ∧ k < 0x200) ∨ (0x280 ≤ k ∧ k < 0x1000) ∨
    (0x1010 ≤ k ∧ k < 0x2000) ∨ (0x3000 ≤ k ∧ k < 0x4000) ∨ 0x6200 ≤ k) : s.barWord k = 0 := by
  rw [State.barWord, if_neg (by omega), if_neg (by omega), if_neg (by omega), if_neg (by omega), if_neg (by omega),
    if_neg (by omega),
    if_neg (by omega), if_neg (by omega), if_neg (by omega), if_neg (by omega)]

end

/-- The bytes of a number, one by one. -/
theorem leBytes_eq_map (n w : Nat) : leBytes n w = (List.range n).map fun i => BitVec.ofNat 8 (w / 2 ^ (8 * i)) := by
  induction n generalizing w with
  | zero => rfl
  | succ n ih =>
    rw [leBytes, ih, List.range_succ_eq_map, List.map_cons, List.map_map]
    refine List.cons_eq_cons.mpr ⟨by rw [Nat.mul_zero, Nat.pow_zero, Nat.div_one], List.map_congr_left fun i _ => ?_⟩
    rw [Function.comp_apply, Nat.div_div_eq_div_mul, Nat.mul_succ, Nat.add_comm, Nat.pow_add]

/-- An aligned read of 8 bytes reads one word (R41). -/
theorem barRead_word (s : State) {n : Nat} (hn : n % 8 = 0) : s.barRead n 8 = leBytes 8 (s.barWord n).toNat := by
  rw [State.barRead, leBytes_eq_map]
  refine List.map_congr_left fun i hi => ?_
  have hi := List.mem_range.mp hi
  have hword : (n + i) / 8 * 8 = n := by omega
  have hbyte : (n + i) % 8 = i := by omega
  rw [hword, hbyte]

/-! Device memory (R150, R151). -/

section

variable {o : BitVec 64} {n : Nat} {bs : List (BitVec 8)} {e : RangeEntry}

theorem does_hdmWrite (hhome : (home? (s.forwarded o.toNat (e.phys o.toNat))).isSome = true)
    (hrange : s.hub.hostRange o.toNat bs.length true = some e)
    (harray : s.arrayCheck (s.forwarded o.toNat (e.phys o.toNat)) bs.length .write = .ok ()) :
    Does (.hostHdmAccess o n (some bs)) s
      (((s.normalise (s.forwarded o.toNat (e.phys o.toNat)) bs.length).poke (s.forwarded o.toNat (e.phys o.toNat))
        bs).hostTakes (s.forwarded o.toNat (e.phys o.toNat)) bs.length) := by
  obtain ⟨h, hh⟩ := Option.isSome_iff_exists.mp hhome
  show execHostHdmAccess o n (some bs) s = _
  simp only [execHostHdmAccess, Option.isSome_some, hrange, if_true, harray, hh]

theorem does_hdmWrite_refused {k : Cause × State} (hrange : s.hub.hostRange o.toNat bs.length true = some e)
    (harray : s.arrayCheck (s.forwarded o.toNat (e.phys o.toNat)) bs.length .write = .error k) :
    Does (.hostHdmAccess o n (some bs)) s (s.hdmRefused true) := by
  show execHostHdmAccess o n (some bs) s = _
  simp only [execHostHdmAccess, Option.isSome_some, hrange, if_true, harray]

theorem does_hdmRead (hhome : (home? (s.forwarded o.toNat (e.phys o.toNat))).isSome = true)
    (hrange : s.hub.hostRange o.toNat n false = some e)
    (harray : s.arrayCheck (s.forwarded o.toNat (e.phys o.toNat)) n .read = .ok ()) :
    let pa := s.forwarded o.toNat (e.phys o.toNat)
    Does (.hostHdmAccess o n none) s ((((s.touch pa n false).consumeOnce pa n).hostTakes pa n).modHub fun h =>
      { h with hostRead := if poisoned s.poison pa n = true then none else some (s.peek pa n) }) := by
  obtain ⟨h, hh⟩ := Option.isSome_iff_exists.mp hhome
  show execHostHdmAccess o n none s = _
  simp only [execHostHdmAccess, Option.isSome_none, hrange, Bool.false_eq_true, if_false, harray, hh]

theorem does_hdmRead_refused {k : Cause × State} (hrange : s.hub.hostRange o.toNat n false = some e)
    (harray : s.arrayCheck (s.forwarded o.toNat (e.phys o.toNat)) n .read = .error k) :
    Does (.hostHdmAccess o n none) s (s.hdmRefused false) := by
  show execHostHdmAccess o n none s = _
  simp only [execHostHdmAccess, Option.isSome_none, hrange, Bool.false_eq_true, if_false, harray]

end

theorem mem_insertNat {l : List Nat} {k j : Nat} : j ∈ insertNat l k ↔ j = k ∨ j ∈ l := by
  induction l with
  | nil => simp [insertNat]
  | cons i l ih =>
    rw [insertNat]
    split
    next => rw [List.mem_cons]
    next =>
      split
      next hki => rw [hki, List.mem_cons, ← or_assoc, or_self]
      next => rw [List.mem_cons, ih, List.mem_cons, or_left_comm]

theorem mem_foldl_insertNat {α : Type} {f : α → Nat} {l : List Nat} {j : Nat} (is : List α)
    (h : j ∈ l ∨ ∃ i ∈ is, f i = j) : j ∈ is.foldl (fun l i => insertNat l (f i)) l := by
  induction is generalizing l with
  | nil => exact h.resolve_right fun ⟨i, hi, _⟩ => List.not_mem_nil hi
  | cons i is ih =>
    refine ih ?_
    rcases h with h | ⟨k, hk, hkj⟩
    · exact .inl (mem_insertNat.mpr (.inr h))
    · rcases List.mem_cons.mp hk with rfl | hk
      · exact .inl (mem_insertNat.mpr (.inl hkj.symm))
      · exact .inr ⟨k, hk, hkj⟩

/-- After a host access the host holds a line of it (R150; log 78). -/
theorem hostHolds_hostTakes (q : State) {pa n : Nat} (hn : 0 < n) : (q.hostTakes pa n).hostHolds pa n = true := by
  rw [State.hostTakes, if_neg (Nat.ne_of_gt hn)]
  refine List.any_eq_true.mpr ⟨pa / 128 * 128, mem_foldl_insertNat _ (.inr ⟨0, List.mem_range.mpr ?_, rfl⟩), ?_⟩
  · have hline : pa / 128 ≤ (pa + n - 1) / 128 := Nat.div_le_div_right (by omega)
    omega
  · simp only [Bool.and_eq_true, decide_eq_true_eq]
    omega

theorem hostActs : Claims.HostActs := by
  intro s
  refine ⟨fun o data hne => ⟨does_hostMessage_early hne, fun htakes => ⟨does_hostMessage_misaligned hne htakes,
      does_hostMessage_flit hne htakes, does_hostMessage_all hne htakes⟩⟩,
    fun n f hn hnone => ⟨fun hroom => ?_, fun hfull => ?_⟩, fun n f hnone => ⟨fun hbad => ?_, fun hok hlen => ?_,
      fun hok hlen => ?_⟩, fun n a hfind => ⟨late_assembly hfind, timely_assembly hfind⟩, fun o data =>
        does_registerWrite,
    fun h x => ⟨rfl, ⟨h.stat_early, h.stat_hmerr⟩, fun n i => ⟨fun hi => ?_, fun hi => ?_⟩,
      fun a => h.writeByte_request x, fun a => h.writeByte_ignored x⟩,
    fun data => does_registerWrite_doorbell, ⟨rfl, rfl, rfl, rfl, rfl, rfl⟩,
    fun n => ⟨barWord_gangCtl s n, barWord_gangTick s n, fun i hi => barWord_staged s n hi⟩,
    fun n hn => ⟨barRead_word s hn, fun h => barWord_unlisted s (by omega), fun h => barWord_unlisted s (by omega)⟩,
    ?_, fun q pa n => hostHolds_hostTakes q, fun v hv => congrArg Host.Outcome.next (if_pos hv)⟩
  · exact (offer_single hn hnone).trans (if_pos hroom)
  · exact (offer_single hn hnone).trans (if_neg (ne_true_of_eq_false hfull))
  · exact (flit_of_no_assembly hnone).trans (headerFlit_bad hbad)
  · exact (flit_of_no_assembly hnone).trans ((headerFlit_good hok).trans (if_pos hlen))
  · exact (flit_of_no_assembly hnone).trans ((headerFlit_good hok).trans (if_neg (Nat.not_le.mpr hlen)))
  · have hbyte := h.writeByte_tick x n hi
    exact ⟨fun harmed => hbyte.trans (if_pos harmed), fun hidle => hbyte.trans (if_neg hidle)⟩
  · have hbyte := h.writeByte_staged x n hi
    exact ⟨fun harmed => hbyte.trans (if_pos harmed), fun hidle => hbyte.trans (if_neg hidle)⟩
  · intro o n bs e pa hhome
    exact ⟨fun hrange => ⟨does_hdmWrite hhome hrange, fun k => does_hdmWrite_refused hrange⟩,
      fun hrange => ⟨does_hdmRead hhome hrange, fun k => does_hdmRead_refused hrange⟩⟩

/-! Gang slots (R54, R55). -/

section

variable {n : BitVec 3}

/-- The state with a gang slot changed. -/
def State.putGang (s : State) (n : BitVec 3) (g : Gang) : State := s.modHub fun h => h.setGang n g

/-- An ARM of a slot that is not armed, by what it is judged for (R55). -/
theorem execGangArm_of_idle (hidle : (s.hub.gang n).state ≠ 1) :
    execGangArm n s = .next (
      if (!s.hub.ready) = true then s.putGang n { s.hub.gang n with state := 3, cause := 4 }
      else if (!s.hub.tsync) = true then s.putGang n { s.hub.gang n with state := 3, cause := 2 }
      else if (!(s.hub.gang n).flitOk) = true then s.putGang n { s.hub.gang n with state := 3, cause := 3 }
      else if (s.hub.gang n).tick.toNat < s.time.toNat + 2000 then s.putGang n
        { s.hub.gang n with state := 3, cause := 1 }
      else s.putGang n { s.hub.gang n with state := 1, cause := 0 }) :=
  congrArg Host.Outcome.next (if_neg hidle)

theorem execGangCancel_eq : execGangCancel n s = .next (
    if (decide ((s.hub.gang n).state = 1) && decide (s.time.toNat < (s.hub.gang n).tick.toNat)) = true then
      s.putGang n { s.hub.gang n with state := 0, cause := 0 }
    else s) := rfl

/-- An armed slot whose tick has come fires (R55; log 40). -/
theorem execGangFire_of_due (harmed : (s.hub.gang n).state = 1) (hdue : (s.hub.gang n).tick.toNat ≤ s.time.toNat) :
    execGangFire n s = .next (
      if s.hub.takes = true then (s.putGang n { s.hub.gang n with state := 2, cause := 0 }).offer
        [(1024, (s.hub.gang n).flit)]
      else s.putGang n { s.hub.gang n with state := 2, cause := 0 }) := by
  refine congrArg Host.Outcome.next (if_pos ?_)
  rw [Gang.due, decide_eq_true harmed, decide_eq_true hdue]
  rfl

end

theorem gangActs : Claims.GangActs := by
  intro s n g put
  refine ⟨fun hidle => ?_, fun harmed => ?_, fun x => rfl⟩
  · have harm := execGangArm_of_idle hidle
    have hcancel : ¬(decide (g.state = 1) && decide (s.time.toNat < g.tick.toNat)) = true := by
      rw [decide_eq_false hidle, Bool.false_and]
      exact Bool.false_ne_true
    refine ⟨execGangCancel_eq.trans (congrArg Host.Outcome.next (if_neg hcancel)), fun hready => harm.trans ?_,
      fun hready hsync => harm.trans ?_, fun hready hsync hflit => harm.trans ?_,
      fun hready hsync hflit hlate => harm.trans ?_, fun hready hsync hflit htime => harm.trans ?_⟩
    · simp only [hready, Bool.not_false, if_true]
      rfl
    · simp only [hready, hsync, Bool.not_true, Bool.not_false, Bool.false_eq_true, if_false, if_true]
      rfl
    · simp only [hready, hsync, show (s.hub.gang n).flitOk = false from hflit, Bool.not_true, Bool.not_false,
        Bool.false_eq_true, if_false, if_true]
      rfl
    · simp only [hready, hsync, show (s.hub.gang n).flitOk = true from hflit, Bool.not_true, Bool.false_eq_true,
        if_false]
      exact congrArg Host.Outcome.next (if_pos hlate)
    · simp only [hready, hsync, show (s.hub.gang n).flitOk = true from hflit, Bool.not_true, Bool.false_eq_true,
        if_false]
      exact congrArg Host.Outcome.next (if_neg (Nat.not_lt.mpr htime))
  · refine ⟨congrArg Host.Outcome.next (if_pos harmed), fun hearly => ?_, fun hdue =>
      ⟨?_, fun htakes => ?_, fun hfailed => ?_⟩⟩
    · exact execGangCancel_eq.trans (congrArg Host.Outcome.next
        (if_pos (Bool.and_eq_true_iff.mpr ⟨decide_eq_true harmed, decide_eq_true hearly⟩)))
    · refine execGangCancel_eq.trans (congrArg Host.Outcome.next (if_neg ?_))
      rw [decide_eq_false (Nat.not_lt.mpr hdue), Bool.and_false]
      exact Bool.false_ne_true
    · exact (execGangFire_of_due harmed hdue).trans (congrArg Host.Outcome.next (if_pos htakes))
    · exact (execGangFire_of_due harmed hdue).trans
        (congrArg Host.Outcome.next (if_neg (ne_true_of_eq_false hfailed)))

/-- Settles O57: messages, registers and device memory, then the gang slots. -/
theorem hostEvents : Obligations.HostEvents := ⟨hostActs, gangActs⟩

end Sys2Proof.Machine
end


section
/-! SUPPORT. Stores, messages and decrements that arrive (R27, R67, R121, R160, R161, R321), and what ends (R75, R169,
R415). -/

namespace Sys2Proof.Machine

open Sys2Proof.Claims

/-! Arrivals. -/

/-- A BISnp leaves the host no line of the place that it names. -/
theorem hostHolds_snooped (s : State) (pa n : Nat) :
    State.hostHolds { s with hostLines := snooped s.hostLines pa n } pa n = false := by
  simp only [State.hostHolds, snooped, List.any_eq_false, List.mem_filter]
  rintro x ⟨-, hx⟩ hy
  simp [hy] at hx

theorem storeArrives (s : State) (n : Nat) :
    ∀ a, s.inflight[n]? = some a → s.behind n a = false →
      let pa := s.forwarded a.va a.pa
      (s.hostHolds pa a.data.length = false →
        let q : State := { s with inflight := s.inflight.eraseIdx n }
        Does (.accessPerformedAtHome n) s ((q.dropForwarded a.tile a.va a.pa).performStore
          ⟨a.tile, a.thread, a.icnt, a.msgid, a.fibre⟩ .wr a.va a.pa a.data)) ∧
      (s.hostHolds pa a.data.length = true → ∃ t, Does (.accessPerformedAtHome n) s t ∧
        t.hostHolds pa a.data.length = false ∧ { t with hostLines := s.hostLines } = s) := by
  intro a ha hbehind pa
  have hexec : exec (.accessPerformedAtHome n) s =
      if s.hostHolds pa a.data.length then .next { s with hostLines := snooped s.hostLines pa a.data.length }
      else .next (({ s with inflight := s.inflight.eraseIdx n } : State).performFlight a) := by
    show execAccessPerformedAtHome n s = _
    rw [execAccessPerformedAtHome, ha]
    dsimp only
    rw [if_neg (by simp [hbehind])]
    rfl
  refine ⟨fun h => hexec.trans (if_neg (by simp [h])), fun h => ⟨_, hexec.trans (if_pos h), ?_, rfl⟩⟩
  exact hostHolds_snooped s pa a.data.length

theorem messageArrives (s : State) (n : Nat) :
    ∀ m, s.net[n]? = some m → (∀ x ∈ s.net, s.holdsBack x m = false) → (∀ d ∈ s.decs, s.decBefore d m = false) →
      (s.leaves' m = true → Does (.messageArrival n) s (({ s with net := s.net.eraseIdx n }).depart m)) ∧
      (s.leaves' m = false →
        (∀ why, s.undelivered m = some why → Does (.messageArrival n) s ((s.takeMessage n m).bury why m)) ∧
        (s.undelivered m = none → s.away m.region = false →
          (m.sums = true → s.heldAt (dTile m.dest) m.region = false →
            Does (.messageArrival n) s ((s.takeMessage n m).sumInto m)) ∧
          (m.sums = true → s.heldAt (dTile m.dest) m.region = true → s.blocked m = false →
            Does (.messageArrival n) s ((s.takeMessage n m).holdSum m)) ∧
          (m.sums = false → s.blocked m = false → Does (.messageArrival n) s ((s.takeMessage n m).land m)))) := by
  intro m hm hnet hdecs
  have hfree : (s.net.any (fun x => s.holdsBack x m) || s.decs.any fun d => s.decBefore d m) = false := by
    simp only [Bool.or_eq_false_iff, List.any_eq_false, Bool.not_eq_true]
    exact ⟨hnet, hdecs⟩
  refine ⟨fun hl => ?_, fun hl => ⟨fun why hw => ?_, fun hu ha =>
    ⟨fun hs hh => ?_, fun hs hh hb => ?_, fun hs hb => ?_⟩⟩⟩ <;>
    refine congrArg Host.Outcome.next ?_ <;> rw [hm] <;> dsimp only <;> rw [if_neg (by simp [hfree])]
  · rw [if_pos hl]
  · rw [if_neg (by simp [hl]), hw]
  all_goals rw [if_neg (by simp [hl]), hu]; dsimp only; rw [if_neg (by simp [ha])]
  · rw [if_pos hs, if_pos (by simp [hh])]
  · rw [if_pos hs, if_neg (by simp [hh]), if_neg (by simp [hb])]
  · rw [if_neg (by simp [hs]), if_neg (by simp [hb])]

theorem decrementArrives (s : State) (n : Nat) :
    ∀ d, s.decs[n]? = some d →
      (∀ m ∈ s.net, ¬(m.uid < d.uid ∧ m.source = d.src.toNat ∧ dTile m.dest = hTile d.handle ∧ s.leaves' m = false)) →
      (∀ x ∈ s.decs, ¬(x.uid < d.uid ∧ x.src = d.src ∧ hTile x.handle = hTile d.handle)) →
      s.away d.region = false →
      (s.heldAt (hTile d.handle) d.region = false → Does (.decrementArrival n) s
        ((({ s with decs := s.decs.eraseIdx n }).received (hTile d.handle) d.region d.colour).decrement d)) ∧
      (s.heldAt (hTile d.handle) d.region = true → Does (.decrementArrival n) s
        { s.received (hTile d.handle) d.region d.colour with
          decs := s.decs.eraseIdx n, heldDecs := s.heldDecs ++ [d] }) := by
  intro d hd hnet hdecs haway
  have hmsg : s.net.any (fun m => decide (m.uid < d.uid) && decide (m.source = d.src.toNat) &&
      decide (dTile m.dest = hTile d.handle) && !(s.leaves' m)) = false := by
    simpa only [List.any_eq_false, Bool.and_eq_true, decide_eq_true_eq, Bool.not_eq_true', and_assoc] using hnet
  have hdec : s.decs.any (fun x => decide (x.uid < d.uid) && decide (x.src = d.src) &&
      decide (hTile x.handle = hTile d.handle)) = false := by
    simpa only [List.any_eq_false, Bool.and_eq_true, decide_eq_true_eq, and_assoc] using hdecs
  constructor <;> intro h <;> refine congrArg Host.Outcome.next ?_ <;> rw [hd] <;> dsimp only <;>
    rw [if_neg (by simp only [hmsg, hdec, haway]; simp)]
  · rw [if_neg (by simp [h])]
  · rw [if_pos h]

/-! Endings. -/

theorem fibreReclaimed (s : State) : ∀ (h : Word) (f : Fibre),
    s.reclaims.find? (fun y => decide (hTile y = hTile h) && decide (hSlot y = hSlot h)) = some h →
    s.fibre? h = some f → f.runsOn = none → s.still f.region = false → s.recordsFor h = false →
    Does (.fibreReclaim (hTile h) (hSlot h)) s
      ((({ s with reclaims := removeFirst (fun x => decide (x = h)) s.reclaims }).drainFibre h).reclaimFibre h) := by
  intro h f hfind hf hruns hstill hrec
  refine congrArg Host.Outcome.next ?_
  rw [hfind]
  dsimp only
  rw [hf]
  dsimp only
  rw [if_neg (by simp [hruns, hstill, hrec])]

theorem State.removes_iff (s : State) (r : Release) :
    s.removes r = true ↔ r.freed.isSome = true ∨ (r.slab = false ∧ (r.heir = 0 ∨ s.fibre? r.heir = none)) := by
  simp [State.removes]

/-- A range whose blocks are pinned, FETCHING or EVICTING; pins count no longer once the region unloads (log 80). -/
theorem State.heldRange_iff (s : State) (r : BitVec 16) (e : RangeEntry) :
    s.heldRange r e = true ↔ ∃ x, s.region? r = some x ∧ (s.blocksMove r e = true ∨ (x.unloading = false ∧
      e.tiered = true ∧ ∃ va ∈ blocksOf e.vbase (e.limit - e.vbase), s.blockPinned r e va = true)) := by
  rw [State.heldRange]
  cases hx : s.region? r with
  | none => simp
  | some x => cases hu : x.unloading <;> simp [State.rangeBusy, hu]

theorem State.releaseBusy_iff (s : State) (r : Release) :
    s.releaseBusy r = true ↔ ∃ l ∈ s.releaseLeaves r, l.entry.forwarding = true ∨
      s.pagesBusy (s.treeOf r.region) setsDevice l.entry.overlaps = true ∨
        (s.removes r = true ∧ s.heldRange r.region l.entry = true) := by
  simp [State.releaseBusy, or_assoc]

theorem rangeReleased (s : State) :
    ∀ (n : Nat) (r : Release), s.releases[n]? = some r → s.commandsOf r.owner = false → s.still r.region = false →
      let leaves : List Leaf := match r.freed with
        | some c => (s.leaves (s.ctxRegion c)).filter fun l => s.inSlab c l.entry.vbase
        | none => (s.leaves r.region).filter fun l =>
          decide (l.entry.vbase = r.vbase) && l.entry.priv && decide (l.entry.owner = r.owner)
      let q : State := { s with releases := s.releases.eraseIdx n }
      let removed : Prop := r.freed.isSome = true ∨ (r.slab = false ∧ (r.heir = 0 ∨ s.fibre? r.heir = none))
      let pinned (e : RangeEntry) : Prop :=
        e.tiered = true ∧ ∃ va ∈ blocksOf e.vbase (e.limit - e.vbase), s.blockPinned r.region e va = true
      let held (e : RangeEntry) : Prop := ∃ x, s.region? r.region = some x ∧
        (s.blocksMove r.region e = true ∨ (x.unloading = false ∧ pinned e))
      let busy (l : Leaf) : Prop := l.entry.forwarding = true ∨
        s.pagesBusy (s.treeOf r.region) setsDevice l.entry.overlaps = true ∨ (removed ∧ held l.entry)
      ((∃ l ∈ leaves, busy l) → Does (.rangeRelease n) s s) ∧
      ((∀ l ∈ leaves, ¬busy l) → Does (.rangeRelease n) s (State.tryFree (match r.freed with
          | some c => q.freeSlab r.region c
          | none => leaves.foldl (fun q l => q.releaseRange r l) q) (futureHandle r.owner))) := by
  intro n r hr hcmds hstill leaves q removed pinned held busy
  have hleaves : s.releaseLeaves r = leaves := rfl
  have hbusy : s.releaseBusy r = true ↔ ∃ l ∈ leaves, busy l := by
    rw [State.releaseBusy_iff, hleaves]
    simp only [State.removes_iff, State.heldRange_iff]
    rfl
  constructor <;> intro h <;> refine congrArg Host.Outcome.next ?_ <;> rw [hr] <;> dsimp only
  · rw [if_pos (by simp [hbusy.2 h])]
  · have hfree : s.releaseBusy r = false := by
      rw [← Bool.not_eq_true, hbusy]
      exact fun ⟨l, hl, hb⟩ => h l hl hb
    rw [if_neg (by simp [hcmds, hstill, hfree]), hleaves] <;> rfl

/-- What a map holds for a key is its default or stands in it. -/
theorem mget_eq_or_mem {α : Type} (d : α) (l : List (Nat × α)) (k : Nat) : mget d l k = d ∨ (k, mget d l k) ∈ l := by
  induction l with
  | nil => exact .inl rfl
  | cons x l ih =>
    obtain ⟨j, a⟩ := x
    by_cases hj : j = k
    · exact .inr (by simp [mget, hj])
    · simpa [mget, hj, Ne.symm hj] using ih

/-- A tile that has a command in its scoreboard stands in the list of tiles. -/
theorem State.mem_tiles_of_cmd {s : State} {t : BitVec 10} {n : Nat} {c : Cmd} (h : (s.tile t).cmds[n]? = some c) :
    (t.toNat, s.tile t) ∈ s.tiles := by
  refine (mget_eq_or_mem Tile.reset s.tiles t.toNat).resolve_left fun hreset => ?_
  rw [State.tile, hreset] at h
  simp [Tile.reset] at h

/-- A command that the reclamation has cancelled keeps the slot of its issuer's future (R75). -/
theorem State.tryFree_of_cancelling {s : State} {h : Word} (hc : s.cancelling h = true) : s.tryFree h = s := by
  unfold State.tryFree
  split
  · rfl
  · exact if_neg (by simp [hc])

theorem cancelledKeepsSlot (s : State) :
    ∀ (h : Word) (y : BitVec 10 × Nat) (c : Cmd), (s.tile y.1).cmds[y.2]? = some c → c.cancelled = true →
      c.fibre = fibreHandle h → s.tryFree h = s := by
  intro h y c hcmd hcancelled hfibre
  refine State.tryFree_of_cancelling ?_
  simp only [State.cancelling, List.any_eq_true]
  exact ⟨_, State.mem_tiles_of_cmd hcmd, c, List.mem_of_getElem? hcmd, by simp [hcancelled, hfibre]⟩

theorem scopeDrains (s : State) : ∀ (r : BitVec 16) (c : BitVec 4),
    let x := s.scopeCopy r c
    x.state = 2 → s.scopeInFlight r c x.gen = false →
    let y : ScopeCopy := { x with state := 0 }
    Does (.scopeDrain r c) s ((s.setScopeCopy r c y).pokeNat (s.scopeEntry r c) 8 y.word0) := by
  intro r c x hstate hfree y
  exact congrArg Host.Outcome.next (if_pos (by simp [show (s.scopeCopy r c).state = 2 from hstate,
    show s.scopeInFlight r c (s.scopeCopy r c).gen = false from hfree]))

/-- Settles O59: each arrival and each ending is one branch of its event. -/
theorem arrivals : Obligations.Arrivals := by
  unfold Obligations.Arrivals Claims.ArrivalEvents Claims.Endings
  exact ⟨fun s n => ⟨storeArrives s n, messageArrives s n, decrementArrives s n⟩,
    fun s => ⟨fibreReclaimed s, rangeReleased s, cancelledKeepsSlot s, scopeDrains s⟩⟩

end Sys2Proof.Machine
end

section
/-! SUPPORT. The invariant that every operation of a step keeps. -/

namespace Sys2Proof.Machine

open Sys2Proof.Claims

/-- What is asked of a state: of its cycle, and whether memory and cellar are to be in canonical form. -/
structure Form where
  cyc : Word → Prop
  canonical : Prop

/-- A state meets what is asked of it: what every operation inside a step keeps, whatever is asked. -/
structure Formed (c : Form) (s : State) : Prop where
  cyc : c.cyc s.cyc
  mem : c.canonical → Memory.wf s.mem
  cellar : c.canonical → Memory.wf s.cellar

/-- A state that differs in other fields alone. -/
theorem Formed.of_eq {c : Form} {s t : State} (h : Formed c s) (hcyc : t.cyc = s.cyc) (hmem : t.mem = s.mem)
    (hcellar : t.cellar = s.cellar) : Formed c t :=
  ⟨hcyc ▸ h.cyc, hmem ▸ h.mem, hcellar ▸ h.cellar⟩

theorem formed_ite {c : Form} {p : Prop} [Decidable p] {s t : State} (hs : Formed c s) (ht : Formed c t) :
    Formed c (if p then s else t) := by
  split
  · exact hs
  · exact ht

theorem formed_foldl {α : Type} {c : Form} {s : State} {f : State → α → State} {l : List α} (h : Formed c s)
    (hf : ∀ s a, Formed c s → Formed c (f s a)) : Formed c (l.foldl f s) := by
  induction l generalizing s with
  | nil => exact h
  | cons a l ih => exact ih (hf s a h)

/-- Changes of other fields than the cycle, memory and the cellar. -/
@[simp] theorem formed_mk {c : Form} {s : State} {f1 f2 f3 f4 f5 f7 f8 f9 f10 f11 f12 f15 f16 f17 f18 f19 f20
    f21 f22 f23
    f24 f25 f26 f27 f28 f29 f30 f31 f32 f33} :
    Formed c ⟨f1, f2, f3, f4, f5, s.cyc, f7, f8, f9, f10, f11, f12, s.mem, s.cellar, f15, f16, f17, f18, f19, f20,
      f21, f22,
      f23, f24, f25, f26, f27, f28, f29, f30, f31, f32, f33⟩ ↔ Formed c s :=
  ⟨fun h => ⟨h.cyc, h.mem, h.cellar⟩, fun h => ⟨h.cyc, h.mem, h.cellar⟩⟩

theorem Formed.setMem {c : Form} {s : State} {m : List Host.Cell} (hs : Formed c s) (hm : c.canonical → Memory.wf m) :
    Formed c { s with mem := m } :=
  ⟨hs.cyc, hm, hs.cellar⟩

theorem Formed.setCellar {c : Form} {s : State} {m : List Host.Cell} (hs : Formed c s)
    (hm : c.canonical → Memory.wf m) :
    Formed c { s with cellar := m } :=
  ⟨hs.cyc, hs.mem, hm⟩

@[simp] theorem formed_modCmem {cy : Form} {s : State} (c : Nat) (f : Cmem → Cmem) (hs : Formed cy s) :
    Formed cy (s.modCmem c f) :=
  ⟨hs.cyc, hs.mem, hs.cellar⟩

@[simp] theorem formed_touch {c : Form} {s : State} (pa n : Nat) (wr : Bool) (hs : Formed c s) :
    Formed c (s.touch pa n wr) := by
  unfold State.touch
  exact formed_foldl hs fun s a h => by simp [h]

@[simp] theorem formed_poke {c : Form} {s : State} (pa : Nat) (bs : List Byte) (hs : Formed c s) :
    Formed c (s.poke pa bs) := by
  exact ⟨(formed_touch pa bs.length true hs).cyc, fun h => Memory.wf_writeBytes (hs.mem h) pa bs,
    (formed_touch pa bs.length true hs).cellar⟩

@[simp] theorem formed_pokeNat {c : Form} {s : State} (pa n v : Nat) (hs : Formed c s) :
    Formed c (s.pokeNat pa n v) := by
  unfold State.pokeNat
  simp [hs]

@[simp] theorem formed_mark {c : Form} {s : State} (pa n : Nat) (hs : Formed c s) : Formed c (s.mark pa n) :=
  ⟨hs.cyc, hs.mem, hs.cellar⟩

@[simp] theorem formed_modTile {c : Form} {s : State} (i : BitVec 10) (f : Tile → Tile) (hs : Formed c s) :
    Formed c (s.modTile i f) :=
  ⟨hs.cyc, hs.mem, hs.cellar⟩

@[simp] theorem formed_modThread {c : Form} {s : State} (x : ThreadId) (f : Thread → Thread) (hs : Formed c s) :
    Formed c (s.modThread x f) :=
  ⟨hs.cyc, hs.mem, hs.cellar⟩

@[simp] theorem formed_modSelf {c : Form} {s : State} (f : Thread → Thread) (hs : Formed c s) :
    Formed c (s.modSelf f) :=
  ⟨hs.cyc, hs.mem, hs.cellar⟩

@[simp] theorem formed_setG {c : Form} {s : State} (r : BitVec 5) (x : Word) (hs : Formed c s) :
    Formed c (s.setG r x) :=
  ⟨hs.cyc, hs.mem, hs.cellar⟩

@[simp] theorem formed_setP {c : Form} {s : State} (r : BitVec 3) (b : Bool) (hs : Formed c s) :
    Formed c (s.setP r b) :=
  ⟨hs.cyc, hs.mem, hs.cellar⟩

@[simp] theorem formed_setV {c : Form} {s : State} (r : BitVec 5) (x : VWord) (tag : BitVec 4) (hs : Formed c s) :
    Formed c (s.setV r x tag) :=
  ⟨hs.cyc, hs.mem, hs.cellar⟩

@[simp] theorem formed_setM {c : Form} {s : State} (r : BitVec 3) (x : Word) (hs : Formed c s) :
    Formed c (s.setM r x) :=
  ⟨hs.cyc, hs.mem, hs.cellar⟩

@[simp] theorem formed_advance {c : Form} {s : State} (n : Nat) (hs : Formed c s) : Formed c (s.advance n) :=
  ⟨hs.cyc, hs.mem, hs.cellar⟩

@[simp] theorem formed_jump {c : Form} {s : State} (a : Word) (hs : Formed c s) : Formed c (s.jump a) :=
  ⟨hs.cyc, hs.mem, hs.cellar⟩

@[simp] theorem formed_modRegion {c : Form} {s : State} (r : BitVec 16) (f : Region → Region) (hs : Formed c s) :
    Formed c (s.modRegion r f) := by
  unfold State.modRegion
  split <;> simp [hs]

@[simp] theorem formed_setRcbField {c : Form} {s : State} (rcb i h l v : Nat) (hs : Formed c s) :
    Formed c (s.setRcbField rcb i h l v) := by
  unfold State.setRcbField
  simp [hs]

@[simp] theorem formed_actsFor {c : Form} {s : State} (e : Option Eff) (hs : Formed c s) : Formed c (s.actsFor e) :=
  ⟨hs.cyc, hs.mem, hs.cellar⟩

@[simp] theorem formed_setLive {c : Form} {s : State} (r : BitVec 16) (n : Nat) (hs : Formed c s) :
    Formed c (s.setLive r n) := by
  unfold State.setLive
  split <;> simp [hs]

@[simp] theorem formed_addLive {c : Form} {s : State} (r : BitVec 16) (k : Nat) (hs : Formed c s) :
    Formed c (s.addLive r k) := by
  unfold State.addLive
  simp [hs]

@[simp] theorem formed_dropLive {c : Form} {s : State} (r : BitVec 16) (hs : Formed c s) :
    Formed c (s.dropLive r) := by
  unfold State.dropLive
  simp [hs]

@[simp] theorem formed_decDrop {c : Form} {s : State} (r : BitVec 16) (hs : Formed c s) : Formed c (s.decDrop r) := by
  unfold State.decDrop
  split <;> simp [hs]

@[simp] theorem formed_modCut {c : Form} {s : State} (tile : BitVec 10) (r : BitVec 16) (f : CutState → CutState)
    (hs : Formed c s) : Formed c (s.modCut tile r f) :=
  ⟨hs.cyc, hs.mem, hs.cellar⟩

@[simp] theorem formed_askFreeze {c : Form} {s : State} (r : BitVec 16) (hs : Formed c s) :
    Formed c (s.askFreeze r) := by
  unfold State.askFreeze
  exact formed_foldl hs fun s a h => by simp [h]

@[simp] theorem formed_draw {c : Form} {s : State} (n : Nat) (hs : Formed c s) : Formed c (s.draw n).2 := by
  unfold State.draw
  simp [hs]

@[simp] theorem formed_pick {c : Form} {α : Type} {s : State} (l : List α) (hs : Formed c s) :
    Formed c (s.pick l).2 := by
  unfold State.pick
  split <;> simp [hs]

@[simp] theorem formed_modSlot {c : Form} {s : State} (t : BitVec 10) (n : BitVec 12) (f : Slot → Slot)
    (hs : Formed c s) : Formed c (s.modSlot t n f) :=
  ⟨hs.cyc, hs.mem, hs.cellar⟩

@[simp] theorem formed_modFibre {c : Form} {s : State} (h : Word) (f : Fibre → Fibre) (hs : Formed c s) :
    Formed c (s.modFibre h f) := by
  unfold State.modFibre
  split <;> simp [hs]

@[simp] theorem formed_modFuture {c : Form} {s : State} (h : Word) (f : Future → Future) (hs : Formed c s) :
    Formed c (s.modFuture h f) := by
  unfold State.modFuture
  split <;> simp [hs]

@[simp] theorem formed_modDie {c : Form} {s : State} (d : BitVec 2) (f : Die → Die) (hs : Formed c s) :
    Formed c (s.modDie d f) :=
  ⟨hs.cyc, hs.mem, hs.cellar⟩

@[simp] theorem formed_spillTile {c : Form} {s : State} (t : BitVec 10) (hs : Formed c s) :
    Formed c (s.spillTile t) := by
  unfold State.spillTile
  dsimp only
  (repeat' split) <;> simp +contextual [hs, formed_foldl, formed_ite]

@[simp] theorem formed_spillCluster {cy : Form} {s : State} (c : Nat) (hs : Formed cy s) :
    Formed cy (s.spillCluster c) := by
  unfold State.spillCluster
  dsimp only
  (repeat' split) <;> simp +contextual [hs, formed_foldl, formed_ite]

@[simp] theorem formed_enqueue {c : Form} {s : State} (h : Word) (hs : Formed c s) : Formed c (s.enqueue h) := by
  unfold State.enqueue
  dsimp only
  (repeat' split) <;> simp +contextual [hs, formed_foldl, formed_ite]

@[simp] theorem formed_makeReady {c : Form} {s : State} (h : Word) (p : Pending) (hs : Formed c s) :
    Formed c (s.makeReady h p) := by
  unfold State.makeReady
  simp [hs]

@[simp] theorem formed_unqueue {c : Form} {s : State} (h : Word) (hs : Formed c s) : Formed c (s.unqueue h) := by
  unfold State.unqueue
  simp [hs]

@[simp] theorem formed_bringHome {c : Form} {s : State} (h : Word) (hs : Formed c s) : Formed c (s.bringHome h) := by
  unfold State.bringHome
  split <;> simp [hs]

@[simp] theorem formed_useBlock {c : Form} {s : State} (t : BitVec 10) (b : Nat) (hs : Formed c s) :
    Formed c (s.useBlock t b) :=
  ⟨hs.cyc, hs.mem, hs.cellar⟩

theorem formed_roomForRef {c : Form} {s : State} (h : Word) (hs : Formed c s) :
    ∀ t, (s.roomForRef h) = some t → Formed c t := by
  unfold State.roomForRef
  grind [formed_modFibre, formed_pick, formed_useBlock]

theorem formed_takeRun {c : Form} {s : State} (d : BitVec 2) (k : Nat) (hs : Formed c s) :
    ∀ a t, s.takeRun d k = some (a, t) → Formed c t := by
  unfold State.takeRun
  grind [formed_modDie, formed_pick]

@[simp] theorem formed_giveRun {c : Form} {s : State} (d : BitVec 2) (r : Run) (hs : Formed c s) :
    Formed c (s.giveRun d r) :=
  ⟨hs.cyc, hs.mem, hs.cellar⟩

@[simp] theorem formed_giveRuns {c : Form} {s : State} (l : List (BitVec 2 × Run)) (hs : Formed c s) :
    Formed c (s.giveRuns l) := by
  unfold State.giveRuns
  exact formed_foldl hs fun s a h => by simp [h]

@[simp] theorem formed_giveBlocks {c : Form} {s : State} (d : BitVec 2) (run : Run) (lo hi : Nat) (hs : Formed c s) :
    Formed c (s.giveBlocks d run lo hi) := by
  unfold State.giveBlocks
  simp +contextual [hs, formed_foldl, formed_ite]

theorem formed_borrow {c : Form} {s : State} (d : BitVec 2) (hs : Formed c s) :
    ∀ t, (s.borrow d) = some t → Formed c t := by
  unfold State.borrow
  grind [formed_modDie, formed_pick]

@[simp] theorem formed_refuseRun {c : Form} {s : State} (d : BitVec 2) (hs : Formed c s) : Formed c (s.refuseRun d) :=
  ⟨hs.cyc, hs.mem, hs.cellar⟩

@[simp] theorem formed_refusedBatch {c : Form} {s : State} (d : BitVec 2) (hs : Formed c s) :
    Formed c (s.refusedBatch d) := by
  unfold State.refusedBatch
  split <;> simp [hs]

@[simp] theorem formed_refuseGrow {c : Form} {s : State} (d : BitVec 2) (hs : Formed c s) :
    Formed c (s.refuseGrow d) := by
  unfold State.refuseGrow
  simp [hs]

@[simp] theorem formed_askBatch {c : Form} {s : State} (d : BitVec 2) (hs : Formed c s) :
    Formed c (s.askBatch d) := by
  unfold State.askBatch
  grind [formed_borrow, formed_refusedBatch]

theorem formed_growDirect {c : Form} {s : State} (d : BitVec 2) (hs : Formed c s) :
    ∀ a t, s.growDirect d = some (a, t) → Formed c t := by
  intro a t ht
  unfold State.growDirect at ht
  split at ht
  · exact formed_takeRun d 0 hs a t (by simp_all)
  · exact formed_takeRun d 0 (formed_askBatch d hs) a t ht

@[simp] theorem formed_walkedFrom {c : Form} {s : State} (va n a : Nat) (hs : Formed c s) :
    Formed c (s.walkedFrom va n a) := by
  induction n generalizing s a with
  | zero => exact hs
  | succ n ih =>
    rw [State.walkedFrom]
    (repeat' split) <;> simp [hs, ih]

@[simp] theorem formed_walked {c : Form} {s : State} (r : BitVec 16) (va : Nat) (hs : Formed c s) :
    Formed c (s.walked r va) := by
  exact formed_walkedFrom va 14 _ hs

@[simp] theorem formed_writeLeaf {c : Form} {s : State} (leaf : Nat) (e : RangeEntry) (hs : Formed c s) :
    Formed c (s.writeLeaf leaf e) := by
  unfold State.writeLeaf
  simp [hs]

theorem formed_growPool {c : Form} {s : State} (r : BitVec 16) (hs : Formed c s) :
    ∀ t, (s.growPool r) = some t → Formed c t := by
  intro t ht
  unfold State.growPool at ht
  have h := formed_growDirect (dieAt (s.rangeRoot r)) hs
  grind [formed_modRegion]

theorem formed_takeUnit {c : Form} {s : State} (r : BitVec 16) (hs : Formed c s) :
    ∀ a t, s.takeUnit r = some (a, t) → Formed c t := by
  unfold State.takeUnit
  dsimp only
  (repeat' split) <;> grind [formed_growPool, formed_modRegion]

theorem formed_takeHalf {c : Form} {s : State} (r : BitVec 16) (hs : Formed c s) :
    ∀ a t, s.takeHalf r = some (a, t) → Formed c t := by
  intro a t ht
  unfold State.takeHalf at ht
  grind [formed_modRegion, formed_takeUnit]

@[simp] theorem formed_giveUnit {c : Form} {s : State} (r : BitVec 16) (a : Nat) (hs : Formed c s) :
    Formed c (s.giveUnit r a) := by
  unfold State.giveUnit
  simp [hs]

@[simp] theorem formed_giveHalf {c : Form} {s : State} (r : BitVec 16) (a : Nat) (hs : Formed c s) :
    Formed c (s.giveHalf r a) := by
  unfold State.giveHalf
  simp [hs]

@[simp] theorem formed_writeNode {c : Form} {s : State} (node : Nat) (cs : List Child) (hs : Formed c s) :
    Formed c (s.writeNode node cs) := by
  unfold State.writeNode
  simp [hs]

@[simp] theorem formed_giveFillers {c : Form} {s : State} (r : BitVec 16) (root : Nat) (l : List Nat)
    (hs : Formed c s) : Formed c (s.giveFillers r root l) := by
  unfold State.giveFillers
  exact formed_foldl hs fun s a h => by simp [h]

theorem formed_insertLeafAt {c : Form} {s : State} (r : BitVec 16) (k ref n a : Nat) (hs : Formed c s) :
    ∀ t x, s.insertLeafAt r k ref n a = some (t, x) → Formed c t := by
  induction n generalizing a with
  | zero => exact fun _ _ h => absurd h (by simp [State.insertLeafAt])
  | succ n ih =>
    intro t x hx
    rw [State.insertLeafAt] at hx
    dsimp only at hx
    (repeat' split at hx) <;> grind [formed_writeNode, formed_takeUnit]

theorem formed_addRange {c : Form} {s : State} (r : BitVec 16) (e : RangeEntry) (bitmap : Nat) (hs : Formed c s) :
    ∀ t, (s.addRange r e bitmap) = some t → Formed c t := by
  intro t ht
  unfold State.addRange at ht
  extract_lets q at ht
  split at ht
  · cases ht
  · rename_i h u hu
    extract_lets s1 root fillers at ht
    have h1 : Formed c s1 := by simp [s1, formed_takeHalf _ hs h u hu]
    have hin := formed_insertLeafAt q e.vbase (h + 1) 14 root h1
    generalize s1.insertLeafAt q e.vbase (h + 1) 14 root = x at hin ht
    split at ht
    · cases ht
    · obtain rfl := Option.some.inj ht
      exact formed_giveFillers _ _ _ (hin _ _ rfl)
    · split at ht
      · cases ht
      · obtain rfl := Option.some.inj ht
        have hunit := formed_takeUnit _ (hin _ _ rfl) _ _ ‹_›
        exact formed_giveFillers _ _ _ (by simp [hunit])

@[simp] theorem formed_removeLeafAt {c : Form} {s : State} (r : BitVec 16) (k leaf n a : Nat) (hs : Formed c s) :
    Formed c (s.removeLeafAt r k leaf n a).1 := by
  induction n generalizing a with
  | zero => exact hs
  | succ n ih =>
    rw [State.removeLeafAt]
    grind [formed_writeNode, formed_giveUnit]

@[simp] theorem formed_dropRange {c : Form} {s : State} (r : BitVec 16) (l : Leaf) (hs : Formed c s) :
    Formed c (s.dropRange r l) := by
  unfold State.dropRange
  have h := formed_removeLeafAt (s.treeOf r) l.entry.vbase l.addr 14 (s.rangeRoot (s.treeOf r)) hs
  dsimp only
  generalize s.removeLeafAt (s.treeOf r) l.entry.vbase l.addr 14 (s.rangeRoot (s.treeOf r)) = x at h ⊢
  (repeat' split) <;> grind [formed_giveHalf, formed_giveUnit, formed_poke, formed_writeNode]

@[simp] theorem formed_tileId {c : Form} {s : State} (t : BitVec 10) (hs : Formed c s) : Formed c (s.tileId t).2 := by
  unfold State.tileId
  simp [hs]

@[simp] theorem formed_hubId {c : Form} {s : State} (hs : Formed c s) : Formed c (s.hubId).2 := by
  unfold State.hubId
  simp [hs]

@[simp] theorem formed_post {c : Form} {s : State} (m : Message) (hs : Formed c s) : Formed c (s.post m) :=
  ⟨hs.cyc, hs.mem, hs.cellar⟩

@[simp] theorem formed_sendRecord {c : Form} {s : State} (f : FaultRec) (hs : Formed c s) :
    Formed c (s.sendRecord f) :=
  ⟨hs.cyc, hs.mem, hs.cellar⟩

@[simp] theorem formed_senderId {c : Form} {s : State} (t : Option (BitVec 10)) (hs : Formed c s) :
    Formed c (s.senderId t).2 := by
  unfold State.senderId
  split <;> simp [hs]

@[simp] theorem formed_sendDebug {c : Form} {s : State} (sender : Option (BitVec 10)) (f : FaultRec)
    (hs : Formed c s) : Formed c (s.sendDebug sender f) := by
  unfold State.sendDebug
  split <;> simp [hs]

@[simp] theorem formed_sendDeadLetter {c : Form} {s : State} (r : BitVec 16) (hs : Formed c s) :
    Formed c (s.sendDeadLetter r) :=
  ⟨hs.cyc, hs.mem, hs.cellar⟩

@[simp] theorem formed_deadLetter {c : Form} {s : State} (r : BitVec 16) (reason : Nat) (m : Message)
    (hs : Formed c s) : Formed c (s.deadLetter r reason m) := by
  unfold State.deadLetter
  split
  · split <;> simp [hs]
  · dsimp only
    (repeat' split) <;> grind [formed_setRcbField, formed_poke, formed_sendDeadLetter]

@[simp] theorem formed_setPairs {c : Form} {s : State} (pa : Nat) (w : Vector WatchPair 4) (hs : Formed c s) :
    Formed c (s.setPairs pa w) := by
  unfold State.setPairs
  split <;> simp [hs]

@[simp] theorem formed_takeHit {c : Form} {s : State} (x : Issuer) (pa : Nat) (i : Fin 4) (hs : Formed c s) :
    Formed c (s.takeHit x pa i) := by
  unfold State.takeHit
  grind [formed_askFreeze, formed_sendDebug, formed_setPairs]

@[simp] theorem formed_seen {c : Form} {s : State} (x : Issuer) (k : WKind) (pa n : Nat) (hs : Formed c s) :
    Formed c (s.seen x k pa n) := by
  unfold State.seen
  exact formed_foldl hs fun s a h => by (repeat' split) <;> simp [h]

@[simp] theorem formed_watched {c : Form} {s : State} (x : Issuer) (k : WKind) (pa n : Nat) (hs : Formed c s) :
    Formed c (s.watched x k pa n) := by
  unfold State.watched
  simp +contextual [hs, formed_foldl, formed_ite]

@[simp] theorem formed_consumeOnce {c : Form} {s : State} (pa n : Nat) (hs : Formed c s) :
    Formed c (s.consumeOnce pa n) := by
  unfold State.consumeOnce
  exact formed_foldl (by grind [formed_mark, formed_modCmem, formed_poke]) fun s a h => by grind
    [formed_mark, formed_modCmem, formed_poke]

@[simp] theorem formed_dirtyAt {c : Form} {s : State} (pa n : Nat) (hs : Formed c s) : Formed c (s.dirtyAt pa n) := by
  unfold State.dirtyAt
  split
  · exact hs
  · refine formed_foldl hs fun s i h => ?_
    dsimp only
    (repeat' split) <;> simp [h]

@[simp] theorem formed_answered {c : Form} {s : State} (pa n : Nat) (hs : Formed c s) :
    Formed c (s.answered pa n) := by
  unfold State.answered
  simp +contextual [hs, formed_foldl, formed_ite]

@[simp] theorem formed_normalise {c : Form} {s : State} (pa n : Nat) (hs : Formed c s) :
    Formed c (s.normalise pa n) := by
  unfold State.normalise
  exact formed_foldl (by grind [formed_answered, formed_dirtyAt, formed_modCmem]) fun s a h => by grind
    [formed_answered, formed_dirtyAt, formed_modCmem]

@[simp] theorem formed_performAt {c : Form} {s : State} (x : Issuer) (k : WKind) (pa : Nat) (bs : List Byte)
    (hs : Formed c s) : Formed c (s.performAt x k pa bs) := by
  unfold State.performAt
  grind [formed_normalise, formed_poke, formed_watched]

@[simp] theorem formed_performStore {c : Form} {s : State} (x : Issuer) (k : WKind) (va pa : Nat) (bs : List Byte)
    (hs : Formed c s) : Formed c (s.performStore x k va pa bs) := by
  unfold State.performStore
  simp [hs]

@[simp] theorem formed_dropLine {c : Form} {s : State} (t : BitVec 10) (pa : Nat) (hs : Formed c s) :
    Formed c (s.dropLine t pa) :=
  ⟨hs.cyc, hs.mem, hs.cellar⟩

@[simp] theorem formed_dropForwarded {c : Form} {s : State} (t : BitVec 10) (va pa : Nat) (hs : Formed c s) :
    Formed c (s.dropForwarded t va pa) := by
  unfold State.dropForwarded
  split <;> simp [hs]

@[simp] theorem formed_performFlight {c : Form} {s : State} (a : Access) (hs : Formed c s) :
    Formed c (s.performFlight a) := by
  unfold State.performFlight
  simp [hs]

@[simp] theorem formed_performThose {c : Form} {s : State} (p : Access → Bool) (hs : Formed c s) :
    Formed c (s.performThose p) := by
  unfold State.performThose
  simp +contextual [hs, formed_foldl, formed_ite]

@[simp] theorem formed_drain {c : Form} {s : State} (x : ThreadId) (sel : Home → Bool) (hs : Formed c s) :
    Formed c (s.drain x sel) := by
  unfold State.drain
  simp [hs]

@[simp] theorem formed_drainVol {c : Form} {s : State} (hs : Formed c s) : Formed c (s.drainVol) := by
  unfold State.drainVol
  simp [hs]

@[simp] theorem formed_drainFibre {c : Form} {s : State} (h : Word) (hs : Formed c s) :
    Formed c (s.drainFibre h) := by
  unfold State.drainFibre
  simp [hs]

@[simp] theorem formed_drainHome {c : Form} {s : State} (pa : Nat) (hs : Formed c s) : Formed c (s.drainHome pa) := by
  unfold State.drainHome
  simp [hs]

@[simp] theorem formed_drainAt {c : Form} {s : State} (va pa : Nat) (hs : Formed c s) :
    Formed c (s.drainAt va pa) := by
  unfold State.drainAt
  simp [hs]

@[simp] theorem formed_drainStep {c : Form} {s : State} (t : BitVec 10) (pa n : Nat) (hs : Formed c s) :
    Formed c (s.drainStep t pa n) := by
  unfold State.drainStep
  simp [hs]

@[simp] theorem formed_release {c : Form} {s : State} (x : Sets) (hs : Formed c s) : Formed c (s.release x) := by
  unfold State.release
  simp [hs]

@[simp] theorem formed_releaseAll {c : Form} {s : State} (hs : Formed c s) : Formed c (s.releaseAll) := by
  unfold State.releaseAll
  simp [hs]

@[simp] theorem formed_setCx {c : Form} {s : State} (cxd i h l v : Nat) (hs : Formed c s) :
    Formed c (s.setCx cxd i h l v) := by
  unfold State.setCx
  simp [hs]

@[simp] theorem formed_setReaders {cy : Form} {s : State} (c e n : Nat) (hs : Formed cy s) :
    Formed cy (s.setReaders c e n) := by
  unfold State.setReaders
  split <;> simp [hs]

@[simp] theorem formed_invalidate {c : Form} {s : State} (r : BitVec 16) (lo hi : Nat) (hs : Formed c s) :
    Formed c (s.invalidate r lo hi) := by
  unfold State.invalidate
  simp [hs]

@[simp] theorem formed_removeRange {c : Form} {s : State} (r : BitVec 16) (l : Leaf) (hs : Formed c s) :
    Formed c (s.removeRange r l) := by
  unfold State.removeRange
  simp [hs]

@[simp] theorem formed_modCtxSlot {c : Form} {s : State} (cxd : Nat) (f : CtxSlot → CtxSlot) (hs : Formed c s) :
    Formed c (s.modCtxSlot cxd f) := by
  unfold State.modCtxSlot
  simp [hs]

@[simp] theorem formed_releaseCtx {c : Form} {s : State} (cxd : Nat) (hs : Formed c s) :
    Formed c (s.releaseCtx cxd) := by
  unfold State.releaseCtx
  (repeat' split) <;> simp [hs]

@[simp] theorem formed_leaveEpochs {c : Form} {s : State} (x : ThreadId) (hs : Formed c s) :
    Formed c (s.leaveEpochs x) := by
  unfold State.leaveEpochs
  exact formed_modThread _ _ (formed_foldl hs fun s c h => by simp [h])

@[simp] theorem formed_tryFree {c : Form} {s : State} (h : Word) (hs : Formed c s) : Formed c (s.tryFree h) := by
  unfold State.tryFree
  (repeat' split) <;> simp +contextual [hs, formed_foldl, formed_ite]

@[simp] theorem formed_wakeCont {c : Form} {s : State} (w : Word) (hs : Formed c s) : Formed c (s.wakeCont w) := by
  unfold State.wakeCont
  (repeat' split) <;> simp [hs]

@[simp] theorem formed_wakeWaiter {c : Form} {s : State} (fut : Word) (w : Word) (hs : Formed c s) :
    Formed c (s.wakeWaiter fut w) := by
  unfold State.wakeWaiter
  split <;> simp [hs]

@[simp] theorem formed_wakeWaiters {c : Form} {s : State} (fut : Word) (hs : Formed c s) :
    Formed c (s.wakeWaiters fut) := by
  unfold State.wakeWaiters
  split
  · exact hs
  · exact formed_modFuture _ _ (formed_foldl hs fun s w h => by simp [h])

@[simp] theorem formed_resolve {c : Form} {s : State} (fut : Word) (result : Word) (hs : Formed c s) :
    Formed c (s.resolve fut result) := by
  unfold State.resolve
  simp [hs]

@[simp] theorem formed_queueReclaim {c : Form} {s : State} (h : Word) (hs : Formed c s) :
    Formed c (s.queueReclaim h) := by
  unfold State.queueReclaim
  (repeat' split) <;> simp [hs]

@[simp] theorem formed_setRclm {c : Form} {s : State} (h : Word) (hs : Formed c s) : Formed c (s.setRclm h) := by
  unfold State.setRclm
  (repeat' split) <;> simp [hs]

@[simp] theorem formed_dropCount {c : Form} {s : State} (h : Word) (hs : Formed c s) : Formed c (s.dropCount h) := by
  unfold State.dropCount
  grind [formed_modFuture, formed_setRclm, formed_tryFree, formed_wakeWaiters]

@[simp] theorem formed_dropRef {c : Form} {s : State} (h : Word) (hs : Formed c s) : Formed c (s.dropRef h) := by
  unfold State.dropRef
  (repeat' split) <;> simp +contextual [hs, formed_foldl, formed_ite]

@[simp] theorem formed_endRef {c : Form} {s : State} (holder fut : Word) (hs : Formed c s) :
    Formed c (s.endRef holder fut) := by
  unfold State.endRef
  (repeat' split) <;> simp [hs]

@[simp] theorem formed_groupEnd {c : Form} {s : State} (g : Word) (hs : Formed c s) : Formed c (s.groupEnd g) := by
  unfold State.groupEnd
  grind [formed_dropRef, formed_modFuture, formed_resolve, formed_tryFree]

@[simp] theorem formed_releaseRanges {c : Form} {s : State} (h heir : Word) (r : BitVec 16) (hs : Formed c s) :
    Formed c (s.releaseRanges h heir r) := by
  unfold State.releaseRanges
  simp [hs]

@[simp] theorem formed_disown {c : Form} {s : State} (h : Word) (hs : Formed c s) : Formed c (s.disown h) := by
  unfold State.disown
  exact formed_foldl (by grind [formed_modCtxSlot, formed_pokeNat, formed_releaseCtx]) fun s a h => by grind
    [formed_modCtxSlot, formed_pokeNat, formed_releaseCtx]

@[simp] theorem formed_unbind {c : Form} {s : State} (h : Word) (hs : Formed c s) : Formed c (s.unbind h) := by
  unfold State.unbind
  grind [formed_modFibre, formed_releaseCtx, formed_setCx]

@[simp] theorem formed_unlinkWaiter {c : Form} {s : State} (h : Word) (hs : Formed c s) :
    Formed c (s.unlinkWaiter h) := by
  unfold State.unlinkWaiter
  split <;> simp [hs]

@[simp] theorem formed_buryFibre {c : Form} {s : State} (h heir : Word) (hs : Formed c s) :
    Formed c (s.buryFibre h heir) := by
  unfold State.buryFibre
  split
  · exact hs
  · extract_lets s1 s2 s3 s4 s5 s6 s7 s8
    have h1 : Formed c s1 := formed_foldl (by simp [hs]) fun s x hs => by simp [hs]
    have h2 : Formed c s2 := by simp [s2, h1]
    have h3 : Formed c s3 := by simp [s3, h2]
    have h4 : Formed c s4 := by simp [s4, h3]
    have h5 : Formed c s5 := by simp [s5, h4]
    have h6 : Formed c s6 := by simp [s6, h5]
    have h7 : Formed c s7 := formed_ite h6 (by simp [h6])
    have h8 : Formed c s8 := formed_ite (by simp [h7]) h7
    simp [h8]

@[simp] theorem formed_endFibre {c : Form} {s : State} (h : Word) (hs : Formed c s) : Formed c (s.endFibre h) := by
  unfold State.endFibre
  dsimp only
  (repeat' split) <;> simp +contextual [hs, formed_foldl, formed_ite]

@[simp] theorem formed_endLate {c : Form} {s : State} (holder : Word) (hs : Formed c s) :
    Formed c (s.endLate holder) := by
  unfold State.endLate
  (repeat' split) <;> simp [hs]

@[simp] theorem formed_unrecord {c : Form} {s : State} (x : ThreadId) (hs : Formed c s) :
    Formed c (s.unrecord x) := by
  unfold State.unrecord
  grind [formed_endLate, formed_modFibre, formed_modThread]

@[simp] theorem formed_unpark {c : Form} {s : State} (h : Word) (hs : Formed c s) : Formed c (s.unpark h) := by
  unfold State.unpark
  (repeat' split) <;> simp [hs]

@[simp] theorem formed_regenOver {c : Form} {s : State} (cxd : Nat) (how : RegenFate) (hs : Formed c s) :
    Formed c (s.regenOver cxd how) := by
  unfold State.regenOver
  simp [hs]

@[simp] theorem formed_endRegen {c : Form} {s : State} (cxd : Nat) (hs : Formed c s) : Formed c (s.endRegen cxd) := by
  unfold State.endRegen
  simp +contextual [hs, formed_foldl, formed_ite]

@[simp] theorem formed_pendFault {c : Form} {s : State} (h : Word) (f : FaultRec) (hs : Formed c s) :
    Formed c (s.pendFault h f) := by
  unfold State.pendFault
  simp [hs]

@[simp] theorem formed_retryFails {c : Form} {s : State} (h : Word) (hs : Formed c s) :
    Formed c (s.retryFails h) := by
  unfold State.retryFails
  (repeat' split) <;> simp [hs]

@[simp] theorem formed_bury {c : Form} {s : State} (reason : Nat) (m : Message) (hs : Formed c s) :
    Formed c (s.bury reason m) := by
  unfold State.bury
  have h := formed_deadLetter m.region reason m hs
  generalize s.deadLetter m.region reason m = u at h ⊢
  dsimp only
  split
  · exact formed_foldl (by simp [h]) fun s a hs => by simp [hs]
  · exact h

@[simp] theorem formed_freeMessage {c : Form} {s : State} (t : BitVec 10) (cls : BitVec 2) (uid : Nat)
    (hs : Formed c s) : Formed c (s.freeMessage t cls uid) := by
  unfold State.freeMessage
  dsimp only
  (repeat' split) <;> simp +contextual [hs, formed_foldl, formed_ite]

@[simp] theorem formed_modMessage {c : Form} {s : State} (t : BitVec 10) (cls : BitVec 2) (uid : Nat)
    (f : Inbound → Inbound) (hs : Formed c s) : Formed c (s.modMessage t cls uid f) :=
  ⟨hs.cyc, hs.mem, hs.cellar⟩

@[simp] theorem formed_deadLetterFor {c : Form} {s : State} (h : Word) (t : BitVec 10) (hs : Formed c s) :
    Formed c (s.deadLetterFor h t) := by
  unfold State.deadLetterFor
  exact formed_foldl hs fun s k hs => formed_foldl (by simp [hs]) fun s m hs => by simp [hs]

@[simp] theorem formed_freezeFor {c : Form} {s : State} (h : Word) (hs : Formed c s) : Formed c (s.freezeFor h) := by
  unfold State.freezeFor
  (repeat' split) <;> simp [hs]

@[simp] theorem formed_leftUnsettled {c : Form} {s : State} (unsettled : Option Word) (hs : Formed c s) :
    Formed c (s.leftUnsettled unsettled) := by
  unfold State.leftUnsettled
  split <;> simp [hs]

@[simp] theorem formed_reclaimFibre {c : Form} {s : State} (h : Word) (hs : Formed c s) :
    Formed c (s.reclaimFibre h) := by
  unfold State.reclaimFibre
  split
  · exact hs
  · extract_lets fut unsettled s1 s2 s3
    have h1 : Formed c s1 := by simp [s1, hs]
    have h2 : Formed c s2 := formed_foldl h1 fun s t hs => by simp [hs]
    have h3 : Formed c s3 := by
      unfold s3
      (repeat' split) <;> simp [h2]
    simp [h3]

@[simp] theorem formed_vacate {c : Form} {s : State} (x : ThreadId) (hs : Formed c s) : Formed c (s.vacate x) := by
  unfold State.vacate
  grind [formed_modFibre, formed_modThread, formed_modTile]

@[simp] theorem formed_futurePending {c : Form} {s : State} (h : Word) (hs : Formed c s) :
    Formed c (s.futurePending h) := by
  unfold State.futurePending
  simp [hs]

@[simp] theorem formed_returnMessage {c : Form} {s : State} (x : ThreadId) (held : Bool) (hs : Formed c s) :
    Formed c (s.returnMessage x held) := by
  unfold State.returnMessage
  split <;> simp [hs]

@[simp] theorem formed_abort {c : Form} {s : State} (x : ThreadId) (held : Bool) (hs : Formed c s) :
    Formed c (s.abort x held) := by
  unfold State.abort
  extract_lets t s1 s2 s3 s4 s5 s6
  have h1 : Formed c s1 := by simp [s1, hs]
  have h2 : Formed c s2 := formed_foldl h1 fun s r hs => by simp [hs]
  have h3 : Formed c s3 := formed_ite (by simp [h2]) h2
  have h4 : Formed c s4 := by simp [s4, h3]
  have h5 : Formed c s5 := by simp [s5, h4]
  have h6 : Formed c s6 := by
    unfold s6
    split <;> simp [h5]
  simp [h6]

@[simp] theorem formed_reclaimRunning {c : Form} {s : State} (x : ThreadId) (hs : Formed c s) :
    Formed c (s.reclaimRunning x) := by
  unfold State.reclaimRunning
  extract_lets t s1 unsettled s2 s3
  have h1 : Formed c s1 := by simp [s1, hs]
  have h2 : Formed c s2 := by
    unfold s2
    split <;> simp [h1]
  have h3 : Formed c s3 := by simp [s3, h2]
  simp [h3]

end Sys2Proof.Machine
end


section
/-! SUPPORT. The stops, translations and accesses keep the invariant. -/

namespace Sys2Proof.Machine

open Sys2Proof.Claims

/-- A partial operation ends well: its error meets one predicate, its value another. -/
def Ends {ε α : Type} (e : ε → Prop) (a : α → Prop) : Except ε α → Prop
  | .ok x => a x
  | .error x => e x

@[simp] theorem ends_ok {ε α : Type} {e : ε → Prop} {a : α → Prop} {x : α} : Ends e a (.ok x) ↔ a x := Iff.rfl

@[simp] theorem ends_error {ε α : Type} {e : ε → Prop} {a : α → Prop} {x : ε} : Ends e a (.error x) ↔ e x := Iff.rfl

theorem ends_ok_fst {ε α : Type} {e : ε → Prop} {c : Form} {s : State} {x : α} (h : Formed c s) :
    Ends e (fun y : State × α => Formed c y.1) (.ok (s, x)) :=
  h

theorem ends_ok_unit {ε : Type} {e : ε → Prop} : Ends e (fun _ => True) (.ok ()) := trivial

theorem Ends.bind {ε α β : Type} {e : ε → Prop} {a : α → Prop} {b : β → Prop} {r : Except ε α} {f : α → Except ε β}
    (h : Ends e a r) (hf : ∀ x, a x → Ends e b (f x)) : Ends e b (r >>= f) := by
  cases r with
  | ok x => exact hf x h
  | error x => exact h

theorem Ends.ite {ε α : Type} {e : ε → Prop} {a : α → Prop} {p : Prop} [Decidable p] {r t : Except ε α}
    (hr : Ends e a r) (ht : Ends e a t) : Ends e a (if p then r else t) := by
  split
  · exact hr
  · exact ht

/-- Two branches that go on in the same way. -/
theorem Ends.ite_bind {ε α β : Type} {e : ε → Prop} {a : α → Prop} {b : β → Prop} {p : Prop} [Decidable p]
    {r t : Except ε α}
    {f : α → Except ε β} (hr : Ends e a r) (ht : Ends e a t) (hf : ∀ x, a x → Ends e b (f x)) :
    Ends e b (if p then r >>= f else t >>= f) :=
  Ends.ite (hr.bind hf) (ht.bind hf)

/-- The value that an operation has returned meets its predicate. -/
theorem Ends.of_ok {ε α : Type} {e : ε → Prop} {a : α → Prop} {r : Except ε α} {x : α} (h : Ends e a r)
    (hr : r = .ok x) : a x := by
  subst hr
  exact h

/-- The error that an operation has returned meets its predicate. -/
theorem Ends.of_error {ε α : Type} {e : ε → Prop} {a : α → Prop} {r : Except ε α} {x : ε} (h : Ends e a r)
    (hr : r = .error x) : e x := by
  subst hr
  exact h

theorem Ends.foldlM {ε α β : Type} {e : ε → Prop} {p : β → Prop} {f : β → α → Except ε β} {l : List α} {b : β}
    (hb : p b) (hf : ∀ b x, p b → Ends e p (f b x)) : Ends e p (l.foldlM f b) := by
  induction l generalizing b with
  | nil => exact hb
  | cons x l ih => exact (hf b x hb).bind fun b hb => ih hb

/-- The state in which an instruction stops keeps the invariant. -/
def StopFormed (c : Form) : Stop → Prop
  | .fault _ _ _ s => Formed c s
  | .park _ _ _ s => Formed c s
  | .kvRetry _ _ s => Formed c s
  | .wait _ s => Formed c s
  | .reclaim s => Formed c s
  | .hole _ => True

/-- The state in which a command stops keeps the invariant. -/
def EStopFormed (c : Form) : EStop → Prop
  | .cancel s => Formed c s
  | .fault _ s => Formed c s
  | .wait s => Formed c s
  | .hole _ => True

theorem ends_stopWith {cy : Form} {α : Type} {p : α → Prop} {s : State} {c : Cause} (hs : Formed cy s) :
    Ends (StopFormed cy) p (stopWith s c) :=
  hs

theorem ends_stopAt {cy : Form} {α : Type} {p : α → Prop} {s : State} {c : Cause} {addr : Word} (hs : Formed cy s) :
    Ends (StopFormed cy) p (stopAt s c addr) :=
  hs

theorem ends_need {cy : Form} {s : State} {b : Bool} {c : Cause} (hs : Formed cy s) :
    Ends (StopFormed cy) (fun _ => True) (need s b c) := by
  unfold need
  split
  · trivial
  · exact hs

@[simp] theorem formed_keepRecord {c : Form} {s : State} (x : ThreadId) (f : FaultRec) (hs : Formed c s) :
    Formed c (s.keepRecord x f) :=
  ⟨hs.cyc, hs.mem, hs.cellar⟩

@[simp] theorem formed_parkFibre {c : Form} {s : State} (x : ThreadId) (p : Park) (hs : Formed c s) :
    Formed c (s.parkFibre x p) := by
  unfold State.parkFibre
  simp [hs]

@[simp] theorem formed_takeFate {cy : Form} {s : State} (x : ThreadId) (stepped : Option Word) (c : Cause)
    (addr info : Word) (hs : Formed cy s) : Formed cy (s.takeFate x stepped c addr info) := by
  unfold State.takeFate
  extract_lets t c' fate f u rclm
  have hu : Formed cy u := by simp [u, hs]
  cases fate
  case s => exact formed_pendFault _ _ (by simp [hs])
  case w =>
    dsimp only
    exact formed_ite (by simp [hs]) (formed_pendFault _ _ (by simp [hs]))
  case d => simp [hu]
  case f => exact formed_askFreeze _ (formed_sendDebug _ _ (formed_modFibre _ _ (by simp [hs])))
  case p => simp [hs]
  case k => exact formed_pendFault _ _ (by simp [hs])
  case n => exact hs

@[simp] theorem formed_takeStepped {cy : Form} {s : State} (x : ThreadId) (stepped : Option Word) (c : Cause)
    (addr info : Word) (hs : Formed cy s) : Formed cy (s.takeStepped x stepped c addr info) := by
  unfold State.takeStepped
  grind [formed_actsFor, formed_takeFate]

@[simp] theorem formed_takeFault {cy : Form} {s : State} (x : ThreadId) (c : Cause) (addr info : Word)
    (hs : Formed cy s) : Formed cy (s.takeFault x c addr info) := by
  unfold State.takeFault
  simp [hs]

@[simp] theorem formed_takeRetry {c : Form} {s : State} (x : ThreadId) (stepped : Option Word) (cxd : Nat) (addr : Word)
    (hs : Formed c s) : Formed c (s.takeRetry x stepped cxd addr) := by
  unfold State.takeRetry
  grind [formed_keepRecord, formed_modFibre, formed_parkFibre, formed_setCx, formed_takeFate, formed_unpark]

@[simp] theorem formed_takeKvRetry {c : Form} {s : State} (x : ThreadId) (stepped : Option Word) (cxd : Nat)
    (addr : Word) (hs : Formed c s) : Formed c (s.takeKvRetry x stepped cxd addr) := by
  unfold State.takeKvRetry
  grind [formed_actsFor, formed_takeRetry]

@[simp] theorem formed_parkStepped {c : Form} {s : State} (x : ThreadId) (p : Park) (stepped : Bool)
    (hs : Formed c s) : Formed c (s.parkStepped x p stepped) := by
  unfold State.parkStepped
  dsimp only
  (repeat' split) <;> simp +contextual [hs, formed_foldl, formed_ite]

@[simp] theorem formed_takeStop {c : Form} {s : State} (x : ThreadId) (f : StepStop) (hs : Formed c s) :
    Formed c (s.takeStop x f) := by
  unfold State.takeStop
  split <;> simp [hs]

@[simp] theorem formed_holdStop {c : Form} {s : State} (x : ThreadId) (f : StepStop) (hs : Formed c s) :
    Formed c (s.holdStop x f) :=
  ⟨hs.cyc, hs.mem, hs.cellar⟩

@[simp] theorem formed_stop {c : Form} {s : State} (f : StepStop) (hs : Formed c s) : Formed c (s.stop f) := by
  unfold State.stop
  split <;> simp [hs]

@[simp] theorem formed_holdThread {c : Form} {s : State} (x : ThreadId) (h : Hold) (hs : Formed c s) :
    Formed c (s.holdThread x h) := by
  unfold State.holdThread
  simp [hs]

theorem ends_reclaimPoint {c : Form} {s : State} (hs : Formed c s) :
    Ends (StopFormed c) (fun _ => True) (reclaimPoint s) := by
  unfold reclaimPoint
  split
  · split
    · exact hs
    · trivial
  · trivial

@[simp] theorem formed_wakeCounter {c : Form} {s : State} (h : Word) (hs : Formed c s) :
    Formed c (s.wakeCounter h) := by
  unfold State.wakeCounter
  (repeat' split) <;> simp [hs]

@[simp] theorem formed_resume {c : Form} {s : State} (h : Word) (hs : Formed c s) : Formed c (s.resume h) := by
  unfold State.resume
  (repeat' split) <;> simp [hs]

@[simp] theorem formed_doneFibre {c : Form} {s : State} (h : Word) (hs : Formed c s) : Formed c (s.doneFibre h) := by
  unfold State.doneFibre
  grind [formed_endFibre, formed_futurePending, formed_modFibre, formed_modFuture, formed_queueReclaim, formed_wakeCont,
    formed_wakeCounter]

@[simp] theorem formed_dispose {c : Form} {s : State} (h : Word) (d : Nat) (hs : Formed c s) :
    Formed c (s.dispose h d) := by
  unfold State.dispose
  grind [formed_doneFibre, formed_freeMessage, formed_freezeFor, formed_leftUnsettled, formed_modFibre,
    formed_modFuture, formed_setRclm, formed_unpark, formed_wakeWaiters]

@[simp] theorem formed_putG {c : Form} {s : State} (d : BitVec 5) (x : Word) (hs : Formed c s) :
    Formed c (s.putG d x) :=
  ⟨hs.cyc, hs.mem, hs.cellar⟩

@[simp] theorem formed_putP {c : Form} {s : State} (d : BitVec 3) (b : Bool) (hs : Formed c s) :
    Formed c (s.putP d b) :=
  ⟨hs.cyc, hs.mem, hs.cellar⟩

theorem ends_needPrivilege {c : Form} {s : State} (hs : Formed c s) :
    Ends (StopFormed c) (fun _ => True) (needPrivilege s) := by
  exact ends_need hs

@[simp] theorem formed_setScopeCopy {cy : Form} {s : State} (r : BitVec 16) (sc : BitVec 4) (c : ScopeCopy)
    (hs : Formed cy s) : Formed cy (s.setScopeCopy r sc c) := by
  unfold State.setScopeCopy
  simp [hs]

theorem ends_useScope {c : Form} {s : State} {sc : BitVec 4} (hs : Formed c s) :
    Ends (StopFormed c) (fun _ => True) (useScope s sc) := by
  unfold useScope
  split
  · trivial
  · dsimp only
    split
    · trivial
    · exact hs

theorem ends_useScopeAt {c : Form} {s : State} {va : Word} {sc : BitVec 4} (hs : Formed c s) :
    Ends (StopFormed c) (fun _ => True) (useScopeAt s va sc) := by
  have h := ends_useScope (sc := sc) hs
  unfold useScopeAt
  split
  · rename_i hr
    exact h.of_error hr
  · exact h

theorem ends_lookup {c : Form} {s : State} {t : BitVec 10} {r : BitVec 16} {va : Nat} (hs : Formed c s) :
    Ends (fun x => Formed c x.2) (fun x => Formed c x.1) (s.lookup t r va) := by
  unfold State.lookup
  extract_lets q
  split
  · simp [hs]
  · split <;> simp [hs]

theorem ends_translate {c : Form} {s : State} {t : BitVec 10} {r : BitVec 16} {who : List Word} {va : Word} {n : Nat}
    {k : Kind} (hs : Formed c s) :
    Ends (fun x => Formed c x.2) (fun x => Formed c x.1) (s.translate t r who va n k) := by
  unfold State.translate
  split
  · exact hs
  · have h := ends_lookup (t := t) (r := r) (va := va.toNat) hs
    split
    · exact h.of_error ‹_›
    · have h := h.of_ok ‹_›
      split <;> exact h

theorem ends_arrayCheck {c : Form} {s : State} {pa n : Nat} {k : Kind} (hs : Formed c s) :
    Ends (fun x => Formed c x.2) (fun _ => True) (s.arrayCheck pa n k) := by
  unfold State.arrayCheck
  dsimp only
  (repeat' split) <;> first | trivial | exact hs

@[simp] theorem formed_setBlock {c : Form} {s : State} (pa : Nat) (b : Block) (hs : Formed c s) :
    Formed c (s.setBlock pa b) :=
  ⟨hs.cyc, hs.mem, hs.cellar⟩

theorem ends_residency {c : Form} {s : State} {r : BitVec 16} {e : RangeEntry} {va n : Nat} (hs : Formed c s) :
    Ends (fun x => Formed c x.1) (fun _ => True) (s.residency r e va n) := by
  unfold State.residency
  split
  · trivial
  · dsimp only
    split
    · trivial
    · exact formed_foldl hs fun s b h => by simp [h]

@[simp] theorem formed_acquire {c : Form} {s : State} (x : Sets) (hs : Formed c s) : Formed c (s.acquire x) :=
  ⟨hs.cyc, hs.mem, hs.cellar⟩

@[simp] theorem formed_updateL1 {c : Form} {s : State} (t : BitVec 10) (pa : Nat) (bs : List Byte)
    (hs : Formed c s) : Formed c (s.updateL1 t pa bs) :=
  ⟨hs.cyc, hs.mem, hs.cellar⟩

@[simp] theorem formed_dropBoth {c : Form} {s : State} (t : BitVec 10) (pa qa : Nat) (hs : Formed c s) :
    Formed c (s.dropBoth t pa qa) :=
  ⟨hs.cyc, hs.mem, hs.cellar⟩

@[simp] theorem formed_fillL1 {c : Form} {s : State} (t : BitVec 10) (pa qa : Nat) (hs : Formed c s) :
    Formed c (s.fillL1 t pa qa) := by
  unfold State.fillL1
  grind [formed_dropBoth, formed_modTile, formed_pick]

theorem ends_causeAt {c : Form} {α : Type} {p : α → Prop} {va : Word} {r : Except (Cause × State) α}
    (h : Ends (fun x => Formed c x.2) p r) : Ends (StopFormed c) p (causeAt va r) := by
  cases r with
  | ok x => exact h
  | error x => exact h

theorem ends_checkMapped {c : Form} {s : State} {va : Word} {n : Nat} {kinds : List Kind} (hs : Formed c s) :
    Ends (StopFormed c) (fun x => Formed c x.1) (checkMapped s va n kinds) := by
  unfold checkMapped
  refine Ends.bind (a := fun x => Formed c x.1) (Ends.foldlM hs fun x k hx => ?_) fun ⟨s, e⟩ hs => ?_
  · refine (ends_causeAt (ends_translate hx)).bind fun ⟨s, e⟩ hs => ?_
    exact (ends_causeAt (ends_arrayCheck hs)).bind fun _ _ => hs
  · cases e with
    | none => trivial
    | some e =>
      dsimp only
      split
      · trivial
      · exact hs

theorem ends_checkResident {c : Form} {s : State} {va : Word} {e : RangeEntry} {n : Nat} (hs : Formed c s) :
    Ends (StopFormed c) (fun _ => True) (checkResident s va e n) := by
  have h := ends_residency (r := s.self.region) (e := e) (va := va.toNat) (n := n) hs
  unfold checkResident
  split
  · trivial
  · exact h.of_error ‹_›

theorem ends_checkAccess {c : Form} {s : State} {va : Word} {n : Nat} {kinds : List Kind} {store held : Bool}
    (hs : Formed c s) :
    Ends (StopFormed c) (fun x => Formed c x.1) (checkAccess s va n kinds store held) := by
  unfold checkAccess
  refine (ends_checkMapped hs).bind fun ⟨s, e, pa⟩ hs => ?_
  dsimp only
  split
  · exact hs
  · exact (ends_checkResident hs).bind fun _ _ => hs

theorem ends_checkAligned {c : Form} {s : State} {va : Word} {n : Nat} (hs : Formed c s) :
    Ends (StopFormed c) (fun _ => True) (checkAligned s va n) := by
  unfold checkAligned
  split
  · trivial
  · exact hs

theorem ends_checkPoison {c : Form} {s : State} {va : Word} {pa n : Nat} (hs : Formed c s) :
    Ends (StopFormed c) (fun _ => True) (checkPoison s va pa n) := by
  unfold checkPoison
  split
  · trivial
  · exact ends_stopAt (by simp [hs])

@[simp] theorem formed_volPoint {c : Form} {s : State} (e : RangeEntry) (hs : Formed c s) :
    Formed c (s.volPoint e) := by
  unfold State.volPoint
  split <;> simp [hs]

theorem ends_loadRead {c : Form} {s : State} {va : Word} {e : RangeEntry} {pa n : Nat} (hs : Formed c s) :
    Ends (StopFormed c) (fun x => Formed c x.1) (loadRead s va e pa n) := by
  unfold loadRead
  split
  · extract_lets s1 qa
    have h1 : Formed c s1 := by simp [s1, hs]
    exact (ends_checkPoison h1).bind fun _ _ => by simp [h1]
  · split
    · exact hs
    · extract_lets s1 qa bs s2
      have h1 : Formed c s1 := by simp [s1, hs]
      have h2 : Formed c s2 := formed_ite (by simp [h1]) (by simp [h1])
      exact (ends_checkPoison h1).bind fun _ _ => by simp [h2]

theorem ends_loadPlain {c : Form} {s : State} {va : Word} {e : RangeEntry} {pa n : Nat} (hs : Formed c s) :
    Ends (StopFormed c) (fun x => Formed c x.1) (loadPlain s va e pa n) := by
  unfold loadPlain
  exact (ends_loadRead hs).bind fun ⟨t, bs⟩ ht => formed_ite (by simp [show Formed c t from ht]) ht

theorem ends_loadHome {c : Form} {s : State} {va : Word} {pa n : Nat} {k : WKind} (hs : Formed c s) :
    Ends (StopFormed c) (fun x => Formed c x.1) (loadHome s va pa n k) := by
  unfold loadHome
  extract_lets s1 qa bs
  have h1 : Formed c s1 := by simp [s1, hs]
  exact (ends_checkPoison h1).bind fun _ _ => formed_consumeOnce _ _ (by simp [h1])

theorem ends_loadHomeSpan {c : Form} {s : State} {va : Word} {e : RangeEntry} {n : Nat} {k : WKind}
    (hs : Formed c s) :
    Ends (StopFormed c) (fun x => Formed c x.1) (loadHomeSpan s va e n k) := by
  unfold loadHomeSpan
  split
  · exact hs
  · exact Ends.foldlM (formed_volPoint e hs) fun x q hx => (ends_loadHome hx).bind fun _ hs => hs

@[simp] theorem formed_issueStore {c : Form} {s : State} (va : Word) (pa : Nat) (bs : List Byte) (vol : Bool)
    (sets : Option Sets) (hs : Formed c s) : Formed c (issueStore s va pa bs vol sets) := by
  unfold issueStore
  extract_lets s1 t
  have h1 : Formed c s1 := by
    refine formed_dropForwarded _ _ _ (formed_updateL1 _ _ _ ?_)
    exact formed_ite (by simp [hs]) hs
  split <;> simp [h1]

@[simp] theorem formed_storePlain {c : Form} {s : State} (va : Word) (e : RangeEntry) (pa : Nat) (bs : List Byte)
    (hs : Formed c s) : Formed c (storePlain s va e pa bs) := by
  unfold storePlain
  simp [hs]

theorem ends_loadSpan {c : Form} {s : State} {va : Word} {e : RangeEntry} {n : Nat} (hs : Formed c s) :
    Ends (StopFormed c) (fun x => Formed c x.1) (loadSpan s va e n) := by
  unfold loadSpan
  split
  · exact hs
  · exact Ends.foldlM hs fun x q hx => (ends_loadPlain hx).bind fun _ hs => hs

@[simp] theorem formed_storeSpan {c : Form} {s : State} (va : Word) (e : RangeEntry) (bs : List Byte)
    (hs : Formed c s) : Formed c (storeSpan s va e bs) := by
  unfold storeSpan
  (repeat' split) <;> simp +contextual [hs, formed_foldl, formed_ite]

theorem ends_loadChecked {c : Form} {s : State} {va : Word} {n align : Nat} (hs : Formed c s) :
    Ends (StopFormed c) (fun x => Formed c x.1) (loadChecked s va n align) := by
  unfold loadChecked
  refine (ends_checkAligned hs).bind fun _ _ => ?_
  exact (ends_checkAccess hs).bind fun ⟨s, e, pa⟩ hs => ends_loadSpan hs

theorem ends_checkHeld {c : Form} {s : State} {allowed : Bool} (hs : Formed c s) :
    Ends (StopFormed c) (fun _ => True) (checkHeld s allowed) := by
  unfold checkHeld
  split
  · trivial
  · exact hs

theorem ends_readPayload {c : Form} {s : State} {src : Word} {n : Nat} (hs : Formed c s) :
    Ends (StopFormed c) (fun x => Formed c x.1) (readPayload s src n) := by
  unfold readPayload
  split
  · exact hs
  · refine (ends_causeAt (ends_translate hs)).bind fun ⟨s, e⟩ hs => ?_
    dsimp only
    split
    · exact ends_stopAt hs
    · refine (ends_checkMapped hs).bind fun ⟨s, e, pa⟩ hs => ?_
      have h := ends_residency (r := s.self.region) (e := e) (va := src.toNat) (n := n) hs
      dsimp only
      split
      · exact ends_loadHomeSpan hs
      · exact h.of_error ‹_›

@[simp] theorem formed_emit {c : Form} {s : State} (t : BitVec 10) (r : BitVec 16) (hs : Formed c s) :
    Formed c (s.emit t r).2 := by
  unfold State.emit
  simp [hs]

@[simp] theorem formed_sendMessage {c : Form} {s : State} (t : BitVec 10) (r : BitVec 16) (dest arg xform : Word)
    (payload : List Byte) (sets : Option Sets) (hs : Formed c s) :
    Formed c (s.sendMessage t r dest arg xform payload sets) := by
  unfold State.sendMessage
  grind [formed_emit, formed_post, formed_tileId]

theorem ends_flushEntry {c : Form} {s : State} {e : SendEntry} (hs : Formed c s) :
    Ends (StopFormed c) (Formed c) (flushEntry s e) := by
  unfold flushEntry
  extract_lets s1 t r
  have h1 : Formed c s1 := by simp [s1, hs]
  split
  · simp [h1]
  · exact (ends_readPayload h1).bind fun ⟨s, bs⟩ hs => by simp [show Formed c s from hs]

theorem ends_flushList {c : Form} {l : List SendEntry} {s : State} (hs : Formed c s) :
    Ends (StopFormed c) (Formed c) (flushList l s) := by
  induction l generalizing s with
  | nil => exact hs
  | cons e l ih => exact (ends_flushEntry hs).bind fun s hs => ih (by simp [hs])

theorem ends_flush {c : Form} {s : State} (hs : Formed c s) : Ends (StopFormed c) (Formed c) (flush s) := by
  exact ends_flushList hs

theorem ends_buffer {c : Form} {s : State} {e : SendEntry} (hs : Formed c s) :
    Ends (StopFormed c) (Formed c) (buffer s e) := by
  unfold buffer
  extract_lets append
  have happend : ∀ s, Formed c s → Ends (StopFormed c) (Formed c) (append s) := fun s hs => by simp [append, hs]
  split
  · exact (ends_flush hs).bind happend
  · exact happend s hs

@[simp] theorem formed_endRelease {c : Form} {s : State} (hs : Formed c s) : Formed c (s.endRelease) := by
  unfold State.endRelease
  dsimp only
  (repeat' split) <;> simp +contextual [hs, formed_foldl, formed_ite]

theorem ends_Deferred_raise {c : Form} {d : Deferred} {s : State} (hs : Formed c s) :
    Ends (StopFormed c) (fun _ => True) (Deferred.raise d s) := by
  unfold Deferred.raise
  split <;> exact hs

theorem ends_checkDeferred {c : Form} {s : State} {p : Deferred → Bool} (hs : Formed c s) :
    Ends (StopFormed c) (fun _ => True) (checkDeferred s p) := by
  unfold checkDeferred
  split
  · exact ends_Deferred_raise hs
  · trivial

@[simp] theorem formed_watchdog {c : Form} {s : State} (x : ThreadId) (hs : Formed c s) :
    Formed c (s.watchdog x) := by
  unfold State.watchdog
  dsimp only
  split
  · split <;> simp [hs]
  · exact hs

@[simp] theorem formed_lastFaults {c : Form} {s : State} (t : BitVec 10) (r : BitVec 16) (hs : Formed c s) :
    Formed c (s.lastFaults t r) := by
  unfold State.lastFaults
  exact formed_foldl hs fun s a h => formed_ite (by simp [h]) h

end Sys2Proof.Machine
end

section
/-! SUPPORT. Loads, unloads and switches of regions (R57, R223), and freezes, cuts and thaws (R218 to R222, R408). -/

namespace Sys2Proof.Machine

open Sys2Proof.Claims

theorem regionLoads (s : State) (q : LoadRequest) :
    (∀ t, s.loadRegion q = .ok t → Does (.regionLoad q) s (t.loadAnswer (some 0))) ∧
    (s.loadRegion q = .error .noRegion → Does (.regionLoad q) s (s.loadAnswer (some 5))) ∧
    (s.loadRegion q = .error .refused → Does (.regionLoad q) s (s.loadAnswer (some (Config.loadRefusal q.rcb)))) ∧
    (∀ d, s.loadRegion q = .error (.noRoom d false) → Does (.regionLoad q) s
      ((s.modDie d fun y => { y with refused := y.refused + 1 }).loadAnswer (some (Config.loadRefusal q.rcb)))) ∧
    (∀ d, s.loadRegion q = .error (.noRoom d true) → Does (.regionLoad q) s
      (((s.refusedBatch d).modDie d fun y => { y with refused := y.refused + 1 }).loadAnswer
        (some (Config.loadRefusal q.rcb)))) ∧
    (∀ d k, s.loadRegion q = .error (.later d k) → Does (.regionLoad q) s
      ((s.modDie d fun y => if y.compact.isSome = true then y else
        { y with compact := some (BitVec.ofNat 5 k) }).loadAnswer none)) := by
  refine ⟨fun t h => ?_, fun h => ?_, fun h => ?_, fun d h => ?_, fun d h => ?_, fun d k h => ?_⟩ <;>
    refine congrArg Host.Outcome.next ?_ <;> rw [h] <;> rfl

theorem regionUnloads {s : State} {r : BitVec 16} {x : Region} (hx : s.region? r = some x) (hsaved : x.saved = none) :
    (x.unloading = false → Does (.regionUnload r) s (s.startUnload r)) ∧
    (x.unloading = true → s.quiet r = true → Does (.regionUnload r) s (s.dropRegion r)) := by
  refine ⟨fun h => ?_, fun h hq => ?_⟩ <;> refine congrArg Host.Outcome.next ?_ <;> rw [hx] <;> dsimp only <;>
    rw [if_neg (by simp [hsaved])]
  · rw [if_pos (by simp [h])]
  · rw [if_neg (by simp [h]), if_pos hq]

theorem regionSwitchesOut {s : State} {r : BitVec 16} {x : Region} (hx : s.region? r = some x) (hsaved : x.saved = none)
    (hload : x.unloading = false) (hfrozen : x.frozen = true) :
    Does (.regionSwitchOut r) s ((s.regionTiles r).foldl (fun q y => q.clearTile r y.tile)
      (s.modRegion r fun y => { y with saved := some ((s.regionTiles r).map (s.saveTile r)), scopes := [] })) := by
  refine congrArg Host.Outcome.next ?_
  rw [hx]
  exact if_pos (by simp [hsaved, hload, hfrozen])

theorem regionSwitchesIn {s : State} {r : BitVec 16} {x : Region} {l : List SavedTile} (hx : s.region? r = some x)
    (hsaved : x.saved = some l)
    (hfits : ∀ v ∈ l, ∀ k, (k = match x.tiles.find? (fun y => decide (y.tile = v.tile)) with
      | some y => y.kept
      | none => 0) → s.canTake r k v = true) :
    Does (.regionSwitchIn r) s ((((l.foldl (fun q v => q.restoreTile r v) s).modRegion r fun y =>
      { y with saved := none }).readTable r).thawWaiting r) := by
  refine congrArg Host.Outcome.next ?_
  rw [hx]
  dsimp only
  rw [hsaved]
  exact if_pos (List.all_eq_true.2 fun v hv => hfits v hv _ rfl)

theorem regionMoves : Claims.RegionMoves := fun s =>
  ⟨regionLoads s, fun _ _ hx => ⟨fun hs => (regionUnloads hx hs).1, fun hs => (regionUnloads hx hs).2,
    fun hs => regionSwitchesOut hx hs, fun _ hs => regionSwitchesIn hx hs⟩⟩

/-! Freezes, cuts and thaws. -/

theorem State.drained_iff (s : State) (t : BitVec 10) (r : BitVec 16) :
    s.drained t r = true ↔ (∀ c ∈ (s.tile t).cmds, c.region ≠ r ∨ s.awaitsPartner t c = true) ∧
      ∀ a ∈ s.inflight, ¬(a.tile = t ∧ a.region = r) := by
  simp only [State.drained, Bool.and_eq_true, List.all_eq_true, Bool.or_eq_true, decide_eq_true_eq, Bool.not_eq_true',
    Bool.and_eq_false_iff, decide_eq_false_iff_not, Classical.not_and_iff_not_or_not, ne_eq]

/-- A tile whose threads of a region have stopped has stopped too, at a cycle, where nothing of the region is under
way. -/
def State.stopDrained (u : State) (t : BitVec 10) (r : BitVec 16) (cyc : Word) : State :=
  if u.drained t r then u.modCut t r fun c => { c with stopped := true, colour := !c.colour, stopcyc := cyc } else u

/-- TILE_STOP of a region that stops, on a tile of it that has not stopped. -/
theorem State.tileStop_eq {s u : State} {r : BitVec 16} {t : BitVec 10} {x : Region} (hx : s.region? r = some x)
    (hstop : x.stopping = true) (htile : (s.tilesOf r).contains t = true) (hrun : (s.cut t r).stopped = false)
    (hu : (s.lastFaults t r).modTile t (fun y => { y with threads := y.threads.map (Thread.stopFor r) }) = u) :
    s.tileStop t r = u.stopDrained t r u.cyc := by
  subst hu
  rw [State.tileStop, hx]
  exact if_neg (by rw [hstop, hrun, htile]; decide)

/-- The last faults of a tile's threads leave the cycle as it is. -/
theorem State.lastFaults_cyc (s : State) (t : BitVec 10) (r : BitVec 16) : (s.lastFaults t r).cyc = s.cyc :=
  (formed_lastFaults (c := ⟨fun v => v = s.cyc, False⟩) t r ⟨rfl, False.elim, False.elim⟩).cyc

theorem tileStops {s : State} {r : BitVec 16} {t : BitVec 10} {x : Region} (hx : s.region? r = some x) :
    x.stopping = true → (s.tilesOf r).contains t = true → (s.cut t r).stopped = false →
      let u := (s.lastFaults t r).modTile t fun y => { y with threads := y.threads.map (Thread.stopFor r) }
      (u.drained t r = true → Does (.tileStop t r) s (u.modCut t r fun c =>
        { c with stopped := true, colour := !c.colour, stopcyc := s.cyc })) ∧
      (u.drained t r = false → Does (.tileStop t r) s u) := by
  intro hstop htile hrun u
  have hcyc : u.cyc = s.cyc := (State.modTile_cyc _ _ _).trans (State.lastFaults_cyc _ _ _)
  have hexec : s.tileStop t r = u.stopDrained t r s.cyc :=
    (State.tileStop_eq hx hstop htile hrun rfl).trans (congrArg (u.stopDrained t r) hcyc)
  exact ⟨fun h => congrArg Host.Outcome.next (hexec.trans (if_pos h)),
    fun h => congrArg Host.Outcome.next (hexec.trans (if_neg (ne_true_of_eq_false h)))⟩

/-- The regions of a region's group that stop. -/
def State.stoppingGroup (s : State) (r : BitVec 16) : List (BitVec 16) :=
  (s.group r).filter fun k => match s.region? k with
    | some y => y.stopping
    | none => false

/-- The state with the answer to a mailbox FREEZE of one of the regions that have frozen, if it waits for one. -/
def State.answerFreeze (s : State) (group : List (BitVec 16)) : State :=
  match s.hub.freezing with
  | some q =>
    if !s.hub.mbxThaw && group.contains q && s.lastFreeze q then
      (s.modHub fun h => { h with freezing := none }).answer 0 []
    else s
  | none => s

theorem State.cutClose_eq {s : State} {r : BitVec 16} {x y : Region} (hx : s.region? r = some x)
    (hstop : x.stopping = true) (hclose : s.cutCloses (s.stoppingGroup r) = true) {u : State}
    (hu : u = ((s.stoppingGroup r).foldl (fun u k => u.freezeRegion k) s).answerFreeze (s.stoppingGroup r))
    (hy : u.region? r = some y) :
    s.cutClose r = if y.thawing then u.thaw r else u := by
  rw [State.cutClose, hx]
  dsimp only
  refine (if_pos (by rw [hstop]; exact hclose)).trans ?_
  show (if (match (State.answerFreeze _ _).region? r with
      | some y => y.thawing
      | none => false) = true then (State.answerFreeze _ _).thaw r else State.answerFreeze _ _) = _
  subst hu
  erw [hy]
  rfl

theorem State.answerFreeze_spec {f u : State} {group : List (BitVec 16)}
    (h : f.hub.freezing = none ∧ u = f ∨
      (∃ k, f.hub.freezing = some k ∧
        (f.hub.mbxThaw = true ∨ group.contains k = false ∨ f.lastFreeze k = false) ∧ u = f) ∨
      ∃ k, f.hub.freezing = some k ∧ f.hub.mbxThaw = false ∧ group.contains k = true ∧ f.lastFreeze k = true ∧
        u = (f.modHub fun h => { h with freezing := none }).answer 0 []) :
    u = f.answerFreeze group := by
  obtain ⟨hk, rfl⟩ | ⟨k, hk, hno, rfl⟩ | ⟨k, hk, hthaw, hin, hlast, rfl⟩ := h <;> rw [State.answerFreeze, hk] <;>
    dsimp only
  · refine (if_neg ?_).symm
    obtain h | h | h := hno <;> simp only [h] <;> simp
  · exact (if_pos (by simp only [hthaw, hin, hlast]; rfl)).symm

theorem cutCloses {s : State} {r : BitVec 16} {x : Region} (hx : s.region? r = some x) :
    let group := (s.group r).filter fun k => match s.region? k with
       | some y => y.stopping
       | none => false
    x.stopping = true → s.cutCloses group = true →
      let f := group.foldl (fun u k => u.freezeRegion k) s
      ∀ u, (f.hub.freezing = none ∧ u = f ∨
          (∃ k, f.hub.freezing = some k ∧
            (f.hub.mbxThaw = true ∨ group.contains k = false ∨ f.lastFreeze k = false) ∧ u = f) ∨
          ∃ k, f.hub.freezing = some k ∧ f.hub.mbxThaw = false ∧ group.contains k = true ∧ f.lastFreeze k = true ∧
            u = (f.modHub fun h => { h with freezing := none }).answer 0 []) →
        ∀ y, u.region? r = some y →
          (y.thawing = false → Does (.cutClose r) s u) ∧ (y.thawing = true → Does (.cutClose r) s (u.thaw r)) := by
  intro group hstop hclose f u hu y hy
  have hexec := State.cutClose_eq hx hstop hclose (State.answerFreeze_spec hu) hy
  exact ⟨fun h => congrArg Host.Outcome.next (hexec.trans (if_neg (by simp [h]))),
    fun h => congrArg Host.Outcome.next (hexec.trans (if_pos h))⟩

theorem freezeEvents : Claims.FreezeEvents := fun s r q t _ hx =>
  ⟨tileStops hx, s.drained_iff t r, cutCloses hx, fun hq =>
    ⟨congrArg Host.Outcome.next (if_pos hq), congrArg Host.Outcome.next (if_pos hq)⟩⟩

end Sys2Proof.Machine

namespace Sys2Proof.Claims

open Sys2Proof.Machine

/-- Settles O58: loads, unloads and switches by their conditions; stops of tiles, closes of cuts and thaws by the
equations of the events. -/
theorem regionEvents : Obligations.RegionEvents :=
  ⟨regionMoves, freezeEvents⟩

end Sys2Proof.Claims
end


section
/-! SUPPORT. Engine commands, moves, tiers and the range tree keep the invariant. -/

namespace Sys2Proof.Machine

open Sys2Proof.Claims

theorem ends_needClass {c : Form} {s : State} {tag : BitVec 4} {ok : List TagClass} (hs : Formed c s) :
    Ends (StopFormed c) (fun _ => True) (needClass s tag ok) := by
  exact ends_need hs

theorem ends_needAgree {c : Form} {s : State} {expected tag : BitVec 4} (hs : Formed c s) :
    Ends (StopFormed c) (fun _ => True) (needAgree s expected tag) := by
  unfold needAgree
  split
  · trivial
  · exact hs

theorem ends_commandPoint {cy : Form} {s : State} {c : BitVec 2} (hs : Formed cy s) :
    Ends (StopFormed cy) (fun _ => True) (commandPoint s c) := by
  unfold commandPoint
  refine (ends_reclaimPoint hs).bind fun _ _ => ?_
  split
  · trivial
  · exact hs

theorem ends_spanUnder {c : Form} {s : State} {e : RangeEntry} {va n : Nat} {k : Kind} (hs : Formed c s) :
    Ends (fun x => Formed c x.2) (fun x => Formed c x.1) (s.spanUnder e va n k) := by
  unfold State.spanUnder
  extract_lets pa stop len
  have h := ends_arrayCheck (pa := pa) (n := len) (k := k) hs
  split
  · exact h.of_error ‹_›
  · exact hs

theorem ends_firstSpan {c : Form} {s : State} {t : BitVec 10} {r : BitVec 16} {who : List Word} {va n : Nat} {k : Kind}
    (hs : Formed c s) :
    Ends (fun x => Formed c x.2) (fun x => Formed c x.1) (s.firstSpan t r who va n k) := by
  unfold State.firstSpan
  have h := ends_translate (t := t) (r := r) (who := who) (va := wd va) (n := 1) (k := k) hs
  split
  · exact h.of_error ‹_›
  · exact ends_spanUnder (h.of_ok ‹_›)

theorem ends_spansFrom {c : Form} {k : Kind} {m : Nat} {s : State} {va n : Nat} (hs : Formed c s) :
    Ends (StopFormed c) (fun x => Formed c x.1) (spansFrom k m s va n) := by
  induction m generalizing s va n with
  | zero => exact hs
  | succ m ih =>
    unfold spansFrom
    split
    · exact hs
    · refine (ends_causeAt (ends_firstSpan hs)).bind fun ⟨s, x⟩ hs => ?_
      dsimp only
      split
      · trivial
      · exact (ih hs).bind fun _ hs => hs

theorem ends_operand {c : Form} {s : State} {va : Word} {n : Nat} {k : Kind} (hs : Formed c s) :
    Ends (StopFormed c) (fun x => Formed c x.1) (operand s va n k) := by
  exact ends_spansFrom hs

theorem ends_localOperand {c : Form} {s : State} {va : Word} {n : Nat} {k : Kind} (hs : Formed c s) :
    Ends (StopFormed c) (fun x => Formed c x.1) (localOperand s va n k) := by
  unfold localOperand
  refine (ends_operand hs).bind fun ⟨s, l⟩ hs => ?_
  dsimp only
  split
  · exact hs
  · exact ends_stopAt hs

theorem ends_matrixOperand {c : Form} {s : State} {va : Word} {n : Nat} {k : Kind} (hs : Formed c s) :
    Ends (StopFormed c) (fun x => Formed c x.1) (matrixOperand s va n k) := by
  unfold matrixOperand
  refine (ends_causeAt (ends_translate hs)).bind fun ⟨s, e⟩ hs => ?_
  refine (ends_causeAt (ends_arrayCheck hs)).bind fun _ _ => ?_
  split
  · exact hs
  · exact ends_stopAt hs

theorem ends_checkWrites {c : Form} {s : State} {l : List Span} (hs : Formed c s) :
    Ends (StopFormed c) (fun _ => True) (checkWrites s l) := by
  exact ends_checkHeld hs

theorem ends_readDesc {c : Form} {s : State} {va : Word} (hs : Formed c s) :
    Ends (StopFormed c) (fun x => Formed c x.1) (readDesc s va) := by
  unfold readDesc
  refine (ends_checkAligned hs).bind fun _ _ => ?_
  exact (ends_localOperand hs).bind fun _ hs => ends_loadChecked hs

@[simp] theorem formed_enterCmd {cy : Form} {s : State} (c : Cmd) (hs : Formed cy s) : Formed cy (s.enterCmd c) := by
  unfold State.enterCmd
  grind [formed_modSelf, formed_modTile, formed_releaseAll]

@[simp] theorem formed_modCmd {cy : Form} {s : State} (t : BitVec 10) (c : Cmd) (f : Cmd → Cmd) (hs : Formed cy s) :
    Formed cy (s.modCmd t c f) := by
  unfold State.modCmd
  simp [hs]

theorem ends_cmdSpan {cy : Form} {s : State} {t : BitVec 10} {c : Cmd} {va n : Nat} {k : Kind} (hs : Formed cy s) :
    Ends (fun x => Formed cy x.2) (fun x => Formed cy x.1) (s.cmdSpan t c va n k) := by
  unfold State.cmdSpan
  extract_lets w
  split
  · exact ends_spanUnder hs
  · have h := ends_firstSpan (t := t) (r := c.region) (who := c.who) (va := va) (n := n) (k := k) hs
    split
    · exact h.of_error ‹_›
    · have h := h.of_ok ‹_›
      split
      · exact formed_modCmd _ _ _ h
      · exact h

@[simp] theorem formed_pokeE {c : Form} {s : State} (pa : Nat) (bs : List EByte) (hs : Formed c s) :
    Formed c (s.pokeE pa bs) := by
  unfold State.pokeE
  simp +contextual [hs, formed_foldl, formed_ite]

@[simp] theorem formed_pokeAfter {c : Form} {s : State} (pa : Nat) (old : List Bool) (bs : List EByte)
    (hs : Formed c s) : Formed c (s.pokeAfter pa old bs) := by
  unfold State.pokeAfter
  simp [hs]

@[simp] theorem formed_setTrail {cy : Form} {s : State} (t : BitVec 10) (c : Cmd) (at' : Nat) (marks : List Bool)
    (hs : Formed cy s) : Formed cy (s.setTrail t c at' marks) := by
  unfold State.setTrail
  simp [hs]

@[simp] theorem formed_noteOnce {cy : Form} {s : State} (t : BitVec 10) (c : Cmd) (pa n : Nat) (hs : Formed cy s) :
    Formed cy (s.noteOnce t c pa n) := by
  unfold State.noteOnce
  simp +contextual [hs, formed_foldl, formed_ite]

theorem ends_blocksReady {cy : Form} {t : BitVec 10} {c : Cmd} {k : Kind} {m : Nat} {s : State} {va n : Nat}
    (hs : Formed cy s) : Ends (EStopFormed cy) (Formed cy) (blocksReady t c k m s va n) := by
  induction m generalizing s va n with
  | zero => exact hs
  | succ m ih =>
    unfold blocksReady
    split
    · exact hs
    · have h := ends_cmdSpan (t := t) (c := c) (va := va) (n := n) (k := k) hs
      split
      · exact h.of_error ‹_›
      · rename_i s x hr
        have hs := h.of_ok hr
        have hres := ends_residency (r := c.region) (e := x.entry) (va := x.va) (n := x.len) hs
        split
        · exact hres.of_error ‹_›
        · exact ih hs

theorem ends_ready {cy : Form} {t : BitVec 10} {c : Cmd} {k : Kind} {va : Word} {n : Nat} {s : State}
    (hs : Formed cy s) :
    Ends (EStopFormed cy) (Formed cy) (ready t c k va n s) := by
  exact ends_blocksReady hs

theorem ends_readPieces {cy : Form} {t : BitVec 10} {c : Cmd} {m : Nat} {s : State} {va n : Nat} (hs : Formed cy s) :
    Ends (EStopFormed cy) (fun x => Formed cy x.1) (readPieces t c m s va n) := by
  induction m generalizing s va n with
  | zero => exact hs
  | succ m ih =>
    unfold readPieces
    split
    · exact hs
    · have h := ends_cmdSpan (t := t) (c := c) (va := va) (n := n) (k := .read) hs
      split
      · exact h.of_error ‹_›
      · rename_i s x hr
        extract_lets s1 pa bs s2
        have h1 : Formed cy s1 := by simp [s1, show Formed cy s from h.of_ok hr]
        have h2 : Formed cy s2 := formed_watched _ _ _ _ (by simp [h1])
        split
        · trivial
        · exact (ih h2).bind fun _ hs => hs

theorem ends_readSome {cy : Form} {t : BitVec 10} {c : Cmd} {va : Word} {n : Nat} {s : State} (hs : Formed cy s) :
    Ends (EStopFormed cy) (fun x => Formed cy x.1) (readSome t c va n s) := by
  exact ends_readPieces hs

theorem ends_readAll {cy : Form} {t : BitVec 10} {c : Cmd} {va : Word} {n : Nat} {s : State} (hs : Formed cy s) :
    Ends (EStopFormed cy) (fun x => Formed cy x.1) (readAll t c va n s) := by
  unfold readAll
  refine (ends_readSome hs).bind fun ⟨s, l, ok⟩ hs => ?_
  dsimp only
  split <;> exact hs

@[simp] theorem formed_dropLines {c : Form} {s : State} (t : BitVec 10) (pa n : Nat) (hs : Formed c s) :
    Formed c (s.dropLines t pa n) :=
  ⟨hs.cyc, hs.mem, hs.cellar⟩

@[simp] theorem formed_writeSpan {cy : Form} {s : State} (t : BitVec 10) (c : Cmd) (x : Span) (bs : List EByte)
    (hs : Formed cy s) : Formed cy (s.writeSpan t c x bs) := by
  unfold State.writeSpan
  extract_lets s1 pa old s2
  have h1 : Formed cy s1 := by simp [s1, hs]
  have h2 : Formed cy s2 := formed_watched _ _ _ _ (formed_dropLines _ _ _ (formed_dropLines _ _ _ (by simp [h1])))
  simp [h2]

theorem formed_cmdPieces {cy : Form} (t : BitVec 10) (c : Cmd) (k : Kind) (m : Nat) {s : State} (va n : Nat)
    (hs : Formed cy s) : Formed cy (cmdPieces t c k m s va n).1 := by
  induction m generalizing s va n with
  | zero => exact hs
  | succ m ih =>
    unfold cmdPieces
    split
    · exact hs
    · have h := ends_cmdSpan (t := t) (c := c) (va := va) (n := n) (k := k) hs
      split
      · exact h.of_error ‹_›
      · exact ih _ _ (h.of_ok ‹_›)

theorem ends_writePieces {cy : Form} {t : BitVec 10} {c : Cmd} {m : Nat} {s : State} {va : Nat} {bs : List EByte}
    (hs : Formed cy s) : Ends (EStopFormed cy) (Formed cy) (writePieces t c m s va bs) := by
  induction m generalizing s va bs with
  | zero => exact hs
  | succ m ih =>
    unfold writePieces
    split
    · exact hs
    · have h := ends_cmdSpan (t := t) (c := c) (va := va) (n := bs.length) (k := .write) hs
      split
      · exact h.of_error ‹_›
      · rename_i s x hr
        have hs : Formed cy s := h.of_ok hr
        split
        · exact hs
        · split
          · trivial
          · exact ih (by simp [hs])

theorem ends_writeAll {cy : Form} {t : BitVec 10} {c : Cmd} {va : Word} {bs : List EByte} {s : State}
    (hs : Formed cy s) :
    Ends (EStopFormed cy) (Formed cy) (writeAll t c va bs s) := by
  exact ends_writePieces hs

@[simp] theorem formed_setRegBytes {c : Form} {s : State} (t : BitVec 10) (off : Nat) (bs : List EByte)
    (hs : Formed c s) : Formed c (s.setRegBytes t off bs) := by
  unfold State.setRegBytes
  simp [hs]

@[simp] theorem formed_finishCmd {cy : Form} {s : State} (t : BitVec 10) (c : Cmd) (ok : Bool) (hs : Formed cy s) :
    Formed cy (s.finishCmd t c ok) := by
  unfold State.finishCmd
  extract_lets s1 s2 left s3 s4 s5
  have h1 : Formed cy s1 := formed_foldl hs fun s l h => by simp [h]
  have h2 : Formed cy s2 := by simp [s2, h1]
  have h3 : Formed cy s3 := by simp [s3, h2]
  have h4 : Formed cy s4 := formed_ite (by simp [h3]) h3
  have h5 : Formed cy s5 := formed_ite (by simp [h4]) h4
  exact formed_ite (by simp [h5]) h5

@[simp] theorem formed_enterCancelled {cy : Form} {s : State} (c : Cmd) (hs : Formed cy s) :
    Formed cy (s.enterCancelled c) := by
  unfold State.enterCancelled
  simp [hs]

@[simp] theorem formed_defer {cy : Form} {s : State} (t : BitVec 10) (c : Cmd) (d : Deferred) (hs : Formed cy s) :
    Formed cy (s.defer t c d) := by
  unfold State.defer
  split <;> simp [hs]

@[simp] theorem formed_setWp {cy : Form} {s : State} (t : BitVec 10) (c : Cmd) (wp : Word) (hs : Formed cy s) :
    Formed cy (s.setWp t c wp) := by
  unfold State.setWp
  simp [hs]

@[simp] theorem formed_retable {c : Form} {s : State} (q : BitVec 16) (x : Sets) (e : RangeEntry) (hs : Formed c s) :
    Formed c (s.retable q x e) :=
  ⟨hs.cyc, hs.mem, hs.cellar⟩

@[simp] theorem formed_dropThose {c : Form} {s : State} (q : BitVec 16) (x : Sets) (issuer : BitVec 10)
    (p : RangeEntry → Bool) (hs : Formed c s) : Formed c (s.dropThose q x issuer p) := by
  unfold State.dropThose
  simp [hs]

@[simp] theorem formed_dropEntries {c : Form} {s : State} (q : BitVec 16) (x : Sets) (issuer : BitVec 10) (lo hi : Nat)
    (hs : Formed c s) : Formed c (s.dropEntries q x issuer lo hi) := by
  unfold State.dropEntries
  simp [hs]

@[simp] theorem formed_putEntry {c : Form} {s : State} (r : BitVec 16) (leaf : Nat) (x : Sets) (e : RangeEntry)
    (hs : Formed c s) : Formed c (s.putEntry r leaf x e) := by
  unfold State.putEntry
  simp [hs]

@[simp] theorem formed_startMove {c : Form} {s : State} (l : Leaf) (m : Move) (hs : Formed c s) :
    Formed c (s.startMove l m) := by
  unfold State.startMove
  simp [hs]

@[simp] theorem formed_rekey {c : Form} {s : State} (m : Move) (lo hi : Nat) (hs : Formed c s) :
    Formed c (s.rekey m lo hi) :=
  ⟨hs.cyc, hs.mem, hs.cellar⟩

@[simp] theorem formed_placeRecords {c : Form} {s : State} (m : Move) (lo hi : Nat) (hs : Formed c s) :
    Formed c (s.placeRecords m lo hi) := by
  unfold State.placeRecords
  dsimp only
  (repeat' split) <;> simp +contextual [hs, formed_foldl, formed_ite]

@[simp] theorem formed_dropRecords {c : Form} {s : State} (p : ForwardRec → Bool) (hs : Formed c s) :
    Formed c (s.dropRecords p) :=
  ⟨hs.cyc, hs.mem, hs.cellar⟩

@[simp] theorem formed_clearRecords {c : Form} {s : State} (m : Move) (hs : Formed c s) :
    Formed c (s.clearRecords m) :=
  ⟨hs.cyc, hs.mem, hs.cellar⟩

@[simp] theorem formed_copyStep {c : Form} {s : State} (m : Move) (lo hi : Nat) (hs : Formed c s) :
    Formed c (s.copyStep m lo hi) := by
  unfold State.copyStep
  grind [formed_answered, formed_consumeOnce, formed_dropLines, formed_normalise, formed_pokeE, formed_rekey,
    formed_watched]

@[simp] theorem formed_unparkContext {c : Form} {s : State} (cxd : Nat) (hs : Formed c s) :
    Formed c (s.unparkContext cxd) := by
  unfold State.unparkContext
  exact formed_foldl hs fun s a h => by simp [h]

@[simp] theorem formed_startMoves {c : Form} {s : State} (l : List (Leaf × Move)) (hs : Formed c s) :
    Formed c (s.startMoves l) := by
  unfold State.startMoves
  exact formed_foldl hs fun s a h => by simp [h]

/-- The state of a grant of a run keeps the invariant. -/
def GrantFormed (c : Form) : Grant → Prop
  | .given _ s => Formed c s
  | .later s => Formed c s
  | .refused s => Formed c s

theorem formed_orCompact {c : Form} {s : State} {d : BitVec 2} {k : Nat} (hs : Formed c s) :
    GrantFormed c (s.orCompact d k) := by
  unfold State.orCompact
  split
  · exact formed_modDie _ _ hs
  · exact formed_refuseRun _ hs

theorem formed_growRun {c : Form} {s : State} {d : BitVec 2} {k : Nat} (hs : Formed c s) :
    GrantFormed c (s.growRun d k) := by
  unfold State.growRun
  split
  · exact formed_takeRun d k hs _ _ ‹_›
  · extract_lets s1
    have h1 : Formed c s1 := by simp [s1, hs]
    split
    · exact formed_takeRun d k h1 _ _ ‹_›
    · exact formed_orCompact h1

theorem ends_growSlab {cy : Form} {s : State} {c : Nat} (hs : Formed cy s) :
    Ends (Formed cy) (Formed cy) (s.growSlab c) := by
  unfold State.growSlab
  extract_lets r k size ranges
  clear_value r k size ranges
  split
  · refine Ends.ite (ends_error.2 hs) (Ends.ite (ends_ok.2 (formed_setCx _ _ _ _ _ hs)) ?_)
    have h := formed_growRun (d := dieOf (ctxHome c)) (k := k) hs
    split <;> rename_i hr <;> rw [hr] at h
    · exact ends_error.2 h
    · exact ends_ok.2 (formed_setCx _ _ _ _ _ h)
    · exact ends_ok.2 (formed_startMoves _ (formed_setCx _ _ _ _ _ h))
  · exact ends_error.2 hs

@[simp] theorem formed_resumeGrowths {c : Form} {s : State} (hs : Formed c s) : Formed c (s.resumeGrowths) := by
  unfold State.resumeGrowths
  extract_lets waits
  refine formed_foldl hs fun s x hs => ?_
  have h := ends_growSlab (c := x) hs
  split
  · exact h.of_ok ‹_›
  · exact formed_unparkContext _ (formed_setCx _ _ _ _ _ (h.of_error ‹_›))

@[simp] theorem formed_moveSlab {c : Form} {s : State} (old new : List (BitVec 2 × Run)) (hs : Formed c s) :
    Formed c (s.moveSlab old new) :=
  ⟨hs.cyc, hs.mem, hs.cellar⟩

@[simp] theorem formed_moved {c : Form} {s : State} (m : Move) (hs : Formed c s) : Formed c (s.moved m) := by
  unfold State.moved
  grind [formed_finishCmd, formed_modCtxSlot, formed_setCx, formed_unparkContext]

@[simp] theorem formed_unallocate {c : Form} {s : State} (lo hi : Nat) (hs : Formed c s) :
    Formed c (s.unallocate lo hi) := by
  unfold State.unallocate
  split
  · exact hs
  · refine formed_foldl hs fun s x h => ?_
    simp [h]

@[simp] theorem formed_freeImage {c : Form} {s : State} (m : Move) (hs : Formed c s) : Formed c (s.freeImage m) := by
  unfold State.freeImage
  split <;> simp [hs]

@[simp] theorem formed_finishMove {c : Form} {s : State} (n : Nat) (m : Move) (l : Leaf) (hs : Formed c s) :
    Formed c (s.finishMove n m l) := by
  unfold State.finishMove
  extract_lets _ e s1 s2 s3 s4 s5
  have h1 : Formed c s1 := by simp [s1, hs]
  have h2 : Formed c s2 := by simp [s2, h1]
  have h3 : Formed c s3 := formed_freeImage _ (by simp [h2])
  have h4 : Formed c s4 := by simp [s4, h3]
  have h5 : Formed c s5 := formed_ite (by simp [h4]) h4
  simp [h5]

@[simp] theorem formed_tryFinish {c : Form} {s : State} (n : Nat) (m : Move) (l : Leaf) (hs : Formed c s) :
    Formed c (s.tryFinish n m l) := by
  unfold State.tryFinish
  split <;> simp [hs]

@[simp] theorem formed_stepMove {c : Form} {s : State} (n : Nat) (m : Move) (l : Leaf) (hs : Formed c s) :
    Formed c (s.stepMove n m l) := by
  unfold State.stepMove
  extract_lets lo hi s1 s2 s3 _ e s4 m' s5
  have h1 : Formed c s1 := by simp [s1, hs]
  have h2 : Formed c s2 := by simp [s2, h1]
  have h3 : Formed c s3 := by simp [s3, h2]
  have h4 : Formed c s4 := by simp [s4, h3]
  have h5 : Formed c s5 := by simp [s5, h4]
  exact formed_ite h5 (by simp [h5])

@[simp] theorem formed_beginMove {c : Form} {s : State} (n : Nat) (m : Move) (hs : Formed c s) :
    Formed c (s.beginMove n m) :=
  ⟨hs.cyc, hs.mem, hs.cellar⟩

theorem ends_stepReady {c : Form} {s : State} {m : Move} {l : Leaf} {n : Nat} (hs : Formed c s) :
    Ends (fun x => Formed c x.1) (fun _ => True) (s.stepReady m l n) := by
  unfold State.stepReady
  split
  · trivial
  · exact ends_residency hs

@[simp] theorem formed_moveStep {c : Form} {s : State} (n : Nat) (hs : Formed c s) : Formed c (s.moveStep n) := by
  unfold State.moveStep
  split
  · exact hs
  · rename_i m _
    split
    · exact hs
    · rename_i l _
      extract_lets n' full
      have h := ends_stepReady (m := m) (l := l) (n := n') hs
      split
      · exact hs
      · split
        · simp [hs]
        · split
          · simp [hs]
          · split
            · exact h.of_error ‹_›
            · exact formed_ite hs (by simp [hs])

@[simp] theorem formed_removeRecords {c : Form} {s : State} (n : Nat) (hs : Formed c s) :
    Formed c (s.removeRecords n) := by
  unfold State.removeRecords
  split <;> simp [hs]

@[simp] theorem formed_endCompaction {c : Form} {s : State} (d : BitVec 2) (hs : Formed c s) :
    Formed c (s.endCompaction d) := by
  unfold State.endCompaction
  simp [hs]

@[simp] theorem formed_batchReturn {c : Form} {s : State} (d : BitVec 2) (n : Nat) (hs : Formed c s) :
    Formed c (s.batchReturn d n) := by
  unfold State.batchReturn
  dsimp only
  (repeat' split) <;> simp +contextual [hs, formed_foldl, formed_ite]

@[simp] theorem formed_pokeBit {c : Form} {s : State} (pa i : Nat) (b : Bool) (hs : Formed c s) :
    Formed c (s.pokeBit pa i b) := by
  unfold State.pokeBit
  simp [hs]

@[simp] theorem formed_putBlock {c : Form} {s : State} (pa : Nat) (b : Block) (hs : Formed c s) :
    Formed c (s.putBlock pa b) := by
  unfold State.putBlock
  grind [formed_pokeBit, formed_setBlock]

@[simp] theorem formed_evicted {c : Form} {s : State} (pa : Nat) (hs : Formed c s) : Formed c (s.evicted pa) :=
  ⟨hs.cyc, hs.mem, hs.cellar⟩

@[simp] theorem formed_evictRefused {c : Form} {s : State} (pa : Nat) (hs : Formed c s) :
    Formed c (s.evictRefused pa) :=
  ⟨hs.cyc, hs.mem, hs.cellar⟩

@[simp] theorem formed_reachNonres {c : Form} {s : State} (pa : Nat) (b : Block) (hs : Formed c s) :
    Formed c (s.reachNonres pa b) := by
  unfold State.reachNonres
  simp [hs]

@[simp] theorem formed_judgeEvict {c : Form} {s : State} (pa : Nat) (b : Block) (hs : Formed c s) :
    Formed c (s.judgeEvict pa b) := by
  unfold State.judgeEvict
  grind [formed_consumeOnce, formed_evictRefused, formed_performThose, formed_putBlock, formed_reachNonres]

@[simp] theorem formed_evictBlock {c : Form} {s : State} (pa : Nat) (b : Block) (hs : Formed c s) :
    Formed c (s.evictBlock pa b) := by
  unfold State.evictBlock
  split <;> simp [hs]

@[simp] theorem formed_unparkResident {c : Form} {s : State} (hs : Formed c s) : Formed c (s.unparkResident) := by
  unfold State.unparkResident
  exact formed_foldl hs fun s a h => by simp [h]

@[simp] theorem formed_setBacking {c : Form} {s : State} (b : Block) (bad : Bool) (hs : Formed c s) :
    Formed c (s.setBacking b bad) :=
  ⟨hs.cyc, hs.mem, hs.cellar⟩

@[simp] theorem formed_fetchComplete {c : Form} {s : State} (pa : Nat) (ok : Bool) (bad : List Nat)
    (hs : Formed c s) : Formed c (s.fetchComplete pa ok bad) := by
  unfold State.fetchComplete
  split
  · exact hs
  · rename_i b _
    split
    · exact hs
    · extract_lets lines bytes s1 s2 pend b' s3
      have h1 : Formed c s1 := formed_poke _ _ (formed_ite (by simp [hs]) hs)
      have h2 : Formed c s2 := formed_foldl h1 fun s i h => by simp [h]
      have h3 : Formed c s3 := by simp [s3, h2]
      exact formed_ite (by simp [h3]) h3

@[simp] theorem formed_writeBack {c : Form} {s : State} (pa : Nat) (b : Block) (hs : Formed c s) :
    Formed c (s.writeBack pa b) := by
  unfold State.writeBack
  extract_lets bs marks s1
  have h1 : Formed c s1 := by simp [s1, hs]
  clear_value bs marks s1
  split
  · exact formed_foldl (formed_poke _ _ h1) fun s i h => formed_mark _ _ h
  · exact h1.setCellar fun h => Memory.wf_writeBytes (h1.cellar h) _ _

@[simp] theorem formed_writeBackComplete {c : Form} {s : State} (pa : Nat) (ok : Bool) (hs : Formed c s) :
    Formed c (s.writeBackComplete pa ok) := by
  unfold State.writeBackComplete
  grind [formed_reachNonres, formed_setBacking, formed_writeBack]

theorem ends_needLength {c : Form} {s : State} {n : Word} (hs : Formed c s) :
    Ends (StopFormed c) (fun _ => True) (needLength s n) := by
  exact ends_need hs

theorem formed_pinBlock {c : Form} {s : State} (up : Bool) (r : BitVec 16) (e : RangeEntry) (va : Nat)
    (hs : Formed c s) : ∀ t, (s.pinBlock up r e va) = some t → Formed c t := by
  unfold State.pinBlock
  grind [formed_setBlock]

@[simp] theorem formed_unpinAll {c : Form} {s : State} (up : Bool) (r : BitVec 16) (e : RangeEntry) (vas : List Nat)
    (hs : Formed c s) : Formed c (s.unpinAll up r e vas) := by
  unfold State.unpinAll
  exact formed_foldl hs fun s a h => by simp [h]

theorem formed_pinBlocks {c : Form} {s : State} (up : Bool) (r : BitVec 16) (e : RangeEntry) (done l : List Nat)
    (hs : Formed c s) : Formed c (s.pinBlocks up r e done l).1 := by
  induction l generalizing s done with
  | nil => exact hs
  | cons va l ih =>
    unfold State.pinBlocks
    split
    · exact ih _ (formed_pinBlock up r e va hs _ ‹_›)
    · simp [hs]

theorem ends_pinBody {c : Form} {up : Bool} {a b : BitVec 5} {s : State} (hs : Formed c s) :
    Ends (StopFormed c) (Formed c) (pinBody up a b s) := by
  unfold pinBody
  extract_lets va n
  refine (ends_needLength hs).bind fun _ _ => ?_
  split
  · exact (ends_checkHeld hs).bind fun _ _ => by simp [hs]
  · refine (ends_causeAt (ends_translate hs)).bind fun ⟨s, e⟩ hs => ?_
    refine (ends_checkHeld hs).bind fun _ _ => ?_
    dsimp only
    split
    · exact formed_putP _ _ (formed_pinBlocks _ _ _ _ _ hs)
    · exact formed_putP _ _ hs

theorem formed_foldSpans {cy : Form} (t : BitVec 10) (c : Cmd) (k : Kind) {f : State → Span → State} (m : Nat)
    {s : State}
    (va n : Nat) (hs : Formed cy s) (hf : ∀ s x, Formed cy s → Formed cy (f s x)) :
    Formed cy (foldSpans t c k f m s va n).1 := by
  induction m generalizing s va n with
  | zero => exact hs
  | succ m ih =>
    unfold foldSpans
    split
    · exact hs
    · have h := ends_firstSpan (t := t) (r := c.region) (who := c.who) (va := va) (n := n) (k := k) hs
      split
      · exact h.of_error ‹_›
      · exact ih _ _ (hf _ _ (h.of_ok ‹_›))

@[simp] theorem formed_startEvict {cy : Form} (t : BitVec 10) (c : Cmd) {s : State} (hs : Formed cy s) :
    Formed cy (startEvict t c s) := by
  unfold startEvict
  extract_lets wait event
  have hwait : ∀ s x, Formed cy s → Formed cy (wait s x) := fun s x h => formed_ite (by simp [h]) h
  have hevent : ∀ s x, Formed cy s → Formed cy (event s x) := fun s x h => formed_ite (by simp [h]) (by simp [h])
  have h1 := formed_foldSpans t c .read c.opb.toNat c.opa.toNat c.opb.toNat hs hwait
  have h2 := formed_foldSpans t c .read c.opb.toNat c.opa.toNat c.opb.toNat h1 hevent
  exact formed_ite h2 (formed_modCmd _ _ _ h2)

@[simp] theorem formed_finishEvict {cy : Form} (t : BitVec 10) (c : Cmd) {s : State} (hs : Formed cy s) :
    Formed cy (finishEvict t c s) := by
  unfold finishEvict
  split <;> simp [hs]

theorem formed_acqrel14 {c : Form} {s : State} {f : State → State} (hs : Formed c s)
    (hf : ∀ s, Formed c s → Formed c (f s)) : Formed c (s.acqrel14 f) :=
  formed_acquire _ (hf _ (by simp [hs]))

@[simp] theorem formed_install {c : Form} {s : State} (t : BitVec 10) (q : BitVec 16) (e : RangeEntry)
    (hs : Formed c s) : Formed c (s.install t q e) :=
  ⟨hs.cyc, hs.mem, hs.cellar⟩

theorem ends_newBitmap {c : Form} {s : State} {r : BitVec 16} {e : RangeEntry} (hs : Formed c s) :
    Ends (fun x => ∀ t, x = some t → Formed c t) (fun x => Formed c x.2) (s.newBitmap r e) := by
  unfold State.newBitmap
  split
  · exact hs
  · extract_lets q n k d
    have h := formed_takeUnit q hs
    split
    · split
      · exact h _ _ ‹_›
      · exact fun _ h => nomatch h
    · have h := formed_growRun (d := d) (k := k) hs
      split <;> rename_i hr <;> rw [hr] at h
      · exact formed_modRegion _ _ h
      · exact fun _ ht => Option.some.inj ht ▸ h
      · exact fun _ h => nomatch h

@[simp] theorem formed_fillBitmap {c : Form} {s : State} (r : BitVec 16) (e : RangeEntry) (at' : Nat)
    (hs : Formed c s) : Formed c (s.fillBitmap r e at') := by
  unfold State.fillBitmap
  split <;> simp [hs]

@[simp] theorem formed_setBitmap {c : Form} {s : State} (leaf at' : Nat) (hs : Formed c s) :
    Formed c (s.setBitmap leaf at') := by
  unfold State.setBitmap
  simp [hs]

theorem ends_splitRange {c : Form} {s : State} {r : BitVec 16} {va : Nat} {act : Except TreeStop State}
    (hs : Formed c s) (hact : s.splitRange r va = act) :
    Ends (fun x => ∀ t, x = some t → Formed c t) (Formed c) act := by
  subst hact
  unfold State.splitRange
  split
  · exact fun _ h => nomatch h
  · rename_i l _
    extract_lets e h
    split
    · exact fun _ h => nomatch h
    · refine (ends_newBitmap hs).bind fun ⟨m, s⟩ hs => ?_
      dsimp -zeta only
      extract_lets s1
      have h1 : Formed c s1 := by simp [s1, show Formed c s from hs]
      have hadd := formed_addRange r h.2 m (formed_writeLeaf l.addr h.1 h1)
      split
      · exact fun _ h => nomatch h
      · have h2 := hadd _ ‹_›
        exact ⟨h2.cyc, h2.mem, h2.cellar⟩

@[simp] theorem formed_refuseNode {c : Form} {s : State} (hs : Formed c s) : Formed c (s.refuseNode) := by
  unfold State.refuseNode
  simp [hs]

theorem ends_treeEnd {c : Form} {s : State} {meets : Bool} {r : Except TreeStop State} (hs : Formed c s)
    (hr : Ends (fun x => ∀ t, x = some t → Formed c t) (Formed c) r) :
      Ends (StopFormed c) (Formed c) (treeEnd s meets r) := by
  unfold treeEnd
  split
  · exact formed_putP _ _ (formed_acquire _ hr)
  · exact formed_putP _ _ (formed_acquire _ (formed_ite (by simp [hs]) hs))
  · exact hr _ rfl

theorem ends_treeForm {c : Form} {s : State} {meets : State → Bool} {f : State → Except TreeStop State}
    (hs : Formed c s)
    (hf : ∀ s, Formed c s → ∀ act, f s = act → Ends (fun x => ∀ t, x = some t → Formed c t) (Formed c) act) :
    Ends (StopFormed c) (Formed c) (treeForm s meets f) := by
  unfold treeForm
  refine (ends_checkHeld hs).bind fun _ _ => ?_
  extract_lets s1
  have h1 : Formed c s1 := by simp [s1, hs]
  exact ends_treeEnd h1 (hf _ h1 _ rfl)

theorem ends_mergeRanges {c : Form} {s : State} {r : BitVec 16} {va : Nat} {act : Except TreeStop State}
    (hs : Formed c s) (hact : s.mergeRanges r va = act) :
    Ends (fun x => ∀ t, x = some t → Formed c t) (Formed c) act := by
  subst hact
  unfold State.mergeRanges
  extract_lets l
  split
  · rename_i x y _ _
    extract_lets e f u
    split
    · exact fun _ h => nomatch h
    · refine (ends_newBitmap hs).bind fun ⟨m, s⟩ hs => ?_
      dsimp -zeta only
      extract_lets s1 s2 s3
      have h1 : Formed c s1 := by simp [s1, show Formed c s from hs]
      have h2 : Formed c s2 := by simp [s2, h1]
      have h3 : Formed c s3 := by simp [s3, h2]
      simp [h3]
  · exact fun _ h => nomatch h

@[simp] theorem formed_forgetBlocks {c : Form} {s : State} (e : RangeEntry) (hs : Formed c s) :
    Formed c (s.forgetBlocks e) := by
  unfold State.forgetBlocks
  simp +contextual [hs, formed_foldl, formed_ite]

@[simp] theorem formed_rsetRemove {c : Form} {s : State} (r : BitVec 16) (l : Leaf) (hs : Formed c s) :
    Formed c (s.rsetRemove r l) := by
  unfold State.rsetRemove
  grind [formed_dropRange, formed_forgetBlocks, formed_modTile]

/-- Stated for a name of what `rsetAct` answers, so that a use of it does not evaluate the act. -/
theorem ends_rsetAct {c : Form} {s : State} {r : BitVec 16} {e : RangeEntry} {act : Except TreeStop State}
    (hs : Formed c s) (hact : s.rsetAct r e = act) : Ends (fun x => ∀ t, x = some t → Formed c t) (Formed c) act := by
  subst hact
  unfold State.rsetAct
  split
  · rename_i l _
    split
    · exact fun _ h => nomatch h
    · split
      · simp [hs]
      · extract_lets e'
        refine (ends_newBitmap hs).bind fun ⟨m, s⟩ hs => ?_
        dsimp -zeta only
        extract_lets s1 s2
        have h1 : Formed c s1 := by simp [s1, show Formed c s from hs]
        have h2 : Formed c s2 := formed_fillBitmap _ _ _ (by simp [h1])
        simp [h2]
  · split
    · exact fun _ h => nomatch h
    · extract_lets e'
      refine (ends_newBitmap hs).bind fun ⟨m, s⟩ hs => ?_
      have hadd := formed_addRange r e' m (formed_fillBitmap r e' m (formed_forgetBlocks e' hs))
      dsimp only
      split
      · simp [hadd _ ‹_›]
      · exact fun _ h => nomatch h

theorem ends_moveAccess {c : Form} {s : State} {e : RangeEntry} {off : Word} (hs : Formed c s) :
    Ends (fun x => Formed c x.2) (fun _ => True) (s.moveAccess e off) := by
  unfold State.moveAccess
  exact (ends_arrayCheck hs).bind fun _ _ => ends_arrayCheck hs

@[simp] theorem formed_startRmove {cy : Form} (t : BitVec 10) (c : Cmd) {s : State} (hs : Formed cy s) :
    Formed cy (startRmove t c s) := by
  unfold startRmove
  split
  · extract_lets e open'
    split
    · simp [hs]
    · simp [hs]
  · simp [hs]

end Sys2Proof.Machine
end


section
/-! SUPPORT. Fibres, frames, matrix commands and attention keep the invariant. -/

namespace Sys2Proof.Machine

open Sys2Proof.Claims

theorem ends_sendBody {cy : Form} {s : State} {dest arg src len xform : Word} {typed : Bool} {c : BitVec 4}
    (hs : Formed cy s) :
    Ends (StopFormed cy) (Formed cy) (sendBody s dest arg src len xform typed c) := by
  unfold sendBody
  refine (ends_reclaimPoint hs).bind fun _ _ => ?_
  refine (ends_need hs).bind fun _ _ => ?_
  refine (ends_need hs).bind fun _ _ => ?_
  refine (ends_need hs).bind fun _ _ => ?_
  refine (ends_need hs).bind fun _ _ => ?_
  refine (ends_useScope hs).bind fun sets _ => ?_
  extract_lets send
  have hsend : ∀ s, Formed cy s → Ends (StopFormed cy) (Formed cy) (send s) := fun s hs =>
    (ends_checkHeld hs).bind fun _ _ => (ends_buffer hs).bind fun s hs => formed_advance _ hs
  split
  · exact hsend s hs
  · refine (ends_checkMapped hs).bind fun ⟨s, e, pa⟩ hs => ?_
    exact (ends_checkResident hs).bind fun _ _ => hsend _ hs

@[simp] theorem formed_settleKept {c : Form} {s : State} (x : ThreadId) (hs : Formed c s) :
    Formed c (s.settleKept x) := by
  unfold State.settleKept
  simp [hs]

@[simp] theorem formed_finish {c : Form} {s : State} (x : ThreadId) (hs : Formed c s) : Formed c (s.finish x) := by
  unfold State.finish
  grind [formed_bringHome, formed_doneFibre, formed_freeMessage, formed_leaveEpochs, formed_leftUnsettled,
    formed_settleKept, formed_vacate]

@[simp] theorem formed_placeFibre {c : Form} {s : State} (t : BitVec 10) (f : Fibre) (hs : Formed c s) :
    Formed c (s.placeFibre t f).2 := by
  unfold State.placeFibre
  grind [formed_addLive, formed_modSlot, formed_pick]

@[simp] theorem formed_hold {c : Form} {s : State} (holder fut : Word) (hs : Formed c s) :
    Formed c (s.hold holder fut) := by
  unfold State.hold
  simp [hs]

@[simp] theorem formed_record {c : Form} {s : State} (holder fut : Word) (hs : Formed c s) :
    Formed c (s.record holder fut) := by
  unfold State.record
  split <;> simp [hs]

@[simp] theorem formed_join {c : Form} {s : State} (holder fut : Word) (hs : Formed c s) :
    Formed c (s.join holder fut) := by
  unfold State.join
  grind [formed_endLate, formed_modFuture, formed_modSelf]

theorem ends_needBlock {c : Form} {s : State} {holder : Word} (hs : Formed c s) :
    Ends (StopFormed c) (Formed c) (needBlock s holder) := by
  unfold needBlock
  split
  · exact formed_roomForRef holder hs _ ‹_›
  · exact hs

theorem ends_needOwnBlock {c : Form} {s : State} {detach : Bool} (hs : Formed c s) :
    Ends (StopFormed c) (Formed c) (needOwnBlock s detach) := by
  unfold needOwnBlock
  exact Ends.ite hs (ends_needBlock hs)

@[simp] theorem formed_placeGroup {c : Form} {s : State} (f : Future) (hs : Formed c s) :
    Formed c (s.placeGroup f).2 := by
  unfold State.placeGroup
  grind [formed_modSlot, formed_pick]

theorem ends_groupCounter {c : Form} {s : State} {ctr : Word} (hs : Formed c s) :
    Ends (StopFormed c) (fun x => Formed c x.1) (groupCounter s ctr) := by
  unfold groupCounter
  split
  · exact hs
  · refine (ends_checkAligned hs).bind fun _ _ => ?_
    refine (ends_checkMapped hs).bind fun ⟨s, e, pa⟩ hs => ?_
    exact (ends_checkResident hs).bind fun _ _ => Ends.ite hs (ends_stopAt hs)

@[simp] theorem formed_placeMembers {c : Form} {s : State} (g : Word) (sets : Sets) (child : Fibre) (x y count : Nat)
    (waits : Bool) (hs : Formed c s) : Formed c (s.placeMembers g sets child x y count waits) := by
  unfold State.placeMembers
  extract_lets tiles
  refine formed_foldl hs fun s i hs => ?_
  have h := formed_placeFibre (tiles[i % tiles.length]?.getD 0) { child with
    arg := memberIndex x y i, group := g, detach := false, waitsCounter := waits, acquires := [sets] } hs
  generalize State.placeFibre _ _ _ = p at h ⊢
  obtain ⟨k, s⟩ := p
  exact formed_ite (formed_modFuture _ _ h) (formed_makeReady _ _ (formed_modFuture _ _ h))

@[simp] theorem formed_closeEmpty {c : Form} {s : State} (g : Word) (detach : Bool) (hs : Formed c s) :
    Formed c (s.closeEmpty g detach) := by
  unfold State.closeEmpty
  grind [formed_dropRef, formed_resolve, formed_tryFree]

@[simp] theorem formed_launch {cy : Form} {s : State} (w arg : Word) (c : BitVec 4) (sets : Sets) (counter : Option Nat)
    (x y count : Nat) (hs : Formed cy s) : Formed cy (s.launch w arg c sets counter x y count).2 := by
  unfold State.launch
  grind [formed_closeEmpty, formed_hold, formed_placeGroup, formed_placeMembers, formed_release]

theorem ends_needFuture {c : Form} {s : State} {h : Word} (hs : Formed c s) :
    Ends (StopFormed c) (fun _ => True) (needFuture s h) := by
  exact ends_need hs

@[simp] theorem formed_confirm {c : Form} {s : State} (fut : Word) (hs : Formed c s) : Formed c (s.confirm fut) := by
  unfold State.confirm
  grind [formed_modFibre, formed_modFuture, formed_unpark]

@[simp] theorem formed_recordError {c : Form} {s : State} (t : BitVec 10) (kind why : Nat) (hs : Formed c s) :
    Formed c (s.recordError t kind why) := by
  unfold State.recordError
  split <;> simp [hs]

theorem ends_needCtxForm {c : Form} {s : State} {h : Word} (hs : Formed c s) :
    Ends (StopFormed c) (fun _ => True) (needCtxForm s h) := by
  exact ends_need hs

theorem ends_openCtx {c : Form} {s : State} {h : Word} {k : Kind} (hs : Formed c s) :
    Ends (StopFormed c) (fun x => Formed c x.1) (openCtx s h k) := by
  unfold openCtx
  extract_lets va
  refine (ends_causeAt (ends_translate hs)).bind fun ⟨s, e⟩ hs => ?_
  dsimp -zeta only
  extract_lets pa s1
  have h1 : Formed c s1 := by simp [s1, show Formed c s from hs]
  exact Ends.ite (ends_stopAt hs) ((ends_need h1).bind fun _ _ => h1)

theorem ends_checkSlab {c : Form} {s : State} {cxd : Nat} (hs : Formed c s) :
    Ends (StopFormed c) (fun _ => True) (checkSlab s cxd) := by
  exact ends_checkHeld hs

theorem ends_parkCtx {c : Form} {α : Type} {p : α → Prop} {s : State} {cxd : Nat} {h : Word} (hs : Formed c s) :
    Ends (StopFormed c) p (parkCtx s cxd h) :=
  hs

@[simp] theorem formed_bindTo {c : Form} {s : State} (h : Word) (cxd : Nat) (hs : Formed c s) :
    Formed c (s.bindTo h cxd) := by
  unfold State.bindTo
  grind [formed_modFibre, formed_releaseCtx, formed_setCx]

@[simp] theorem formed_pushFrame {cy : Form} {s : State} (c : Nat) (hs : Formed cy s) :
    Formed cy (s.pushFrame c) := by
  unfold State.pushFrame
  grind [formed_poke, formed_setCx]

@[simp] theorem formed_slabSeen {c : Form} {s : State} (va n : Nat) (hs : Formed c s) :
    Formed c (s.slabSeen va n) := by
  unfold State.slabSeen
  exact formed_foldl hs fun s a h => by simp [h]

@[simp] theorem formed_slabUsed {c : Form} {s : State} (va n : Nat) (hs : Formed c s) :
    Formed c (s.slabUsed va n) := by
  unfold State.slabUsed
  exact formed_foldl hs fun s a h => by simp [h]

@[simp] theorem formed_slabWrite {c : Form} {s : State} (va : Nat) (bs : List EByte) (hs : Formed c s) :
    Formed c (s.slabWrite va bs) := by
  unfold State.slabWrite
  exact formed_foldl (by grind [formed_drainStep, formed_normalise, formed_pokeE, formed_watched]) fun s a h => by grind
    [formed_drainStep, formed_normalise, formed_pokeE, formed_watched]

theorem ends_slabSpans {c : Form} {s : State} {k : List Kind} {va n : Nat} (hs : Formed c s) :
    Ends (StopFormed c) (fun x => Formed c x.1) (slabSpans s k va n) := by
  unfold slabSpans
  refine Ends.foldlM hs fun x q hx => ?_
  refine (ends_checkMapped hx).bind fun ⟨s, e, pa⟩ hs => ?_
  exact (ends_checkResident hs).bind fun _ _ => hs

theorem ends_needSlab {c : Form} {s : State} {k : List Kind} {l : List (Nat × Nat)} (hs : Formed c s) :
    Ends (StopFormed c) (Formed c) (needSlab s k l) := by
  induction l generalizing s with
  | nil => exact hs
  | cons x l ih => exact (ends_slabSpans hs).bind fun _ hs => ih hs

@[simp] theorem formed_extendFid {cy : Form} {s : State} (c k p tok : Nat) (hs : Formed cy s) :
    Formed cy (s.extendFid c k p tok) := by
  unfold State.extendFid
  simp [hs]

@[simp] theorem formed_moveToken {cy : Form} {s : State} (c k old new : Nat) (hs : Formed cy s) :
    Formed cy (s.moveToken c k old new) := by
  unfold State.moveToken
  extract_lets s1 s2 tok n s3
  have h1 : Formed cy s1 := by
    refine formed_foldl hs fun s l hs => ?_
    exact formed_slabWrite _ _ (formed_slabWrite _ _ (by simp [hs]))
  have h2 : Formed cy s2 := by simp [s2, h1]
  have h3 : Formed cy s3 := by simp [s3, h2]
  simp [h3]

@[simp] theorem formed_publishPop {cy : Form} {s : State} (c k len : Nat) (hs : Formed cy s) :
    Formed cy (s.publishPop c k len) := by
  unfold State.publishPop
  extract_lets new ep old s1 s2 s3 s4
  have h1 : Formed cy s1 := formed_setCx _ _ _ _ _ (formed_setCx _ _ _ _ _ (formed_setCx _ _ _ _ _ (by simp [hs])))
  have h2 : Formed cy s2 := by simp [s2, h1]
  have h3 : Formed cy s3 := by simp [s3, h2]
  have h4 : Formed cy s4 := formed_ite (by simp [h3]) h2
  simp [h4]

@[simp] theorem formed_moveTokens {cy : Form} {s : State} (c k old new n : Nat) (hs : Formed cy s) :
    Formed cy (s.moveTokens c k old new n) := by
  unfold State.moveTokens
  extract_lets layers s1
  have h1 : Formed cy s1 := formed_foldl hs fun s i h => by simp [h]
  exact formed_foldl h1 fun s x h => by simp [h]

@[simp] theorem formed_sealFrames {cy : Form} {s : State} (c : Nat) (hs : Formed cy s) :
    Formed cy (s.sealFrames c) := by
  unfold State.sealFrames
  extract_lets n s1 s2 r
  have h1 : Formed cy s1 := formed_foldl hs fun s k h => by simp [h]
  have h2 : Formed cy s2 := by simp [s2, h1]
  exact formed_ite hs (formed_foldl h2 fun s l h => by simp [h])

@[simp] theorem formed_writeChild {c : Form} {s : State} (p : Nat) (ph : Word) (x : CtxSlot) (slab gen : Nat)
    (owner : Word) (hs : Formed c s) : Formed c (s.writeChild p ph x slab gen owner) := by
  unfold State.writeChild
  simp [hs]

theorem formed_newRun {c : Form} {s : State} {d : BitVec 2} {k : Nat} (hs : Formed c s) :
    GrantFormed c (s.newRun d k) := by
  unfold State.newRun
  split
  · exact formed_refuseRun _ hs
  · split
    · exact formed_takeRun d k hs _ _ ‹_›
    · exact formed_orCompact hs

theorem ends_forkCtx {c : Form} {s : State} {p : Nat} {ph : Word} (hs : Formed c s) :
    Ends (Formed c) (fun x => Formed c x.2) (s.forkCtx p ph) := by
  unfold State.forkCtx
  extract_lets t r d k
  have h := formed_newRun (d := d) (k := k) hs
  generalize s.newRun d k = g at h ⊢
  cases g with
  | later u => exact ends_error.2 h
  | refused u => exact ends_ok.2 h
  | given run u =>
    have hu : Formed c u := h
    dsimp -zeta only
    split
    · rename_i x y _ _
      refine Ends.ite (ends_ok.2 (formed_giveRun _ _ hu)) ?_
      have hadd := fun e => formed_addRange r e 0 hu
      split
      · exact ends_ok.2 (formed_refuseNode (formed_giveRun _ _ hu))
      · have h1 := hadd _ _ ‹_›
        exact ends_ok.2 (formed_modCtxSlot _ _ (formed_setCx _ _ _ _ _ (formed_writeChild _ _ _ _ _ _ h1)))
    · exact ends_ok.2 (formed_giveRun _ _ hu)

theorem ends_needTreg {c : Form} {s : State} {r : BitVec 4} (hs : Formed c s) :
    Ends (StopFormed c) (fun _ => True) (needTreg s r) := by
  exact ends_need hs

theorem ends_needAcc {c : Form} {s : State} {r : BitVec 2} (hs : Formed c s) :
    Ends (StopFormed c) (fun _ => True) (needAcc s r) := by
  exact ends_need hs

theorem ends_issueTld {c : Form} {i : Instr} {d : BitVec 4} {a : BitVec 5} {f : BitVec 4} {s : State}
    (hs : Formed c s) :
    Ends (StopFormed c) (Formed c) (issueTld i d a f s) := by
  unfold issueTld
  refine (ends_needTreg hs).bind fun _ _ => ?_
  refine (ends_need hs).bind fun _ _ => ?_
  refine (ends_commandPoint hs).bind fun _ _ => ?_
  refine (ends_checkAligned hs).bind fun _ _ => ?_
  refine (ends_matrixOperand hs).bind fun ⟨s, x⟩ hs => ?_
  exact formed_advance _ (formed_modSelf _ (formed_enterCmd _ hs))

theorem ends_runTld {cy : Form} {t : BitVec 10} {c : Cmd} {d : BitVec 4} {s : State} (hs : Formed cy s) :
    Ends (EStopFormed cy) (fun x => Formed cy x.1) (runTld t c d s) := by
  unfold runTld
  refine (ends_ready hs).bind fun s hs => ?_
  exact (ends_readSome hs).bind fun ⟨s, bs, ok⟩ hs => ends_ok_fst (formed_setRegBytes _ _ _ hs)

theorem ends_runTldT {cy : Form} {t : BitVec 10} {c : Cmd} {d : BitVec 4} {s : State} (hs : Formed cy s) :
    Ends (EStopFormed cy) (fun x => Formed cy x.1) (runTldT t c d s) := by
  unfold runTldT
  refine (ends_ready hs).bind fun s hs => ?_
  exact (ends_readSome hs).bind fun ⟨s, bs, ok⟩ hs => ends_ok_fst (formed_setRegBytes _ _ _ hs)

theorem ends_runTst {cy : Form} {t : BitVec 10} {c : Cmd} {d : BitVec 4} {s : State} (hs : Formed cy s) :
    Ends (EStopFormed cy) (fun x => Formed cy x.1) (runTst t c d s) := by
  unfold runTst
  refine (ends_ready hs).bind fun s hs => ?_
  generalize s.regBytes _ _ _ = bs
  exact (ends_writeAll hs).bind fun s hs => ends_ok_fst hs

theorem ends_checkMma {c : Form} {s : State} {a b : BitVec 4} {k : Option (BitVec 4)} (hs : Formed c s) :
    Ends (StopFormed c) (fun _ => True) (checkMma s a b k) := by
  unfold checkMma
  extract_lets t x y ok shapes
  have hshapes : ∀ u, Ends (StopFormed c) (fun _ => True) (shapes u) := fun _ =>
    (ends_need hs).bind fun _ _ => ends_need hs
  refine (ends_need hs).bind fun _ _ => ?_
  exact Ends.ite (hshapes ()) ((ends_needAgree hs).bind fun _ _ => hshapes ())

theorem ends_issueMma {c : Form} {i : Instr} {d : BitVec 2} {a b : BitVec 4} {k : Option (BitVec 4)} {s : State}
    (hs : Formed c s) :
    Ends (StopFormed c) (Formed c) (issueMma i d a b k s) := by
  unfold issueMma
  refine (ends_needAcc hs).bind fun _ _ => ?_
  refine (ends_needTreg hs).bind fun _ _ => ?_
  refine (ends_needTreg hs).bind fun _ _ => ?_
  extract_lets _ u enter
  have henter : ∀ u, Ends (StopFormed c) (Formed c) (enter u) := fun _ =>
    (ends_commandPoint hs).bind fun _ _ => (ends_checkMma hs).bind fun _ _ =>
      ends_ok.2 (formed_advance _ (formed_enterCmd _ hs))
  split
  · exact (ends_needTreg hs).bind fun _ _ => henter ()
  · exact henter ()

theorem ends_runMma {cy : Form} {t : BitVec 10} {c : Cmd} {d : BitVec 2} {a b : BitVec 4} {k : Option (BitVec 4)}
    {s : State} (hs : Formed cy s) :
    Ends (EStopFormed cy) (fun x => Formed cy x.1) (runMma t c d a b k s) := by
  unfold runMma
  exact ends_ok_fst (formed_setRegBytes _ _ _ hs)

theorem ends_runAzero {cy : Form} {t : BitVec 10} {c : Cmd} {d : BitVec 2} {s : State} (hs : Formed cy s) :
    Ends (EStopFormed cy) (fun x => Formed cy x.1) (runAzero t c d s) := by
  exact ⟨hs.cyc, fun h => Memory.wf_zeroBytes (hs.mem h) _ _, hs.cellar⟩

theorem ends_runAld {cy : Form} {t : BitVec 10} {c : Cmd} {d : BitVec 2} {s : State} (hs : Formed cy s) :
    Ends (EStopFormed cy) (fun x => Formed cy x.1) (runAld t c d s) := by
  unfold runAld
  refine (ends_ready hs).bind fun s hs => ?_
  exact (ends_readSome hs).bind fun ⟨s, bs, ok⟩ hs => ends_ok_fst (formed_setRegBytes _ _ _ hs)

theorem ends_runAst {cy : Form} {t : BitVec 10} {c : Cmd} {d : BitVec 2} {s : State} (hs : Formed cy s) :
    Ends (EStopFormed cy) (fun x => Formed cy x.1) (runAst t c d s) := by
  unfold runAst
  refine (ends_ready hs).bind fun s hs => ?_
  generalize s.regBytes _ _ _ = bs
  exact (ends_writeAll hs).bind fun s hs => ends_ok_fst hs

theorem ends_runArow {cy : Form} {t : BitVec 10} {c : Cmd} {d : BitVec 5} {a : BitVec 2} {s : State}
    (hs : Formed cy s) :
    Ends (EStopFormed cy) (fun x => Formed cy x.1) (runArow t c d a s) := by
  unfold runArow
  extract_lets first els
  exact Ends.ite (ends_ok_fst (formed_defer _ _ _ hs))
    (Ends.ite (ends_ok_fst (formed_modThread _ _ hs)) (ends_ok_fst hs))

theorem formed_raiseValid {cy : Form} {s : State} (c n : Nat) (hs : Formed cy s) : Formed cy (s.raiseValid c n) := by
  induction n generalizing s with
  | zero => exact hs
  | succ n ih =>
    rw [State.raiseValid]
    exact formed_ite (ih (by simp [hs])) hs

@[simp] theorem formed_raised {cy : Form} {s : State} (c p : Nat) (hs : Formed cy s) : Formed cy (s.raised c p) := by
  unfold State.raised
  extract_lets s1 top
  have h1 : Formed cy s1 := formed_raiseValid _ _ hs
  exact formed_foldl h1 fun s i h => by simp [h]

theorem formed_slabStore {c : Form} {s : State} (l : List Span) (bs : List Byte) (hs : Formed c s) :
    Formed c (slabStore s l bs) := by
  induction l generalizing s bs with
  | nil => exact hs
  | cons x l ih => exact ih _ (formed_storePlain _ _ _ _ hs)

@[simp] theorem formed_settleSlab {cy : Form} {s : State} (c : Nat) (hs : Formed cy s) :
    Formed cy (s.settleSlab c) := by
  unfold State.settleSlab
  simp [hs]

@[simp] theorem formed_appendWord {cy : Form} {s : State} (c : Nat) (x : Span) (tok : Nat) (first : Bool)
    (hs : Formed cy s) : Formed cy (s.appendWord c x tok first) := by
  unfold State.appendWord
  grind [formed_drainAt, formed_dropBoth, formed_performStore, formed_volPoint]

@[simp] theorem formed_append {cy : Form} {s : State} (c p tok : Nat) (x : AppendSpans) (key val : List Byte)
    (sets : Sets) (hs : Formed cy s) : Formed cy (s.append c p tok x key val sets) := by
  unfold State.append
  extract_lets first s1 s2 s3 s4
  have h1 : Formed cy s1 := formed_ite (by simp [hs]) hs
  have h2 : Formed cy s2 := formed_slabStore _ _ (formed_slabStore _ _ h1)
  have h3 : Formed cy s3 := by simp [s3, h2]
  have h4 : Formed cy s4 := formed_ite (formed_raised _ _ (by simp [h3])) h3
  exact formed_dropLines _ _ _ h4

theorem ends_waitAppend {c : Form} {α : Type} {p : α → Prop} {s : State} {sets : Sets} (hs : Formed c s) :
    Ends (StopFormed c) p (waitAppend s sets) :=
  formed_modSelf _ hs

theorem ends_judgeAppend {cy : Form} {s : State} {c : Nat} {h : Word} {p : Nat} {sets : Sets} (hs : Formed cy s) :
    Ends (StopFormed cy) (fun _ => True) (judgeAppend s c h p sets) := by
  unfold judgeAppend
  extract_lets k
  refine Ends.ite (ends_waitAppend hs) ?_
  refine (ends_need hs).bind fun _ _ => (ends_need hs).bind fun _ _ => ?_
  refine Ends.ite (Ends.ite (ends_parkCtx hs) ?_) (Ends.ite (ends_waitAppend hs) ends_ok_unit)
  have h := ends_growSlab (c := c) hs
  split
  · exact ends_parkCtx (h.of_ok ‹_›)
  · exact h.of_error ‹_›

theorem ends_metaWord {cy : Form} {s : State} {c p : Nat} {k : List Kind} (hs : Formed cy s) :
    Ends (StopFormed cy) (fun x => Formed cy x.1) (metaWord s c p k) := by
  unfold metaWord
  extract_lets va
  refine (ends_checkMapped hs).bind fun ⟨s, e, pa⟩ hs => ?_
  exact (ends_checkResident hs).bind fun _ _ => hs

theorem ends_raiseReady {cy : Form} {s : State} {c n v : Nat} (hs : Formed cy s) :
    Ends (StopFormed cy) (Formed cy) (raiseReady s c n v) := by
  induction n generalizing s v with
  | zero => exact hs
  | succ n ih => exact (ends_metaWord hs).bind fun ⟨s, x⟩ hs => Ends.ite (ih hs) (ends_ok.2 hs)

theorem ends_appendReady {cy : Form} {s : State} {c p l : Nat} (hs : Formed cy s) :
    Ends (StopFormed cy) (fun x => Formed cy x.1) (appendReady s c p l) := by
  unfold appendReady
  refine (ends_slabSpans hs).bind fun ⟨s, keys⟩ hs => ?_
  refine (ends_slabSpans hs).bind fun ⟨s, vals⟩ hs => ?_
  refine (ends_metaWord hs).bind fun ⟨s, word⟩ hs => ?_
  dsimp -zeta only
  extract_lets first qa done ok finish
  have hfinish : ∀ u, Ends (StopFormed cy) (fun x => Formed cy x.1) (finish u) := fun _ => by
    dsimp only [finish]
    exact Ends.ite ((ends_raiseReady hs).bind fun s hs => ends_ok_fst hs) (ends_ok_fst hs)
  exact Ends.ite (hfinish ()) ((ends_checkPoison hs).bind fun _ _ => hfinish ())

@[simp] theorem formed_joinEpoch {cy : Form} {s : State} (c : Nat) (hs : Formed cy s) :
    Formed cy (s.joinEpoch c) := by
  unfold State.joinEpoch
  split <;> simp [hs]

theorem ends_slabFetch {cy : Form} {t : BitVec 10} {c : Cmd} {va n : Nat} {s : State} (hs : Formed cy s) :
    Ends (EStopFormed cy) (fun x => Formed cy x.1) (slabFetch t c va n s) := by
  unfold slabFetch
  exact (ends_ready hs).bind fun s hs => ends_readAll hs

theorem ends_slabToken {cy : Form} {t : BitVec 10} {c : Cmd} {holder p : Nat} {s : State} (hs : Formed cy s) :
    Ends (EStopFormed cy) (fun x => Formed cy x.1) (slabToken t c holder p s) := by
  unfold slabToken
  refine (ends_slabFetch hs).bind fun ⟨s, kb⟩ hs => ?_
  exact (ends_slabFetch hs).bind fun ⟨s, vb⟩ hs => hs

theorem ends_slabTokens {cy : Form} {t : BitVec 10} {c : Cmd} {cxd : Nat} {x : Snapshot} {n p : Nat} {s : State}
    (hs : Formed cy s) : Ends (EStopFormed cy) (fun x => Formed cy x.1) (slabTokens t c cxd x n p s) := by
  induction n generalizing p s with
  | zero => exact hs
  | succ n ih =>
    unfold slabTokens
    refine (ends_slabFetch hs).bind fun ⟨s, m⟩ hs => ?_
    refine Ends.ite ((ends_slabToken hs).bind fun ⟨s, y⟩ hs => ?_) ((ih hs).bind fun _ hs => hs)
    exact (ih hs).bind fun _ hs => hs

theorem ends_rowsPerformed {cy : Form} {t : BitVec 10} {c : Cmd} {dim n i : Nat} {s : State} (hs : Formed cy s) :
    Ends (EStopFormed cy) (fun x => Formed cy x.1) (rowsPerformed t c dim n i s) := by
  induction n generalizing i s with
  | zero => exact hs
  | succ n ih => exact (ends_readSome hs).bind fun ⟨s, old, all⟩ hs => Ends.ite (ih hs) (ends_ok_fst hs)

theorem ends_attnRows {cy : Form} {t : BitVec 10} {c : Cmd} {dim : Nat} {toks : List Token} {n i : Nat} {s : State}
    (hs : Formed cy s) : Ends (EStopFormed cy) (fun x => Formed cy x.1) (attnRows t c dim toks n i s) := by
  induction n generalizing i s with
  | zero => exact hs
  | succ n ih =>
    unfold attnRows
    refine (ends_readAll hs).bind fun ⟨s, q⟩ hs => ?_
    dsimp -zeta only
    extract_lets sva row
    have hrow : ∀ x : State × List EByte, Formed cy x.1 → Ends (EStopFormed cy) (fun x => Formed cy x.1) (row x) :=
      fun x hx => Ends.ite (ends_ok_fst hx) ((ends_writeAll hx).bind fun s hs => ih hs)
    exact Ends.ite (hrow (s, []) hs) ((ends_readAll hs).bind hrow)

@[simp] theorem formed_askRegen {c : Form} {s : State} (cxd : Nat) (h : Word) (first count : Nat) (hs : Formed c s) :
    Formed c (s.askRegen cxd h first count) := by
  unfold State.askRegen
  extract_lets r lo hi s1 home
  have h1 : Formed c s1 := formed_setCx _ _ _ _ _ (by simp [hs])
  split
  · exact hs
  · exact formed_ite (by simp [hs]) (formed_post _ (formed_emit _ _ (formed_tileId _ h1)))

@[simp] theorem formed_metPoison {cy : Form} {s : State} (t : BitVec 10) (c : Cmd) (cxd : Nat) (toks : List Token)
    (metaBad : Bool) (hs : Formed cy s) : Formed cy (s.metPoison t c cxd toks metaBad) := by
  unfold State.metPoison
  grind [formed_askRegen, formed_defer]

theorem ends_runAttn {cy : Form} {t : BitVec 10} {c : Cmd} {s : State} (hs : Formed cy s) :
    Ends (EStopFormed cy) (fun x => Formed cy x.1) (runAttn t c s) := by
  unfold runAttn
  split
  · exact hs
  · refine (ends_ready hs).bind fun s hs => (ends_ready hs).bind fun s hs => ?_
    extract_lets rows
    have hrows : ∀ x : State × Nat, Formed cy x.1 → Ends (EStopFormed cy) (fun x => Formed cy x.1) (rows x) :=
      fun ⟨s, n⟩ hx => (ends_slabTokens hx).bind fun ⟨s, toks, bad⟩ hs => ends_attnRows (formed_metPoison _ _ _ _ _ hs)
    exact Ends.ite (hrows (s, _) hs) ((ends_rowsPerformed hs).bind hrows)

@[simp] theorem formed_localPart {cy : Form} (t : BitVec 10) (c : Cmd) (k : Kind) (va : Word) (n : Nat) {s : State}
    (hs : Formed cy s) : Formed cy (localPart t c k va n s).1 := by
  unfold localPart
  grind [formed_cmdPieces]

theorem ends_writeLocal {cy : Form} {t : BitVec 10} {c : Cmd} {out : List EByte} {s : State} (hs : Formed cy s) :
    Ends (EStopFormed cy) (Formed cy) (writeLocal t c out s) := by
  unfold writeLocal
  have h := formed_localPart t c .write c.opd out.length hs
  exact (ends_writeAll h).bind fun s hs => Ends.ite (ends_error.2 hs) (ends_ok.2 hs)

theorem ends_runAttnFin {cy : Form} {t : BitVec 10} {c : Cmd} {s : State} (hs : Formed cy s) :
    Ends (EStopFormed cy) (fun x => Formed cy x.1) (runAttnFin t c s) := by
  unfold runAttnFin
  refine (ends_ready hs).bind fun s hs => (ends_readAll hs).bind fun ⟨s, head⟩ hs => ?_
  dsimp -zeta only
  extract_lets d
  refine Ends.ite (ends_ok_fst hs) ?_
  refine (ends_ready hs).bind fun s hs => (ends_ready hs).bind fun s hs => ?_
  have h := formed_localPart t c .read (c.opa + 16) (4 * d) hs
  generalize localPart t c .read (c.opa + 16) (4 * d) s = p at h ⊢
  obtain ⟨s, m⟩ := p
  refine Ends.ite (ends_error.2 h) ?_
  refine (ends_readAll h).bind fun ⟨s, rest⟩ hs => ?_
  dsimp -zeta only
  extract_lets r bad
  generalize List.flatMap _ _ = out
  exact (ends_writeLocal hs).bind fun s hs => ends_ok_fst (formed_ite (formed_modThread _ _ hs) hs)

end Sys2Proof.Machine
end


section
/-! SUPPORT. Copies, draws, exchanges and running commands keep the invariant. -/

namespace Sys2Proof.Machine

open Sys2Proof.Claims

@[simp] theorem formed_reached {cy : Form} {s : State} (t : BitVec 10) (c : Cmd) (p : Nat) (hs : Formed cy s) :
    Formed cy (s.reached t c p) := by
  unfold State.reached
  split <;> simp [hs]

@[simp] theorem formed_stopChannel {cy : Form} {s : State} (t : BitVec 10) (c : Cmd) (hs : Formed cy s) :
    Formed cy (s.stopChannel t c) := by
  unfold State.stopChannel
  simp [hs]

theorem ends_beats {cy : Form} {f : Nat → Nat → State → Except EStop State} {stop k p : Nat} {s : State}
    (hf : ∀ p n s, Formed cy s → Ends (EStopFormed cy) (Formed cy) (f p n s)) (hs : Formed cy s) :
    Ends (EStopFormed cy) (Formed cy) (beats f stop k p s) := by
  induction k generalizing p s with
  | zero => exact hs
  | succ k ih =>
    unfold beats
    exact Ends.ite hs ((hf _ _ _ hs).bind fun s hs => ih hs)

theorem ends_streamRest {cy : Form} {f : Nat → Nat → State → Except EStop State} {t : BitVec 10} {c : Cmd} {n : Nat}
    {s : State} (hf : ∀ p n s, Formed cy s → Ends (EStopFormed cy) (Formed cy) (f p n s)) (hs : Formed cy s) :
    Ends (EStopFormed cy) (fun x => Formed cy x.1) (streamRest f t c n s) := by
  unfold streamRest
  exact (ends_beats hf hs).bind fun s hs => Ends.ite hs (ends_ok_fst (formed_reached _ _ _ hs))

theorem ends_copyBeat {cy : Form} {t : BitVec 10} {c : Cmd} {p n : Nat} {s : State} (hs : Formed cy s) :
    Ends (EStopFormed cy) (Formed cy) (copyBeat t c p n s) := by
  unfold copyBeat
  refine (ends_ready hs).bind fun s hs => (ends_ready hs).bind fun s hs => (ends_readAll hs).bind fun ⟨s, bs⟩ hs => ?_
  exact (ends_writeAll hs).bind fun s hs => ends_ok.2 (formed_reached _ _ _ hs)

theorem ends_decoded {cy : Form} {t : BitVec 10} {c : Cmd} {s : State} (hs : Formed cy s) :
    Ends (EStopFormed cy) (fun x => Formed cy x.1) (decoded t c s) := by
  unfold decoded
  split
  · exact hs
  · refine (ends_ready hs).bind fun s hs => (ends_readSome hs).bind fun ⟨s, bs, all⟩ hs => ?_
    exact ends_ok_fst (formed_modCmd _ _ _ hs)

theorem ends_decodedEnd {cy : Form} {t : BitVec 10} {c : Cmd} {why : Nat} {all : Bool} {s : State} (hs : Formed cy s) :
    Ends (EStopFormed cy) (fun x => Formed cy x.1) (decodedEnd t c why all s) := by
  unfold decodedEnd
  exact Ends.ite (ends_ok_fst (formed_recordError _ _ _ hs)) hs

theorem ends_decodedBeat {cy : Form} {t : BitVec 10} {c : Cmd} {out : List EByte} {p n : Nat} {s : State}
    (hs : Formed cy s) :
    Ends (EStopFormed cy) (Formed cy) (decodedBeat t c out p n s) := by
  unfold decodedBeat
  refine (ends_ready hs).bind fun s hs => (ends_writeAll hs).bind fun s hs => ?_
  exact ends_ok.2 (formed_reached _ _ _ hs)

theorem ends_runCpy {cy : Form} {t : BitVec 10} {c : Cmd} {s : State} (hs : Formed cy s) :
    Ends (EStopFormed cy) (fun x => Formed cy x.1) (runCpy t c s) :=
  ends_streamRest (fun _ _ _ => ends_copyBeat) hs

theorem ends_runCpyT {cy : Form} {t : BitVec 10} {c : Cmd} {s : State} (hs : Formed cy s) :
    Ends (EStopFormed cy) (fun x => Formed cy x.1) (runCpyT t c s) := by
  unfold runCpyT
  refine (ends_decoded hs).bind fun ⟨s, out, why, all⟩ hs => ?_
  exact (ends_streamRest (fun _ _ _ => ends_decodedBeat) hs).bind fun ⟨s, _⟩ hs => ends_decodedEnd hs

@[simp] theorem formed_deliver {cy : Form} {s : State} (t : BitVec 10) (c : Cmd) (i : BitVec 10) (off : Nat)
    (old : List Bool) (bs : List EByte) (hs : Formed cy s) : Formed cy (s.deliver t c i off old bs) := by
  unfold State.deliver
  grind [formed_dropLines, formed_pokeAfter, formed_watched]

theorem ends_multicastBeat {cy : Form} {t : BitVec 10} {c : Cmd} {p n : Nat} {s : State} (hs : Formed cy s) :
    Ends (EStopFormed cy) (Formed cy) (multicastBeat t c p n s) := by
  unfold multicastBeat
  refine (ends_ready hs).bind fun s hs => (ends_readAll hs).bind fun ⟨s, bs⟩ hs => ?_
  have h := formed_cmdPieces t c .write n (c.opd + wd p).toNat n hs
  dsimp only
  generalize cmdPieces t c .write n s (c.opd + wd p).toNat n = r at h ⊢
  obtain ⟨s, l, all⟩ := r
  refine Ends.ite h (ends_ok.2 (formed_reached _ _ _ (formed_setTrail _ _ _ _ ?_)))
  exact formed_foldl h fun s i h => formed_deliver _ _ _ _ _ _ h

theorem ends_runCpyMc {cy : Form} {t : BitVec 10} {c : Cmd} {s : State} (hs : Formed cy s) :
    Ends (EStopFormed cy) (fun x => Formed cy x.1) (runCpyMc t c s) := by
  unfold runCpyMc
  exact (ends_streamRest (fun _ _ _ => ends_multicastBeat) hs).bind fun ⟨s, _⟩ hs => ends_ok_fst hs

theorem ends_issueGs {c : Form} {i : Instr} {gather : Bool} {d a : BitVec 5} {s : State} (hs : Formed c s) :
    Ends (StopFormed c) (Formed c) (issueGs i gather d a s) := by
  unfold issueGs
  refine (ends_commandPoint hs).bind fun _ _ => (ends_readDesc hs).bind fun ⟨s, desc⟩ hs => ?_
  refine (ends_need hs).bind fun _ _ => (ends_localOperand hs).bind fun ⟨s, area⟩ hs => ?_
  refine (ends_localOperand hs).bind fun ⟨s, list⟩ hs => (ends_checkWrites hs).bind fun _ _ => ?_
  exact ends_ok.2 (formed_advance _ (formed_enterCmd _ hs))

@[simp] theorem formed_gsPerforms {cy : Form} (t : BitVec 10) (c : Cmd) (k : Kind) (e : GsElem) {s : State}
    (hs : Formed cy s) : Formed cy (gsPerforms t c k e s).1 := by
  unfold gsPerforms
  grind [formed_cmdPieces]

theorem ends_gathOne {cy : Form} {t : BitVec 10} {c : Cmd} {e : GsElem} {s : State} (hs : Formed cy s) :
    Ends (EStopFormed cy) (fun x => Formed cy x.1) (gathOne t c e s) := by
  unfold gathOne
  have h := formed_gsPerforms t c .read e hs
  dsimp only
  generalize gsPerforms t c .read e s = r at h ⊢
  obtain ⟨s, ok⟩ := r
  refine Ends.ite ((ends_readAll h).bind fun ⟨s, bs⟩ hs => ?_) (ends_ok_fst h)
  exact (ends_writeAll hs).bind fun s hs => ends_ok_fst hs

theorem ends_scatOne {cy : Form} {t : BitVec 10} {c : Cmd} {e : GsElem} {s : State} (hs : Formed cy s) :
    Ends (EStopFormed cy) (fun x => Formed cy x.1) (scatOne t c e s) := by
  unfold scatOne
  have h := formed_gsPerforms t c .write e hs
  dsimp only
  generalize gsPerforms t c .write e s = r at h ⊢
  obtain ⟨s, ok⟩ := r
  refine Ends.ite ((ends_readAll h).bind fun ⟨s, bs⟩ hs => ?_) (ends_ok_fst h)
  exact (ends_writeAll hs).bind fun s hs => ends_ok_fst hs

theorem ends_gsReady {cy : Form} {t : BitVec 10} {c : Cmd} {k : Kind} {es : List GsElem} {s : State}
    (hs : Formed cy s) :
    Ends (EStopFormed cy) (Formed cy) (gsReady t c k es s) := by
  induction es generalizing s with
  | nil => exact hs
  | cons e r ih =>
    unfold gsReady
    exact Ends.ite_bind (ends_ready hs) (ends_ok.2 hs) fun s hs => ih hs

theorem ends_gsEach {cy : Form} {f : GsElem → State → Except EStop (State × Bool)} {es : List GsElem} {s : State}
    (hf : ∀ e s, Formed cy s → Ends (EStopFormed cy) (fun x => Formed cy x.1) (f e s)) (hs : Formed cy s) :
    Ends (EStopFormed cy) (fun x => Formed cy x.1) (gsEach f es s) := by
  induction es generalizing s with
  | nil => exact hs
  | cons e r ih =>
    unfold gsEach
    exact (hf e s hs).bind fun ⟨s, ok⟩ hs => (ih hs).bind fun ⟨s, ok'⟩ hs => ends_ok_fst hs

theorem ends_runGath {cy : Form} {t : BitVec 10} {c : Cmd} {s : State} (hs : Formed cy s) :
    Ends (EStopFormed cy) (fun x => Formed cy x.1) (runGath t c s) := by
  unfold runGath
  refine (ends_readAll hs).bind fun ⟨s, list⟩ hs => (ends_gsReady hs).bind fun s hs => ?_
  exact ends_gsEach (fun _ _ => ends_gathOne) hs

theorem ends_runScat {cy : Form} {t : BitVec 10} {c : Cmd} {s : State} (hs : Formed cy s) :
    Ends (EStopFormed cy) (fun x => Formed cy x.1) (runScat t c s) := by
  unfold runScat
  refine (ends_readAll hs).bind fun ⟨s, list⟩ hs => (ends_gsReady hs).bind fun s hs => ?_
  exact ends_gsEach (fun _ _ => ends_scatOne) hs

@[simp] theorem formed_startPromo {cy : Form} (t : BitVec 10) (c : Cmd) {s : State} (hs : Formed cy s) :
    Formed cy (startPromo t c s) := by
  unfold startPromo
  refine formed_ite (formed_foldSpans t c .read _ _ _ hs fun s x hs => ?_) hs
  have h := ends_residency (r := c.region) (e := x.entry) (va := x.va) (n := x.len) hs
  split
  · exact hs
  · exact h.of_error ‹_›

@[simp] theorem formed_makeOnce {c : Form} {s : State} (r : BitVec 16) (pa n : Nat) (hs : Formed c s) :
    Formed c (s.makeOnce r pa n) := by
  unfold State.makeOnce
  exact formed_foldl hs fun s a h => by simp [h]

theorem ends_oncePieces {cy : Form} {t : BitVec 10} {c : Cmd} {m : Nat} {s : State} {va : Nat} {bs : List EByte}
    (hs : Formed cy s) : Ends (EStopFormed cy) (Formed cy) (oncePieces t c m s va bs) := by
  induction m generalizing s va bs with
  | zero => exact hs
  | succ m ih =>
    unfold oncePieces
    refine Ends.ite hs ?_
    have h := ends_cmdSpan (t := t) (c := c) (va := va) (n := bs.length) (k := .write) hs
    split
    · exact h.of_error ‹_›
    · rename_i s x hr
      extract_lets s1 pa s2
      have h1 : Formed cy s1 := by simp [s1, show Formed cy s from h.of_ok hr]
      have h2 : Formed cy s2 := formed_dropLines _ _ _ (formed_dropLines _ _ _ (by simp [h1]))
      exact Ends.ite h1 (Ends.ite h1 (ih (formed_watched _ _ _ _ h2)))

theorem ends_promoBeat {cy : Form} {t : BitVec 10} {c : Cmd} {out : List EByte} {p n : Nat} {s : State}
    (hs : Formed cy s) :
    Ends (EStopFormed cy) (Formed cy) (promoBeat t c out p n s) := by
  unfold promoBeat
  refine (ends_ready hs).bind fun s hs => (ends_oncePieces hs).bind fun s hs => ?_
  exact ends_ok.2 (formed_reached _ _ _ hs)

theorem ends_promoBeats {cy : Form} {t : BitVec 10} {c : Cmd} {out : List EByte} {stop k p : Nat} {s : State}
    (hs : Formed cy s) : Ends (EStopFormed cy) (Formed cy) (promoBeats t c out stop k p s) := by
  induction k generalizing p s with
  | zero => exact hs
  | succ k ih =>
    unfold promoBeats
    exact Ends.ite hs ((ends_promoBeat hs).bind fun s hs => ih hs)

theorem ends_runPromo {cy : Form} {t : BitVec 10} {c : Cmd} {s : State} (hs : Formed cy s) :
    Ends (EStopFormed cy) (fun x => Formed cy x.1) (runPromo t c s) := by
  unfold runPromo
  refine Ends.ite hs (Ends.ite ?_ ?_)
  · refine (ends_ready hs).bind fun s hs => ?_
    have h := formed_cmdPieces t c .read c.opb.toNat c.opa.toNat c.opb.toNat hs
    dsimp only
    generalize cmdPieces t c .read c.opb.toNat s c.opa.toNat c.opb.toNat = r at h ⊢
    obtain ⟨s, l, all⟩ := r
    exact Ends.ite (ends_ok_fst h) h
  · refine (ends_decoded hs).bind fun ⟨s, out, why, all⟩ hs => (ends_promoBeats hs).bind fun s hs => ?_
    exact Ends.ite hs (ends_decodedEnd hs)

theorem ends_readAreas {c : Form} {l : List (Word × Nat)} {s : State} (hs : Formed c s) :
    Ends (StopFormed c) (fun x => Formed c x.1) (readAreas l s) := by
  induction l generalizing s with
  | nil => exact hs
  | cons x r ih =>
    unfold readAreas
    exact (ends_operand hs).bind fun ⟨s, l⟩ hs => (ih hs).bind fun ⟨s, m⟩ hs => ends_ok_fst hs

theorem ends_issueDraw {c : Form} {i : Instr} {f : DrawForm} {d a : BitVec 5} {s : State} (hs : Formed c s) :
    Ends (StopFormed c) (Formed c) (issueDraw i f d a s) := by
  unfold issueDraw
  refine (ends_commandPoint hs).bind fun _ _ => (ends_readDesc hs).bind fun ⟨s, desc⟩ hs => ?_
  refine (ends_need hs).bind fun _ _ => (ends_need hs).bind fun _ _ => (ends_need hs).bind fun _ _ => ?_
  refine Ends.ite_bind (ends_checkAligned hs) ends_ok_unit fun _ _ => (ends_readAreas hs).bind fun ⟨s, src⟩ hs => ?_
  refine (ends_localOperand hs).bind fun ⟨s, dst⟩ hs => ?_
  have hdone : ∀ (s : State) (va : Word), Formed c s → Ends (StopFormed c) (Formed c) (do
      let _ ← checkWrites s dst
      .ok ((s.enterCmd { s.newCmd i ctxDraw with
        opa := va, opd := s.g d, desc := desc, reads := ownIntervals s.cur.tile src,
        writes := ownIntervals s.cur.tile dst }).advance 4)) :=
    fun s _ hs => (ends_checkWrites hs).bind fun _ _ => ends_ok.2 (formed_advance _ (formed_enterCmd _ hs))
  refine Ends.ite ((ends_loadChecked hs).bind fun ⟨s, block⟩ hs => ?_) (hdone s _ hs)
  exact (ends_need hs).bind fun _ _ => hdone s _ hs

/-! Reads of running draws, and what they write. -/

theorem ends_readerRead {cy : Form} {t : BitVec 10} {c : Cmd} {va : Word} {n : Nat} {r : Reader} (hr : Formed cy r.s) :
    Ends (EStopFormed cy) (fun x => Formed cy x.1.s) (r.read t c va n) := by
  unfold Reader.read
  refine Ends.ite (ends_ok.2 hr) ?_
  exact (ends_ready hr).bind fun s hs => (ends_readAll hs).bind fun ⟨s, bs⟩ hs => ends_ok.2 hs

theorem ends_readerValues {cy : Form} {t : BitVec 10} {c : Cmd} {tag : BitVec 4} {va : Word} {n : Nat} {r : Reader}
    (hr : Formed cy r.s) : Ends (EStopFormed cy) (fun x => Formed cy x.1.s) (r.values t c tag va n) := by
  unfold Reader.values
  exact (ends_readerRead hr).bind fun ⟨r, bs⟩ hr => ends_ok.2 hr

theorem ends_readerMask {cy : Form} {t : BitVec 10} {c : Cmd} {va : Word} {first count : Nat} {r : Reader}
    (hr : Formed cy r.s) : Ends (EStopFormed cy) (fun x => Formed cy x.1.s) (r.mask t c va first count) := by
  unfold Reader.mask
  exact Ends.ite (ends_ok.2 hr) ((ends_readerRead hr).bind fun ⟨r, bs⟩ hr => ends_ok.2 hr)

theorem ends_readerFlat {cy : Form} {t : BitVec 10} {c : Cmd} {va : Word} {r : Reader} (hr : Formed cy r.s) :
    Ends (EStopFormed cy) (fun x => Formed cy x.1.s) (r.flat t c va) := by
  unfold Reader.flat
  exact (ends_readerValues hr).bind fun ⟨r, xs⟩ hr => (ends_readerMask hr).bind fun ⟨r, m⟩ hr => ends_ok.2 hr

theorem ends_readerStop {cy : Form} {α : Type} {p : α → Prop} {r : Reader} {c : Cause} (hr : Formed cy r.s) :
    Ends (EStopFormed cy) p (r.stop c) :=
  hr

theorem ends_topkOut {cy : Form} {t : BitVec 10} {c : Cmd} {r : Reader} (hr : Formed cy r.s) :
    Ends (EStopFormed cy) (fun x => Formed cy x.1.s) (topkOut t c r) := by
  unfold topkOut
  exact (ends_readerFlat hr).bind fun ⟨r, cs⟩ hr => Ends.ite (ends_readerStop hr) (ends_ok.2 hr)

theorem ends_drawOut {cy : Form} {t : BitVec 10} {c : Cmd} {r : Reader} (hr : Formed cy r.s) :
    Ends (EStopFormed cy) (fun x => Formed cy x.1.s) (drawOut t c r) := by
  unfold drawOut
  exact (ends_readerFlat hr).bind fun ⟨r, cs⟩ hr => Ends.ite (ends_readerStop hr) (ends_ok.2 hr)

theorem ends_readerBlock2 {cy : Form} {t : BitVec 10} {c : Cmd} {r : Reader} (hr : Formed cy r.s) :
    Ends (EStopFormed cy) (fun x => Formed cy x.1.s) (r.block2 t c) := by
  unfold Reader.block2
  exact (ends_readerRead hr).bind fun ⟨r, b⟩ hr => Ends.ite (ends_ok.2 hr) (ends_readerStop hr)

theorem ends_clusterMask {cy : Form} {t : BitVec 10} {c : Cmd} {tm : Word} {ks : List Cluster} {r : Reader}
    (hr : Formed cy r.s) : Ends (EStopFormed cy) (fun x => Formed cy x.1.s) (clusterMask t c tm ks r) := by
  induction ks generalizing r with
  | nil => exact hr
  | cons k ks ih =>
    unfold clusterMask
    exact (ends_readerMask hr).bind fun ⟨r, m⟩ hr => (ih hr).bind fun ⟨r, l⟩ hr => ends_ok.2 hr

theorem ends_tokenCands {cy : Form} {t : BitVec 10} {c : Cmd} {b : Block2} {h : List Val} {k : Cluster} {m : List Bool}
    {n : Nat} {r : Reader} (hr : Formed cy r.s) :
    Ends (EStopFormed cy) (fun x => Formed cy x.1.s) (tokenCands t c b h k m n r) := by
  induction n generalizing r with
  | zero => exact hr
  | succ n ih =>
    unfold tokenCands
    refine Ends.ite ((ends_readerValues hr).bind fun ⟨r, row⟩ hr => ?_) (ih hr)
    exact (ih hr).bind fun ⟨r, l⟩ hr => ends_ok.2 hr

theorem ends_tokenSet {cy : Form} {t : BitVec 10} {c : Cmd} {b : Block2} {h : List Val} {k : Cluster} {r : Reader}
    (hr : Formed cy r.s) : Ends (EStopFormed cy) (fun x => Formed cy x.1.s) (tokenSet t c b h k r) := by
  unfold tokenSet
  exact (ends_readerMask hr).bind fun ⟨r, m⟩ hr => (ends_tokenCands hr).bind fun ⟨r, cs⟩ hr => ends_ok.2 hr

theorem ends_drawTwo {cy : Form} {t : BitVec 10} {c : Cmd} {b : Block2} {h : List Val} {ks : List Cluster}
    {cset : List Member} {bonus : Bool} {r : Reader} (hr : Formed cy r.s) :
    Ends (EStopFormed cy) (fun x => Formed cy x.1.s) (drawTwo t c b h ks cset bonus r) := by
  unfold drawTwo
  refine Ends.ite (ends_readerStop hr) ((ends_tokenSet hr).bind fun ⟨r, ms⟩ hr => ?_)
  exact Ends.ite (ends_readerStop hr) (ends_ok.2 hr)

theorem ends_membership {cy : Form} {t : BitVec 10} {c : Cmd} {b : Block2} {h : List Val} {ks : List Cluster}
    {cset : List Member} {r : Reader} (hr : Formed cy r.s) :
    Ends (EStopFormed cy) (fun x => Formed cy x.1.s) (membership t c b h ks cset r) := by
  unfold membership
  dsimp only
  split
  · exact ends_ok.2 hr
  · exact Ends.ite ((ends_tokenSet hr).bind fun ⟨r, ms⟩ hr => ends_ok.2 hr) (ends_ok.2 hr)

theorem ends_twoOut {cy : Form} {t : BitVec 10} {c : Cmd} {test bonus : Bool} {r : Reader} (hr : Formed cy r.s) :
    Ends (EStopFormed cy) (fun x => Formed cy x.1.s) (twoOut t c test bonus r) := by
  unfold twoOut
  refine (ends_readerBlock2 hr).bind fun ⟨r, b⟩ hr => (ends_readerRead hr).bind fun ⟨r, tab⟩ hr => ?_
  refine (ends_readerValues hr).bind fun ⟨r, xs⟩ hr => (ends_clusterMask hr).bind fun ⟨r, m⟩ hr => ?_
  refine (ends_readerValues hr).bind fun ⟨r, h⟩ hr => ?_
  refine Ends.ite_bind (ends_membership hr) (ends_ok.2 hr) fun ⟨r, hit⟩ hr => ?_
  cases hit with
  | some x => exact ends_ok.2 hr
  | none => exact ends_drawTwo hr

theorem ends_residualOut {cy : Form} {t : BitVec 10} {c : Cmd} {r : Reader} (hr : Formed cy r.s) :
    Ends (EStopFormed cy) (fun x => Formed cy x.1.s) (residualOut t c r) := by
  unfold residualOut
  refine (ends_readerFlat hr).bind fun ⟨r, cs⟩ hr => (ends_readerFlat hr).bind fun ⟨r, qs⟩ hr => ?_
  exact Ends.ite (ends_readerStop hr) (Ends.ite (ends_ok.2 hr) (ends_ok.2 hr))

theorem ends_runDrawn {cy : Form} {t : BitVec 10} {c : Cmd} {f : Reader → Drawn} {s : State}
    (hf : ∀ r, Formed cy r.s → Ends (EStopFormed cy) (fun x => Formed cy x.1.s) (f r)) (hs : Formed cy s) :
    Ends (EStopFormed cy) (fun x => Formed cy x.1) (runDrawn t c f s) := by
  unfold runDrawn writeDrawn
  exact (hf ⟨s, false⟩ hs).bind fun ⟨r, out⟩ hr => (ends_writeAll hr).bind fun s hs => ends_ok_fst hs

theorem ends_runRng {cy : Form} {t : BitVec 10} {c : Cmd} {s : State} (hs : Formed cy s) :
    Ends (EStopFormed cy) (fun x => Formed cy x.1) (runRng t c s) := by
  unfold runRng
  exact (ends_writeAll hs).bind fun s hs => ends_ok_fst hs

theorem ends_runAccept {cy : Form} {t : BitVec 10} {c : Cmd} {s : State} (hs : Formed cy s) :
    Ends (EStopFormed cy) (fun x => Formed cy x.1) (runAccept t c s) := by
  unfold runAccept
  exact Ends.ite (ends_runDrawn (fun _ => ends_residualOut) hs) (ends_runDrawn (fun _ => ends_twoOut) hs)

theorem ends_runGmask {cy : Form} {t : BitVec 10} {c : Cmd} {s : State} (hs : Formed cy s) :
    Ends (EStopFormed cy) (fun x => Formed cy x.1) (runGmask t c s) := by
  unfold runGmask
  refine (ends_ready hs).bind fun s hs => Ends.ite_bind (ends_ok.2 hs) (ends_ready hs) fun s hs => ?_
  refine (ends_readAll hs).bind fun ⟨s, bs⟩ hs => ?_
  refine Ends.ite_bind (ends_ok_fst hs) (ends_readAll hs) fun ⟨s, mask⟩ hs => ?_
  exact (ends_writeAll hs).bind fun s hs => ends_ok_fst hs

theorem ends_runRoute {cy : Form} {t : BitVec 10} {c : Cmd} {s : State} (hs : Formed cy s) :
    Ends (EStopFormed cy) (fun x => Formed cy x.1) (runRoute t c s) := by
  unfold runRoute
  refine (ends_ready hs).bind fun s hs => (ends_ready hs).bind fun s hs => (ends_ready hs).bind fun s hs => ?_
  refine (ends_readAll hs).bind fun ⟨s, ls⟩ hs => (ends_readAll hs).bind fun ⟨s, xs⟩ hs => ?_
  refine (ends_readAll hs).bind fun ⟨s, ds⟩ hs => (ends_writeAll hs).bind fun s hs => ends_ok_fst ?_
  exact formed_foldl hs fun s m hs => formed_sendMessage _ _ _ _ _ _ _ hs

/-! Exchanges. -/

@[simp] theorem formed_countTransfer {c : Form} {s : State} (r : BitVec 16) (src dst : BitVec 10) (hs : Formed c s) :
    Formed c (s.countTransfer r src dst) :=
  ⟨hs.cyc, hs.mem, hs.cellar⟩

@[simp] theorem formed_countAll {c : Form} {s : State} (r : BitVec 16) (members : List (BitVec 10))
    (hs : Formed c s) : Formed c (s.countAll r members) := by
  unfold State.countAll
  exact formed_foldl hs fun s i hs => formed_foldl hs fun s j hs => formed_ite hs (formed_countTransfer _ _ _ hs)

theorem ends_collRead {cy : Form} {l : List (BitVec 10 × Cmd)} {s : State} (hs : Formed cy s) :
    Ends (EStopFormed cy) (fun x => Formed cy x.1) (collRead l s) := by
  induction l generalizing s with
  | nil => exact hs
  | cons x r ih =>
    obtain ⟨i, d⟩ := x
    have h := ends_readAll (t := i) (c := d) (va := collSrc d.desc) (n := collBytes d.desc) hs
    unfold collRead
    split
    · rename_i s bs hr
      have hs : Formed cy s := h.of_ok hr
      exact (ih hs).bind fun ⟨s, l⟩ hs => ends_ok_fst hs
    · rename_i s hr
      have hs : Formed cy s := h.of_error hr
      exact formed_finishCmd _ _ _ hs
    · exact h.of_error ‹_›

theorem ends_collWrite {cy : Form} {out : List EByte} {l : List (BitVec 10 × Cmd)} {s : State} (hs : Formed cy s) :
    Ends (EStopFormed cy) (Formed cy) (collWrite out l s) := by
  induction l generalizing s with
  | nil => exact hs
  | cons x r ih =>
    obtain ⟨i, d⟩ := x
    have h := ends_writeAll (t := i) (c := d) (va := collDst d.desc) (bs := out) hs
    unfold collWrite
    split
    · exact ih (formed_finishCmd _ _ _ (h.of_ok ‹_›))
    · rename_i s hr
      have hs : Formed cy s := h.of_error hr
      exact ih (formed_finishCmd _ _ _ hs)
    · exact h.of_error ‹_›

theorem ends_finishColl {cy : Form} {t : BitVec 10} {c : Cmd} {s : State} (hs : Formed cy s) :
    Ends (EStopFormed cy) (Formed cy) (finishColl t c s) := by
  unfold finishColl
  refine Ends.ite (ends_ok.2 (formed_finishCmd _ _ _ hs)) ?_
  split
  · exact hs
  · refine Ends.ite hs (Ends.ite (ends_ok.2 (formed_foldl hs fun s p hs => formed_finishCmd _ _ _ hs)) ?_)
    exact (ends_collRead hs).bind fun ⟨s, xs⟩ hs => ends_collWrite (formed_countAll _ _ hs)

@[simp] theorem formed_dropWritten {c : Form} {s : State} (t i : BitVec 10) (d : Cmd) (va : Word) (n : Nat)
    (hs : Formed c s) : Formed c (s.dropWritten t i d va n) := by
  unfold State.dropWritten
  exact formed_foldl (by grind [formed_cmdPieces, formed_dropLines]) fun s a h => by grind
    [formed_cmdPieces, formed_dropLines]

theorem ends_ringSend {cy : Form} {t : BitVec 10} {c : Cmd} {members : List (BitVec 10)} {s : State}
    (hs : Formed cy s) :
    Ends (EStopFormed cy) (Formed cy) (ringSend t c members s) := by
  unfold ringSend
  split
  · exact hs
  · split
    · exact hs
    · rename_i i _ _ d _
      refine (ends_readAll hs).bind fun ⟨s, bs⟩ hs => ?_
      dsimp -zeta only
      extract_lets s1 s2
      have h2 : Formed cy s2 := by simp [s2, s1, hs]
      have h := ends_writeAll (t := i) (c := d) (va := ringRcv d.desc) (bs := smearRows (ringDim c.desc) bs) h2
      split
      · exact ends_ok.2 (formed_modCmd _ _ _ (formed_dropWritten _ _ _ _ _ (h.of_ok ‹_›)))
      · rename_i s hr
        have hs : Formed cy s := h.of_error hr
        exact ends_ok.2 (formed_finishCmd _ _ _ hs)
      · exact h.of_error ‹_›

theorem ends_ringMerge {cy : Form} {t : BitVec 10} {c : Cmd} {s : State} (hs : Formed cy s) :
    Ends (EStopFormed cy) (Formed cy) (ringMerge t c s) := by
  unfold ringMerge
  refine (ends_readAll hs).bind fun ⟨s, rcv⟩ hs => (ends_readAll hs).bind fun ⟨s, held⟩ hs => ?_
  exact (ends_writeAll hs).bind fun s hs => ends_ok.2 (formed_modCmd _ _ _ hs)

theorem ends_ringHolds {cy : Form} {t : BitVec 10} {c : Cmd} {s : State} (hs : Formed cy s) :
    Ends (EStopFormed cy) (Formed cy) (ringHolds t c s) := by
  unfold ringHolds
  split
  · split
    · exact Ends.ite ((ends_ringSend hs).bind fun s hs => hs) hs
    · exact hs
  · exact hs

theorem ends_finishRing {cy : Form} {t : BitVec 10} {c : Cmd} {s : State} (hs : Formed cy s) :
    Ends (EStopFormed cy) (Formed cy) (finishRing t c s) := by
  unfold finishRing
  refine Ends.ite (ends_ok.2 (formed_finishCmd _ _ _ hs)) (Ends.ite (ends_ok.2 (formed_finishCmd _ _ _ hs)) ?_)
  refine Ends.ite (ends_ringHolds hs) (Ends.ite_bind (ends_ok.2 hs) (ends_ringSend hs) fun s hs => ?_)
  refine Ends.ite_bind (ends_ringMerge hs) (ends_ok.2 hs) fun s hs => ?_
  exact Ends.ite (ends_ok.2 (formed_finishCmd _ _ _ hs)) hs

@[simp] theorem formed_startEffect {cy : Form} (t : BitVec 10) (c : Cmd) {s : State} (hs : Formed cy s) :
    Formed cy (startEffect t c s) := by
  unfold startEffect
  split <;> simp [hs]

@[simp] theorem formed_asCommand {cy : Form} {s : State} (c : Cmd) (hs : Formed cy s) :
    Formed cy (s.asCommand c) := by
  unfold State.asCommand
  simp [hs]

@[simp] theorem formed_startCommand {c : Form} {s : State} (t : BitVec 10) (n : Nat) (hs : Formed c s) :
    Formed c (s.startCommand t n) := by
  unfold State.startCommand
  grind [formed_actsFor, formed_asCommand, formed_modCmd, formed_modTile, formed_startEffect]

theorem ends_runEffect {cy : Form} {t : BitVec 10} {c : Cmd} {s : State} (hs : Formed cy s) :
    Ends (EStopFormed cy) (fun x => Formed cy x.1) (runEffect t c s) := by
  unfold runEffect
  split
  · exact ends_runTld hs
  · exact ends_runTldT hs
  · exact ends_runTst hs
  · exact ends_runMma hs
  · exact ends_runMma hs
  · exact ends_runAzero hs
  · exact ends_runAld hs
  · exact ends_runAst hs
  · exact ends_runArow hs
  · exact ends_runAttn hs
  · exact ends_runAttnFin hs
  · exact ends_runRng hs
  · exact ends_runDrawn (fun _ => ends_topkOut) hs
  · exact ends_runGmask hs
  · exact ends_runDrawn (fun _ => ends_drawOut) hs
  · exact ends_runDrawn (fun _ => ends_twoOut) hs
  · exact ends_runAccept hs
  · exact ends_runRoute hs
  · exact ends_runCpy hs
  · exact ends_runCpyT hs
  · exact ends_runCpyMc hs
  · exact ends_runGath hs
  · exact ends_runScat hs
  · exact ends_runPromo hs
  · exact ends_ok_fst hs

@[simp] theorem formed_cutCmd {cy : Form} {s : State} (t : BitVec 10) (c : Cmd) (hs : Formed cy s) :
    Formed cy (s.cutCmd t c) := by
  unfold State.cutCmd
  split <;> simp [hs]

theorem ends_nextBeat {cy : Form} {t : BitVec 10} {c : Cmd} {s : State} (hs : Formed cy s) :
    Ends (EStopFormed cy) (Formed cy) (nextBeat t c s) := by
  unfold nextBeat
  extract_lets p beat
  have hbeat : ∀ n f, (∀ n, Ends (EStopFormed cy) (Formed cy) (f n s)) → Ends (EStopFormed cy) (Formed cy) (beat n f) :=
    fun n f hf => Ends.ite (ends_ok.2 hs) (hf _)
  split
  · exact hbeat _ _ fun _ => ends_copyBeat hs
  · exact hbeat _ _ fun _ => ends_multicastBeat hs
  · exact (ends_decoded hs).bind fun ⟨s, out, _, _⟩ hs => Ends.ite (ends_ok.2 hs) (ends_decodedBeat hs)
  · refine Ends.ite (ends_ok.2 hs) ((ends_decoded hs).bind fun ⟨s, out, _, _⟩ hs => ?_)
    exact Ends.ite (ends_ok.2 hs) (ends_promoBeat hs)
  · exact hs

@[simp] theorem formed_streamOne {cy : Form} {s : State} (t : BitVec 10) (c : Cmd) (hs : Formed cy s) :
    Formed cy (s.streamOne t c) := by
  unfold State.streamOne
  refine formed_ite hs ?_
  have h := ends_nextBeat (t := t) (c := c) (formed_asCommand c hs)
  split
  · exact formed_actsFor _ (h.of_ok ‹_›)
  · rename_i s hr
    have hs : Formed cy s := h.of_error hr
    exact formed_actsFor _ hs
  · rename_i s hr
    have hs : Formed cy s := h.of_error hr
    exact formed_actsFor _ (formed_cutCmd _ _ hs)
  · rename_i s hr
    have hs : Formed cy s := h.of_error hr
    exact formed_actsFor _ (formed_finishCmd _ _ _ (formed_defer _ _ _ hs))
  · exact hs

@[simp] theorem formed_stream {c : Form} {s : State} (hs : Formed c s) : Formed c (s.stream) := by
  unfold State.stream
  exact formed_foldl hs fun s x hs => formed_foldl hs fun s c hs => formed_streamOne _ _ hs

@[simp] theorem formed_sumInto {c : Form} {s : State} (m : Message) (hs : Formed c s) : Formed c (s.sumInto m) := by
  unfold State.sumInto
  dsimp only
  (repeat' split) <;> simp +contextual [hs, formed_foldl, formed_ite]

@[simp] theorem formed_lower {c : Form} {s : State} (src : BitVec 10) (pa k : Nat) (hs : Formed c s) :
    Formed c (s.lower src pa k) := by
  unfold State.lower
  simp [hs]

@[simp] theorem formed_noteAcquire {c : Form} {s : State} (h : Word) (x : Option Sets) (hs : Formed c s) :
    Formed c (s.noteAcquire h x) := by
  unfold State.noteAcquire
  simp [hs]

@[simp] theorem formed_releaseGroup {c : Form} {s : State} (g : Word) (x : Future) (hs : Formed c s) :
    Formed c (s.releaseGroup g x) := by
  unfold State.releaseGroup
  extract_lets s1 s2 s3
  have h1 : Formed c s1 := by simp [s1, hs]
  have h2 : Formed c s2 := formed_foldl h1 fun s m hs => formed_wakeCounter _ hs
  have h3 : Formed c s3 := by simp [s3, h2]
  exact formed_ite (formed_tryFree _ (formed_ite (by simp [h3]) h3)) h2

@[simp] theorem formed_decrement {c : Form} {s : State} (d : Decrement) (hs : Formed c s) :
    Formed c (s.decrement d) := by
  unfold State.decrement
  extract_lets h
  split
  · exact formed_ite (by simp [hs]) (formed_wakeCounter _ (formed_noteAcquire _ _ (by simp [hs])))
  · split
    · split
      · refine formed_ite (by simp [hs]) ?_
        extract_lets s1
        have h1 : Formed c s1 := formed_foldl (by simp [hs]) fun s m hs => formed_noteAcquire _ _ hs
        exact formed_ite (formed_releaseGroup _ _ h1) h1
      · simp [hs]
    · simp [hs]

end Sys2Proof.Machine
end


section
/-! SUPPORT. The host port, freezes, the scheduler, loads and the mailbox keep the invariant. -/

namespace Sys2Proof.Machine

open Sys2Proof.Claims

@[simp] theorem formed_modHub {c : Form} {s : State} (f : Hub → Hub) (hs : Formed c s) : Formed c (s.modHub f) :=
  ⟨hs.cyc, hs.mem, hs.cellar⟩

@[simp] theorem formed_raise {c : Form} {s : State} (vec : BitVec 4) (hs : Formed c s) : Formed c (s.raise vec) :=
  ⟨hs.cyc, hs.mem, hs.cellar⟩

@[simp] theorem formed_modStat {c : Form} {s : State} (f : Hub → Hub) (hs : Formed c s) : Formed c (s.modStat f) := by
  unfold State.modStat
  dsimp only
  (repeat' split) <;> simp +contextual [hs, formed_foldl, formed_ite]

@[simp] theorem formed_answer {c : Form} {s : State} (status : BitVec 8) (data : List Byte) (hs : Formed c s) :
    Formed c (s.answer status data) :=
  ⟨hs.cyc, hs.mem, hs.cellar⟩

@[simp] theorem formed_hmError {c : Form} {s : State} (hs : Formed c s) : Formed c (s.hmError) := by
  unfold State.hmError
  simp [hs]

@[simp] theorem formed_inject {c : Form} {s : State} (header payload : List Byte) (hs : Formed c s) :
    Formed c (s.inject header payload) :=
  ⟨hs.cyc, hs.mem, hs.cellar⟩

@[simp] theorem formed_dropAssembly {c : Form} {s : State} (slot : Nat) (hs : Formed c s) :
    Formed c (s.dropAssembly slot) := by
  unfold State.dropAssembly
  simp [hs]

@[simp] theorem formed_headerFlit {c : Form} {s : State} (slot : Nat) (f : List Byte) (hs : Formed c s) :
    Formed c (s.headerFlit slot f) := by
  unfold State.headerFlit
  (repeat' split) <;> simp [hs]

@[simp] theorem formed_flit {c : Form} {s : State} (slot : Nat) (f : List Byte) (hs : Formed c s) :
    Formed c (s.flit slot f) := by
  unfold State.flit
  dsimp only
  (repeat' split) <;> simp +contextual [hs, formed_foldl, formed_ite]

@[simp] theorem formed_takeFlits {c : Form} {s : State} (l : List (Nat × List Byte)) (hs : Formed c s) :
    Formed c (takeFlits l s) := by
  induction l generalizing s with
  | nil => exact formed_modHub _ hs
  | cons x r ih =>
    obtain ⟨slot, f⟩ := x
    unfold takeFlits
    exact formed_ite (formed_modHub _ hs) (ih (formed_ite (formed_inject _ _ hs) (formed_flit _ _ hs)))

@[simp] theorem formed_offer {c : Form} {s : State} (l : List (Nat × List Byte)) (hs : Formed c s) :
    Formed c (s.offer l) := by
  unfold State.offer
  exact formed_takeFlits _ hs

@[simp] theorem formed_resumeFlits {c : Form} {s : State} (hs : Formed c s) : Formed c (s.resumeFlits) := by
  unfold State.resumeFlits
  split <;> simp [hs]

@[simp] theorem formed_fireGang {c : Form} {s : State} (n : BitVec 3) (hs : Formed c s) :
    Formed c (s.fireGang n) := by
  unfold State.fireGang
  dsimp only
  (repeat' split) <;> simp +contextual [hs, formed_foldl, formed_ite]

@[simp] theorem formed_fireDue {c : Form} {s : State} (hs : Formed c s) : Formed c (s.fireDue) := by
  unfold State.fireDue
  exact formed_foldl hs fun s a h => by simp [h]

@[simp] theorem formed_tileStop {c : Form} {s : State} (t : BitVec 10) (r : BitVec 16) (hs : Formed c s) :
    Formed c (s.tileStop t r) := by
  unfold State.tileStop
  grind [formed_lastFaults, formed_modCut, formed_modTile]

@[simp] theorem formed_freezeRegion {c : Form} {s : State} (r : BitVec 16) (hs : Formed c s) :
    Formed c (s.freezeRegion r) := by
  unfold State.freezeRegion
  simp [hs]

@[simp] theorem formed_release1 {c : Form} {s : State} (i : HeldItem) (hs : Formed c s) : Formed c (s.release1 i) := by
  cases i with
  | sum t m => exact formed_sumInto _ (formed_modTile _ _ hs)
  | dec d => exact formed_decrement _ (formed_mk.2 hs)

@[simp] theorem formed_thawRegion {c : Form} {s : State} (r : BitVec 16) (hs : Formed c s) :
    Formed c (s.thawRegion r) := by
  unfold State.thawRegion
  extract_lets old s1 s2 s3 s4
  have h2 : Formed c s2 := by simp [s2, s1, hs]
  have h3 : Formed c s3 := formed_mk.2 h2
  have h4 : Formed c s4 := formed_foldl h3 fun s i h => formed_release1 _ h
  exact formed_foldl h4 fun s x h => formed_resume _ h

@[simp] theorem formed_answerThaw {c : Form} {s : State} (hs : Formed c s) : Formed c (s.answerThaw) := by
  unfold State.answerThaw
  dsimp only
  (repeat' split) <;> simp +contextual [hs, formed_foldl, formed_ite]

@[simp] theorem formed_thaw {c : Form} {s : State} (r : BitVec 16) (hs : Formed c s) : Formed c (s.thaw r) := by
  unfold State.thaw
  refine formed_ite hs ?_
  extract_lets now s1
  have h1 : Formed c s1 := formed_foldl hs fun s q h => by
    split
    · exact formed_ite h (formed_ite (formed_thawRegion _ h) (formed_ite (formed_modRegion _ _ h) h))
    · exact h
  exact formed_foldl (formed_answerThaw h1) fun s f h => formed_takeStop _ _ (formed_modThread _ _ h)

@[simp] theorem formed_cutClose {c : Form} {s : State} (r : BitVec 16) (hs : Formed c s) :
    Formed c (s.cutClose r) := by
  unfold State.cutClose
  split
  · exact hs
  · extract_lets group s1 s2 wanted
    have h1 : Formed c s1 := formed_foldl hs fun s q h => formed_freezeRegion _ h
    have h2 : Formed c s2 := by
      simp only [s2]
      split
      · exact formed_ite (formed_answer _ _ (formed_modHub _ h1)) h1
      · exact h1
    exact formed_ite (formed_ite (formed_thaw _ h2) h2) hs

@[simp] theorem formed_rgnctlFreeze {c : Form} {s : State} (issuer region : BitVec 16) (hs : Formed c s) :
    Formed c (s.rgnctlFreeze issuer region) := by
  unfold State.rgnctlFreeze
  split <;> simp [hs]

@[simp] theorem formed_rgnctlThaw {c : Form} {s : State} (issuer region : BitVec 16) (hs : Formed c s) :
    Formed c (s.rgnctlThaw issuer region) := by
  unfold State.rgnctlThaw
  split <;> simp [hs]

@[simp] theorem formed_prefetch {c : Form} {s : State} (va : Word) (hs : Formed c s) : Formed c (s.prefetch va) := by
  unfold State.prefetch
  have h := ends_translate (t := s.cur.tile) (r := s.self.region) (who := s.lineage s.me) (va := va) (n := 1)
    (k := .read) hs
  split
  · exact h.of_error ‹_›
  · rename_i s' e hr
    have hs' : Formed c s' := h.of_ok hr
    exact formed_ite (formed_consumeOnce _ _ (formed_fillL1 _ _ _ (formed_touch _ _ _ (formed_drainAt _ _ hs')))) hs'

theorem ends_atomicAct {cy : Form} {s : State} {va : Word} {n : Nat} {c : BitVec 4} {held : Bool} {f : Nat → Option Nat}
    (hs : Formed cy s) :
    Ends (StopFormed cy) (fun x => Formed cy x.1) (atomicAct s va n c held f) := by
  unfold atomicAct
  refine (ends_useScopeAt hs).bind fun sets _ => (ends_checkAligned hs).bind fun _ _ => ?_
  refine (ends_checkAccess hs).bind fun ⟨s, e, pa⟩ hs => ?_
  dsimp -zeta only
  extract_lets s1 qa s2
  have h1 : Formed cy s1 := formed_drainAt _ _ (formed_volPoint _ (formed_release _ hs))
  have h2 : Formed cy s2 := formed_dropBoth _ _ _ h1
  refine (ends_checkPoison h2).bind fun _ _ => ?_
  split
  · exact ends_ok_fst (formed_performStore _ _ _ _ _ h2)
  · exact ends_ok_fst (formed_consumeOnce _ _ (formed_watched _ _ _ _ h2))

@[simp] theorem formed_memZeroed {c : Form} {s : State} (lo hi : Nat) (hs : Formed c s) :
    Formed c { s with mem := zeroBytes s.mem lo hi } :=
  hs.setMem fun h => Memory.wf_zeroBytes (hs.mem h) _ _

theorem StopFormed_barrierWait {c : Form} {s : State} (pa : Nat) (x : Sets) (hs : Formed c s) :
    StopFormed c (s.barrierWait pa x) := by
  unfold State.barrierWait
  split
  · exact formed_modSelf _ hs
  · exact formed_modSelf _ hs

@[simp] theorem formed_wakeBarrier {c : Form} {s : State} (pa : Nat) (hs : Formed c s) :
    Formed c (s.wakeBarrier pa) :=
  ⟨hs.cyc, hs.mem, hs.cellar⟩

@[simp] theorem formed_setLatches {c : Form} {s : State} (r : BitVec 16) (x : Sets) (hs : Formed c s) :
    Formed c (s.setLatches r x) := by
  unfold State.setLatches
  split <;> simp [hs]

theorem ends_readBitmap {c : Form} {s : State} {va : Word} (hs : Formed c s) :
    Ends (StopFormed c) (fun x => Formed c x.1) (readBitmap s va) := by
  unfold readBitmap
  exact (ends_loadChecked hs).bind fun ⟨s, bs⟩ hs => ends_ok_fst hs

@[simp] theorem formed_scopeLive {c : Form} {s : State} (r : BitVec 16) (sc : BitVec 4) (host : Bool)
    (cmem tilesAt spadsAt : Word) (tiles spads : BitVec 1024) (hs : Formed c s) :
    Formed c (s.scopeLive r sc host cmem tilesAt spadsAt tiles spads) := by
  unfold State.scopeLive
  simp [hs]

@[simp] theorem formed_zeroRegs {c : Form} {s : State} (x : ThreadId) (hs : Formed c s) :
    Formed c (s.zeroRegs x) := by
  exact (hs.setMem fun h => Memory.wf_zeroBytes (Memory.wf_zeroBytes (hs.mem h) _ _) _ _).of_eq rfl rfl rfl

@[simp] theorem formed_acquireAt {c : Form} {s : State} (t : BitVec 10) (x : Sets) (hs : Formed c s) :
    Formed c (s.acquireAt t x) :=
  ⟨hs.cyc, hs.mem, hs.cellar⟩

@[simp] theorem formed_start {c : Form} {s : State} (x : ThreadId) (o : Opening) (hs : Formed c s) :
    Formed c (s.start x o) := by
  unfold State.start
  grind [formed_modFibre, formed_modFuture, formed_modThread, formed_zeroRegs]

@[simp] theorem formed_startMessage {c : Form} {s : State} (x : ThreadId) (m : Inbound) (hs : Formed c s) :
    Formed c (s.startMessage x m) := by
  unfold State.startMessage
  grind [formed_acquireAt, formed_modMessage, formed_placeFibre, formed_start]

@[simp] theorem formed_startEntry {c : Form} {s : State} (x : ThreadId) (e : ReadyEntry) (hs : Formed c s) :
    Formed c (s.startEntry x e) := by
  unfold State.startEntry
  split
  · exact hs
  · split
    · exact hs
    · extract_lets s1 s2
      have h1 : Formed c s1 := by simp [s1, hs]
      have h2 : Formed c s2 := formed_foldl h1 fun s y h => formed_acquireAt _ _ h
      exact formed_start _ _ (formed_modFibre _ _ h2)

@[simp] theorem formed_dropStale {c : Form} {s : State} (t : BitVec 10) (hs : Formed c s) :
    Formed c (s.dropStale t) := by
  unfold State.dropStale
  extract_lets s1 stale
  refine formed_foldl (by simp [s1, hs]) fun s k h => formed_ite ?_ h
  exact formed_foldl (formed_modTile _ _ h) fun s m h => formed_deadLetter _ _ _ h

@[simp] theorem formed_refillBacklog {c : Form} {s : State} (t : BitVec 10) (hs : Formed c s) :
    Formed c (s.refillBacklog t) := by
  unfold State.refillBacklog
  exact formed_foldl hs fun s a h => by simp [h]

@[simp] theorem formed_bringIn {c : Form} {s : State} (t : BitVec 10) (b : List ReadyEntry) (hs : Formed c s) :
    Formed c (s.bringIn t b) := by
  unfold State.bringIn
  split <;> simp [hs]

@[simp] theorem formed_refillTile {c : Form} {s : State} (t : BitVec 10) (hs : Formed c s) :
    Formed c (s.refillTile t) := by
  unfold State.refillTile
  grind [formed_bringIn, formed_modCmem, formed_modDie]

@[simp] theorem formed_refillCluster {cy : Form} {s : State} (c : Nat) (hs : Formed cy s) :
    Formed cy (s.refillCluster c) :=
  ⟨hs.cyc, hs.mem, hs.cellar⟩

@[simp] theorem formed_removeAt {c : Form} {s : State} (r : BitVec 16) (vbase : Nat) (hs : Formed c s) :
    Formed c (s.removeAt r vbase) := by
  unfold State.removeAt
  split <;> simp [hs]

@[simp] theorem formed_freeSlab {c : Form} {s : State} (r : BitVec 16) (cxd : Nat) (hs : Formed c s) :
    Formed c (s.freeSlab r cxd) := by
  unfold State.freeSlab
  extract_lets leaves slot s1 s2
  have h1 : Formed c s1 := formed_foldl hs fun s l h => formed_removeAt _ _ h
  have h2 : Formed c s2 := by simp [s2, h1]
  clear_value slot
  cases slot with
  | some x =>
    have h3 := formed_ite (p := (leaves.any fun l => l.entry.shared) = true) h2 (formed_giveRuns x.slab h2)
    exact formed_ite h3 (formed_releaseCtx _ (formed_setCx _ _ _ _ _ h3))
  | none => exact h2

@[simp] theorem formed_releaseRange {c : Form} {s : State} (r : Release) (l : Leaf) (hs : Formed c s) :
    Formed c (s.releaseRange r l) := by
  unfold State.releaseRange
  (repeat' split) <;> simp [hs]

@[simp] theorem formed_received {c : Form} {s : State} (t : BitVec 10) (r : BitVec 16) (colour : Option Bool)
    (hs : Formed c s) : Formed c (s.received t r colour) := by
  unfold State.received
  split <;> simp [hs]

@[simp] theorem formed_holdSum {c : Form} {s : State} (m : Message) (hs : Formed c s) : Formed c (s.holdSum m) :=
  ⟨hs.cyc, hs.mem, hs.cellar⟩

@[simp] theorem formed_land {c : Form} {s : State} (m : Message) (hs : Formed c s) : Formed c (s.land m) := by
  unfold State.land
  grind [formed_modTile, formed_pick, formed_poke, formed_recordError]

@[simp] theorem formed_depart {c : Form} {s : State} (m : Message) (hs : Formed c s) : Formed c (s.depart m) := by
  unfold State.depart
  simp +contextual [hs, formed_foldl, formed_ite]

@[simp] theorem formed_takeMessage {c : Form} {s : State} (n : Nat) (m : Message) (hs : Formed c s) :
    Formed c (s.takeMessage n m) := by
  unfold State.takeMessage
  simp [hs]

@[simp] theorem formed_stepEnd {c : Form} {s : State} (n : BitVec 4) (ok : Bool) (hs : Formed c s) :
    Formed c (s.stepEnd n ok) := by
  unfold State.stepEnd
  simp [hs]

@[simp] theorem formed_bringUp {c : Form} {s : State} (n : BitVec 4) (ok : Bool) (hs : Formed c s) :
    Formed c (s.bringUp n ok) := by
  unfold State.bringUp
  split <;> simp [hs]

@[simp] theorem formed_freezeAll {c : Form} {s : State} (hs : Formed c s) : Formed c (s.freezeAll) := by
  unfold State.freezeAll
  exact formed_foldl hs fun s a h => by simp [h]

@[simp] theorem formed_failWith {c : Form} {s : State} (why : BitVec 4) (hs : Formed c s) :
    Formed c (s.failWith why) := by
  unfold State.failWith
  simp [hs]

@[simp] theorem formed_branch {c : Form} {s : State} (taken : Bool) (t : Word) (hs : Formed c s) :
    Formed c (s.branch taken t) := by
  unfold State.branch
  split <;> simp [hs]

theorem ends_checkTarget {c : Form} {s : State} {t : Word} (hs : Formed c s) :
    Ends (StopFormed c) (fun _ => True) (checkTarget s t) := by
  unfold checkTarget
  exact Ends.ite_bind ends_ok_unit (ends_stopAt hs) fun _ _ => ends_need hs

@[simp] theorem formed_fillIcache {c : Form} {s : State} (t : BitVec 10) (r : BitVec 16) (line : Nat)
    (hs : Formed c s) : Formed c (s.fillIcache t r line) := by
  unfold State.fillIcache
  grind [formed_modTile, formed_pick]

@[simp] theorem formed_noteCode {cy : Form} {s : State} (t : BitVec 10) (r : BitVec 16) (c : CodeLine)
    (hs : Formed cy s) : Formed cy (s.noteCode t r c) := by
  unfold State.noteCode
  split <;> simp [hs]

@[simp] theorem formed_setInsn {c : Form} {s : State} (insn : BitVec 32) (hs : Formed c s) :
    Formed c (s.setInsn insn) :=
  ⟨hs.cyc, hs.mem, hs.cellar⟩

@[simp] theorem formed_hdmRefused {c : Form} {s : State} (write : Bool) (hs : Formed c s) :
    Formed c (s.hdmRefused write) := by
  unfold State.hdmRefused
  simp [hs]

@[simp] theorem formed_hostTakes {c : Form} {s : State} (pa n : Nat) (hs : Formed c s) :
    Formed c (s.hostTakes pa n) := by
  unfold State.hostTakes
  split <;> simp [hs]

@[simp] theorem formed_writeCarve {c : Form} {s : State} (t : BitVec 10) (tregs : BitVec 5) (accs : BitVec 3)
    (lzb : BitVec 6) (hs : Formed c s) : Formed c (s.writeCarve t tregs accs lzb) := by
  unfold State.writeCarve
  extract_lets lo hi s1
  have h1 : Formed c s1 := (formed_memZeroed lo hi hs).of_eq rfl rfl rfl
  simp [h1]

@[simp] theorem formed_placeKeeps {c : Form} {s : State} (q : LoadRequest) (hs : Formed c s) :
    Formed c (s.placeKeeps q) := by
  unfold State.placeKeeps
  exact formed_foldl hs fun s k h => formed_foldl h fun s i h => formed_poke _ _ h

@[simp] theorem formed_readTable {c : Form} {s : State} (r : BitVec 16) (hs : Formed c s) :
    Formed c (s.readTable r) := by
  unfold State.readTable
  simp [hs]

@[simp] theorem formed_hostRanges {c : Form} {s : State} (l : List HostRangeDecl) (hs : Formed c s) :
    Formed c (s.hostRanges l) := by
  unfold State.hostRanges
  exact formed_foldl hs fun s a h => by simp [h]

@[simp] theorem formed_dropCode {c : Form} {s : State} (r : BitVec 16) (t : BitVec 10) (back : List RangeEntry)
    (hs : Formed c s) : Formed c (s.dropCode r t back) :=
  ⟨hs.cyc, hs.mem, hs.cellar⟩

@[simp] theorem formed_freshRcb {c : Form} {s : State} (rcb : Nat) (hs : Formed c s) : Formed c (s.freshRcb rcb) := by
  unfold State.freshRcb
  grind [formed_setRcbField]

@[simp] theorem formed_loadAnswer {c : Form} {s : State} (a : Option (BitVec 8)) (hs : Formed c s) :
    Formed c (s.loadAnswer a) :=
  ⟨hs.cyc, hs.mem, hs.cellar⟩

@[simp] theorem formed_buryQueued {c : Form} {s : State} (r : BitVec 16) (hs : Formed c s) :
    Formed c (s.buryQueued r) := by
  unfold State.buryQueued
  refine formed_foldl hs fun s t h => formed_foldl h fun s k h => ?_
  exact formed_foldl (formed_modTile _ _ h) fun s m h => formed_bury _ _ h

@[simp] theorem formed_startUnload {c : Form} {s : State} (r : BitVec 16) (hs : Formed c s) :
    Formed c (s.startUnload r) := by
  unfold State.startUnload
  extract_lets s1 s2 s3 s4
  have h2 : Formed c s2 := formed_buryQueued _ (by simp [s1, hs])
  have h3 : Formed c s3 := formed_foldl h2 fun s x h => formed_setRclm _ h
  have h4 : Formed c s4 := by
    simp only [s4]
    split
    · exact formed_foldl h3 fun s x h => formed_releaseCtx _ h
    · exact h3
  exact formed_foldl h4 fun s x h => formed_ite (formed_reclaimRunning _ h) h

@[simp] theorem formed_dropOnceOf {c : Form} {s : State} (r : BitVec 16) (hs : Formed c s) :
    Formed c (s.dropOnceOf r) := by
  unfold State.dropOnceOf
  exact formed_foldl hs fun s a h => by simp [h]

@[simp] theorem formed_answerGone {c : Form} {s : State} (r : BitVec 16) (hs : Formed c s) :
    Formed c (s.answerGone r) := by
  unfold State.answerGone
  split <;> simp [hs]

@[simp] theorem formed_dropRegion {c : Form} {s : State} (r : BitVec 16) (hs : Formed c s) :
    Formed c (s.dropRegion r) := by
  unfold State.dropRegion
  split
  · exact hs
  · extract_lets s1 s2
    have h1 : Formed c s1 := formed_dropOnceOf _ (formed_foldl hs fun s p h => formed_giveRun _ _ h)
    exact formed_answerGone _ (formed_mk.2 h1)

@[simp] theorem formed_clearTile {c : Form} {s : State} (r : BitVec 16) (t : BitVec 10) (hs : Formed c s) :
    Formed c (s.clearTile r t) :=
  ⟨hs.cyc, hs.mem, hs.cellar⟩

@[simp] theorem formed_restoreTile {c : Form} {s : State} (r : BitVec 16) (v : SavedTile) (hs : Formed c s) :
    Formed c (s.restoreTile r v) := by
  unfold State.restoreTile
  extract_lets t s1 s2 s3
  have h1 : Formed c s1 := formed_ite hs (formed_writeCarve _ _ _ _ hs)
  have h2 : Formed c s2 := formed_foldl h1 fun s i h => formed_poke _ _ h
  exact formed_modTile _ _ (formed_dropCode _ _ _ (formed_mk.2 h2))

@[simp] theorem formed_thawWaiting {c : Form} {s : State} (r : BitVec 16) (hs : Formed c s) :
    Formed c (s.thawWaiting r) := by
  unfold State.thawWaiting
  (repeat' split) <;> simp [hs]

@[simp] theorem formed_waitFor {c : Form} {s : State} (r : BitVec 16) (thaw : Bool) (hs : Formed c s) :
    Formed c (s.waitFor r thaw) :=
  ⟨hs.cyc, hs.mem, hs.cellar⟩

@[simp] theorem formed_putV {c : Form} {s : State} (d : BitVec 5) (m : Word) (tag : BitVec 4) (new : List Nat) (n : Nat)
    (hs : Formed c s) : Formed c (s.putV d m tag new n) :=
  ⟨hs.cyc, hs.mem, hs.cellar⟩

theorem ends_laneBody {c : Form} {o : LaneOp} {d a b : BitVec 5} {m : BitVec 3} {n : Nat} {s : State}
    (hs : Formed c s) :
    Ends (StopFormed c) (Formed c) (laneBody o d a b m n s) := by
  unfold laneBody
  refine (ends_needClass hs).bind fun _ _ => (ends_needAgree hs).bind fun _ _ => ?_
  exact Ends.ite_bind (ends_needAgree hs) ends_ok_unit fun _ _ => ends_ok.2 (formed_putV _ _ _ _ _ hs)

theorem ends_bitBody {c : Form} {f : VWord → VWord → VWord} {d a b : BitVec 5} {m : BitVec 3} {n : Nat} {s : State}
    (hs : Formed c s) :
    Ends (StopFormed c) (Formed c) (bitBody f d a b m n s) := by
  unfold bitBody
  exact (ends_needAgree hs).bind fun _ _ => ends_ok.2 (formed_putV _ _ _ _ _ hs)

theorem ends_shiftBody {c : Form} {left : Bool} {d a b : BitVec 5} {m : BitVec 3} {n : Nat} {s : State}
    (hs : Formed c s) :
    Ends (StopFormed c) (Formed c) (shiftBody left d a b m n s) := by
  unfold shiftBody
  refine (ends_needClass hs).bind fun _ _ => (ends_needAgree hs).bind fun _ _ => ?_
  exact ends_ok.2 (formed_putV _ _ _ _ _ hs)

theorem ends_oneBody {c : Form} {ok : List TagClass} {f : BitVec 4 → Nat → Nat} {d a : BitVec 5} {m : BitVec 3}
    {n : Nat} {s : State} (hs : Formed c s) :
    Ends (StopFormed c) (Formed c) (oneBody ok f d a m n s) := by
  unfold oneBody
  exact (ends_needClass hs).bind fun _ _ => ends_ok.2 (formed_putV _ _ _ _ _ hs)

theorem ends_funBody {c : Form} {f : Val → Val × Bool} {mode : BitVec 3} {d a : BitVec 5} {m : BitVec 3} {n : Nat}
    {s : State} (hs : Formed c s) :
    Ends (StopFormed c) (Formed c) (funBody f mode d a m n s) := by
  unfold funBody
  split
  · exact ends_stopWith hs
  · exact ends_oneBody hs

theorem ends_movBody {c : Form} {d a : BitVec 5} {m : BitVec 3} {n : Nat} {s : State} (hs : Formed c s) :
    Ends (StopFormed c) (Formed c) (movBody d a m n s) := by
  exact ends_ok.2 (formed_putV _ _ _ _ _ hs)

theorem ends_reduceBody {c : Form} {o : RedOp} {d a : BitVec 5} {m : BitVec 3} {s : State} (hs : Formed c s) :
    Ends (StopFormed c) (Formed c) (reduceBody o d a m s) := by
  unfold reduceBody
  exact (ends_needClass hs).bind fun _ _ => ends_ok.2 (formed_advance _ (formed_setV _ _ _ hs))

@[simp] theorem formed_consumeUnits {c : Form} (l : List (ElemAccess × RangeEntry)) {s : State} (hs : Formed c s) :
    Formed c (consumeUnits l s) := by
  unfold consumeUnits
  exact formed_foldl hs fun s a h => by simp [h]

theorem ends_judge {c : Form} {store : Bool} {l : List ElemAccess} {s : State} (hs : Formed c s) :
    Ends (StopFormed c) (fun x => Formed c x.1) (judge store l s) := by
  induction l generalizing s with
  | nil => exact hs
  | cons u r ih =>
    unfold judge
    refine (ends_checkAligned hs).bind fun _ _ => (ends_checkAccess hs).bind fun ⟨s, e, _⟩ hs => ?_
    exact (ih hs).bind fun ⟨s, l⟩ hs => ends_ok_fst hs

theorem ends_loadUnits {c : Form} {l : List (ElemAccess × RangeEntry)} {s : State} (hs : Formed c s) :
    Ends (StopFormed c) (fun x => Formed c x.1) (loadUnits l s) := by
  induction l generalizing s with
  | nil => exact hs
  | cons x r ih =>
    obtain ⟨u, e⟩ := x
    unfold loadUnits
    refine (ends_loadRead hs).bind fun ⟨s, bs⟩ hs => ?_
    exact (ih hs).bind fun ⟨s, l, k⟩ hs => ends_ok_fst hs

theorem ends_vectorLoad {c : Form} {s : State} {d : BitVec 5} {f : BitVec 4} {us : List ElemAccess}
    (hs : Formed c s) :
    Ends (StopFormed c) (Formed c) (vectorLoad s d f us) := by
  unfold vectorLoad
  refine (ends_judge hs).bind fun ⟨s, l⟩ hs => (ends_loadUnits hs).bind fun ⟨s, bs, k⟩ hs => ?_
  exact ends_ok.2 (formed_advance _ (formed_setV _ _ _ (formed_consumeUnits _ hs)))

@[simp] theorem formed_storeUnits {c : Form} (bytes : List Byte) (l : List (ElemAccess × RangeEntry)) {s : State}
    (hs : Formed c s) : Formed c (storeUnits bytes l s) := by
  unfold storeUnits
  exact formed_foldl hs fun s a h => by simp [h]

@[simp] theorem formed_count {c : Form} {s : State} (x : ThreadId) (insn : Nat) (hs : Formed c s) :
    Formed c (s.count x insn) :=
  ⟨hs.cyc, hs.mem, hs.cellar⟩

@[simp] theorem formed_serve {c : Form} {s : State} (x : ThreadId) (vector : Bool) (hs : Formed c s) :
    Formed c (s.serve x vector) :=
  ⟨hs.cyc, hs.mem, hs.cellar⟩

@[simp] theorem formed_stepEnds {c : Form} {s : State} (x : ThreadId) (hs : Formed c s) :
    Formed c (s.stepEnds x) := by
  unfold State.stepEnds
  simp [hs]

@[simp] theorem formed_timePasses {c : Form} {s : State} (hs : Formed c s) : Formed c (s.timePasses) :=
  ⟨hs.cyc, hs.mem, hs.cellar⟩

end Sys2Proof.Machine
end

section
/-! SUPPORT. Fetches and loads of regions keep the invariant. -/

namespace Sys2Proof.Machine

open Sys2Proof.Claims

/-! Fetches. -/

/-- The state that a fetched halfword leaves meets what is asked. -/
def HalfFormed (c : Form) (o : Option (State × Except Cause Nat)) : Prop := ∀ p ∈ o, Formed c p.1

theorem halfFormed_none {c : Form} : HalfFormed c none := fun p h => absurd h (Option.not_mem_none p)

theorem halfFormed_some {c : Form} {s : State} {r : Except Cause Nat} (hs : Formed c s) :
    HalfFormed c (some (s, r)) := by
  rintro p ⟨⟩
  exact hs

theorem HalfFormed.of_eq {c : Form} {o : Option (State × Except Cause Nat)} (h : HalfFormed c o) {s : State}
    {r : Except Cause Nat} (ho : o = some (s, r)) : Formed c s :=
  h (s, r) ho

theorem halfFormed_fetchHalf {c : Form} {s : State} (x : ThreadId) (va : Word) (hs : Formed c s) :
    HalfFormed c (s.fetchHalf x va) := by
  unfold State.fetchHalf
  extract_lets t
  have h := ends_translate (t := x.tile) (r := t.region) (who := s.lineage t.fibre) (va := va) (n := 2) (k := .fetch) hs
  split
  · exact halfFormed_some (h.of_error ‹_›)
  rename_i s e hr
  have hs : Formed c s := h.of_ok hr
  extract_lets pa s1 qa s2 h s3
  have h := ends_arrayCheck (pa := pa) (n := 2) (k := .fetch) hs
  split
  · exact halfFormed_some (h.of_error ‹_›)
  split
  · exact halfFormed_none
  have h := ends_residency (r := t.region) (e := e) (va := va.toNat) (n := 2) hs
  split
  · exact halfFormed_some (h.of_error ‹_›)
  split
  · exact halfFormed_some (formed_noteCode _ _ _ hs)
  have h1 : Formed c s1 := by simp [s1, hs]
  split
  · exact halfFormed_some (formed_noteCode _ _ _ h1)
  have h2 : Formed c s2 := by simp [s2, h1]
  split
  · exact halfFormed_some (formed_answered _ _ h2)
  · exact halfFormed_some (formed_consumeOnce _ _ (formed_ite h2 (formed_fillIcache _ _ _ h2)))

/-- The state that a fetch leaves meets what is asked. -/
def FetchFormed (c : Form) : Fetched → Prop
  | .word s _ => Formed c s
  | .stop s _ _ _ => Formed c s
  | .hole _ => True

theorem fetchFormed_fetch {c : Form} {s : State} (x : ThreadId) (hs : Formed c s) : FetchFormed c (s.fetch x) := by
  unfold State.fetch
  have h := halfFormed_fetchHalf x (s.thread x).pc hs
  extract_lets pc
  split
  · trivial
  · exact h.of_eq ‹_›
  rename_i s lo hr
  have hs : Formed c s := h.of_eq hr
  have h := halfFormed_fetchHalf x (pc + 2) hs
  split
  · exact hs
  split
  · trivial
  · exact h.of_eq ‹_›
  · exact h.of_eq ‹_›

/-! Loads: what a load that goes on leaves. -/

theorem Except.bind_eq_ok {ε α β : Type} {r : Except ε α} {f : α → Except ε β} {y : β} (h : r >>= f = .ok y) :
    ∃ x, r = .ok x ∧ f x = .ok y := by
  cases r with
  | ok x => exact ⟨x, rfl, h⟩
  | error x => cases h

theorem formed_needsNodes {c : Form} {s t : State} {r : BitVec 16} {x : Option State}
    (hx : ∀ t, x = some t → Formed c t)
    (h : s.needsNodes r x = .ok t) : Formed c t := by
  unfold State.needsNodes at h
  cases x with
  | some u => exact hx t (congrArg some (Except.ok.inj h))
  | none => cases h

theorem formed_handBlocks {c : Form} {s t : State} {b : BlockRun} (hs : Formed c s) (h : s.handBlocks b = .ok t) :
    Formed c t := by
  unfold State.handBlocks at h
  split at h
  · cases h
    exact formed_modDie _ _ hs
  · cases h

theorem formed_loadTile {c : Form} {s u : State} {q : LoadRequest} {r : BitVec 16} {t : BitVec 10} (hs : Formed c s)
    (h : s.loadTile q r t = .ok u) : Formed c u := by
  unfold State.loadTile at h
  extract_lets need others x s1 lo at h
  have h1 : Formed c s1 := by simp [s1, hs]
  split at h
  · cases h
  · split at h
    · split at h
      · exact Except.ok.inj h ▸ h1
      · cases h
    · split at h
      · obtain rfl := Except.ok.inj h
        exact (formed_memZeroed _ _ hs).of_eq rfl rfl rfl
      · cases h

theorem formed_ensureRange {c : Form} {s t : State} {r : BitVec 16} {e : RangeEntry} (hs : Formed c s)
    (h : s.ensureRange r e = .ok t) : Formed c t := by
  unfold State.ensureRange at h
  extract_lets l at h
  split at h
  · exact Except.ok.inj h ▸ hs
  · split at h
    · cases h
    · exact formed_needsNodes (formed_addRange _ _ _ hs) h

theorem formed_windowRanges {c : Form} {s u : State} {r : BitVec 16} {t : BitVec 10} (hs : Formed c s)
    (h : s.windowRanges r t = .ok u) : Formed c u := by
  unfold State.windowRanges at h
  obtain ⟨v, hv, h⟩ := Except.bind_eq_ok h
  exact formed_ensureRange (formed_ensureRange hs hv) h

theorem formed_treeStart {c : Form} {s : State} {r : BitVec 16} {root : Nat} (hs : Formed c s) :
    ∀ t, (s.takeHalf (s.treeOf r)).map (fun x => (x.2.poke x.1 (leBytes 128 0)).writeNode root
      [⟨0, x.1 + 1⟩, ⟨2 ^ 56, x.1 + 1⟩]) = some t → Formed c t := by
  intro t ht
  obtain ⟨x, hx, rfl⟩ := Option.map_eq_some_iff.1 ht
  exact formed_writeNode _ _ (formed_poke _ _ (formed_takeHalf _ hs _ _ hx))

theorem formed_initTree {c : Form} {s t : State} {r : BitVec 16} (hs : Formed c s) (h : s.initTree r = .ok t) :
    Formed c t := by
  unfold State.initTree at h
  extract_lets root at h
  split at h
  · exact Except.ok.inj h ▸ hs
  · exact formed_needsNodes (formed_treeStart hs) h

theorem formed_placeCode {c : Form} {s t : State} {r : BitVec 16} {d : CodeDecl} (hs : Formed c s)
    (h : s.placeCode r d = .ok t) : Formed c t := by
  unfold State.placeCode at h
  split at h
  · split at h
    · exact Except.ok.inj h ▸ formed_poke _ _ hs
    · cases h
  · cases h

theorem formed_createCtx {cy : Form} {s t : State} {q : LoadRequest} {r : BitVec 16} {i : Nat} {c : CtxDecl}
    (hs : Formed cy s) (h : s.createCtx q r i c = .ok t) : Formed cy t := by
  unfold State.createCtx at h
  generalize loadSlab q = w at h
  obtain ⟨win, log⟩ := w
  extract_lets cxd d at h
  dsimp -zeta only at h
  extract_lets slab s1 k at h
  have h1 : Formed cy s1 := by simp [s1, hs]
  split at h
  · cases h
  · have hrun := formed_newRun (d := d) (k := k) h1
    generalize s1.newRun d k = g at h hrun
    cases g with
    | refused s => cases h
    | later s => cases h
    | given run s =>
      obtain ⟨v, hv, h⟩ := Except.bind_eq_ok h
      exact Except.ok.inj h ▸ formed_modCtxSlot _ _ (formed_needsNodes (formed_addRange _ _ _ hrun) hv)

theorem formed_loadScope {c : Form} {s t : State} {r : BitVec 16} {d : ScopeDecl} (hs : Formed c s)
    (h : s.loadScope r d = .ok t) : Formed c t := by
  unfold State.loadScope at h
  extract_lets x y at h
  split at h
  · cases h
  · exact Except.ok.inj h ▸ formed_poke _ _ (formed_setScopeCopy _ _ _ hs)

theorem formed_loadAll {α : Type} {c : Form} {f : State → α → Load} {l : List α} {s t : State}
    (hf : ∀ s t x, Formed c s → f s x = .ok t → Formed c t) (hs : Formed c s) (h : loadAll f l s = .ok t) :
    Formed c t := by
  induction l generalizing s with
  | nil => exact Except.ok.inj h ▸ hs
  | cons x l ih =>
    unfold loadAll at h
    split at h
    · exact ih (hf _ _ x hs ‹_›) h
    · cases h

theorem formed_loadRegion {c : Form} {s t : State} {q : LoadRequest} (hs : Formed c s) (h : s.loadRegion q = .ok t) :
    Formed c t := by
  unfold State.loadRegion at h
  obtain ⟨-, -, h⟩ := Except.bind_eq_ok h
  obtain ⟨a, ha, h⟩ := Except.bind_eq_ok h
  have hb : Formed c (q.images.foldl (fun s i => s.poke i.base i.data) a) :=
    formed_foldl (formed_loadAll (fun _ _ _ => formed_handBlocks) hs ha) fun s i h => formed_poke _ _ h
  generalize q.images.foldl (fun s i => s.poke i.base i.data) a = b at h hb
  dsimp only at h
  split at h
  · obtain ⟨-, -, h⟩ := Except.bind_eq_ok h
    obtain ⟨-, -, h⟩ := Except.bind_eq_ok h
    obtain ⟨d, hd, h⟩ := Except.bind_eq_ok h
    have hd := formed_loadAll (fun _ _ _ => formed_loadTile) hb hd
    obtain ⟨e, he, h⟩ := Except.bind_eq_ok h
    have he := formed_initTree (formed_mk.2 (formed_freshRcb _ (formed_placeKeeps _ hd))) he
    obtain ⟨f, hf, h⟩ := Except.bind_eq_ok h
    have hf := formed_loadAll (fun _ _ _ => formed_windowRanges) he hf
    obtain ⟨g, hg, h⟩ := Except.bind_eq_ok h
    have hg := formed_loadAll (fun _ _ _ => formed_placeCode) hf hg
    obtain ⟨-, -, h⟩ := Except.bind_eq_ok h
    obtain ⟨i, hi, h⟩ := Except.bind_eq_ok h
    have hi := formed_loadAll (fun _ _ _ => formed_createCtx) hg hi
    obtain ⟨j, hj, h⟩ := Except.bind_eq_ok h
    have hj := formed_loadAll (fun _ _ _ => formed_loadScope) (formed_readTable _ hi) hj
    obtain rfl := Except.ok.inj h
    exact formed_hostRanges _ (formed_foldl hj fun s t h => formed_modTile _ _ (formed_dropCode _ _ _ h))
  · obtain ⟨_, h, -⟩ := Except.bind_eq_ok h
    cases h

end Sys2Proof.Machine
end

section
/-! SUPPORT. The events keep the invariant. -/

namespace Sys2Proof.Machine

open Sys2Proof.Claims

/-- The state that an outcome leaves, if it leaves one, meets what is asked. -/
def NextFormed (c : Form) (o : Host.Outcome State Fault Refusal) : Prop := ∀ t, o = .next t → Formed c t

theorem nextFormed_next {c : Form} {s : State} (hs : Formed c s) : NextFormed c (.next s) := by
  rintro t ⟨⟩
  exact hs

theorem nextFormed_fault {c : Form} {e : Fault} : NextFormed c (.fault e) := fun _ h => nomatch h

theorem nextFormed_refused {c : Form} {e : Refusal} : NextFormed c (.refused e) := fun _ h => nomatch h

theorem nextFormed_ite {c : Form} {p : Prop} [Decidable p] {o u : Host.Outcome State Fault Refusal}
    (ho : NextFormed c o)
    (hu : NextFormed c u) : NextFormed c (if p then o else u) := by
  split
  · exact ho
  · exact hu

theorem nextFormed_andThen {c : Form} {o : Host.Outcome State Fault Refusal} {f : State → State} (ho : NextFormed c o)
    (hf : ∀ s, Formed c s → Formed c (f s)) : NextFormed c (andThen o f) := by
  cases o with
  | next s => exact nextFormed_next (hf s (ho s rfl))
  | fault e => exact nextFormed_fault
  | refused e => exact nextFormed_refused

theorem nextFormed_settle {c : Form} {r : Body} (h : Ends (StopFormed c) (Formed c) r) : NextFormed c (settle r) := by
  cases r with
  | ok s => exact nextFormed_next h
  | error e =>
    cases e with
    | fault k addr info s => exact nextFormed_next (formed_stop _ h)
    | park k p addr s => exact nextFormed_next (formed_stop _ h)
    | kvRetry cxd addr s => exact nextFormed_next (formed_stop _ h)
    | wait k s => exact nextFormed_next (formed_holdThread _ _ h)
    | reclaim s => exact nextFormed_next (formed_reclaimRunning _ h)
    | hole pa => exact nextFormed_fault

theorem nextFormed_settled {c : Form} {o : Host.Outcome State Fault Refusal} (ho : NextFormed c o) :
    NextFormed c (settled o) := by
  cases o with
  | next s => exact nextFormed_next (formed_actsFor _ (ho s rfl))
  | fault e => exact nextFormed_fault
  | refused e => exact nextFormed_refused

/-! Bring-up, links and the clock. -/

/-- Nothing is asked of the cycle, and memory and cellar are to be in canonical form: what every step keeps. -/
def canonicalForm : Form := ⟨fun _ => True, True⟩

/-- A state whose memory and cellar are those of a state in canonical form. -/
theorem formed_canonical {s t : State} (hs : Formed canonicalForm s) (hmem : t.mem = s.mem)
    (hcellar : t.cellar = s.cellar) : Formed canonicalForm t :=
  ⟨trivial, hmem ▸ hs.mem, hcellar ▸ hs.cellar⟩

theorem formed_restart {s : State} (hs : Formed canonicalForm s) : Formed canonicalForm s.restart :=
  formed_canonical hs rfl rfl

theorem formed_tick {s : State} (hs : Formed canonicalForm s) : Formed canonicalForm s.tick := by
  unfold State.tick
  extract_lets s1 s2
  have h1 : Formed canonicalForm s1 := formed_fireDue (formed_timePasses hs)
  exact formed_ite (formed_canonical (formed_stream h1) rfl rfl) h1

section
variable {c : Form} {s : State} (hs : Formed c s)
include hs

theorem nextFormed_execAtticKernelVerify : NextFormed c (execAtticKernelVerify s) := by
  refine nextFormed_next (formed_ite ?_ hs)
  split
  · exact formed_stepEnd _ _ (formed_modHub _ hs)
  · exact formed_stepEnd _ _ hs

theorem nextFormed_execPortEqualisation (ok : Bool) (drives : BitVec 16) (driveBytes : Nat) :
    NextFormed c (execPortEqualisation ok drives driveBytes s) :=
  nextFormed_next (formed_ite (formed_stepEnd _ _ (formed_modHub _ hs)) (formed_bringUp _ _ hs))

theorem nextFormed_execHbmZeroing (ok : Bool) : NextFormed c (execHbmZeroing ok s) :=
  nextFormed_next (formed_ite (formed_stepEnd _ _ ((formed_memZeroed 0 hbmEnd hs).of_eq rfl rfl rfl))
    (formed_bringUp _ _ hs))

theorem nextFormed_execSramZeroing (ok : Bool) : NextFormed c (execSramZeroing ok s) :=
  nextFormed_next (formed_ite (formed_stepEnd _ _ ((formed_memZeroed arrayBase arrayEnd hs).of_eq rfl rfl rfl))
    (formed_bringUp _ _ hs))

theorem nextFormed_execBootImageLoad : NextFormed c (execBootImageLoad s) :=
  nextFormed_next (formed_ite (formed_ite (formed_stepEnd _ _ (formed_modHub _ (formed_mk.2 hs)))
    (formed_stepEnd _ _ hs)) hs)

theorem nextFormed_execLinkLost : NextFormed c (execLinkLost s) :=
  nextFormed_next (formed_ite hs (formed_failWith _ hs))

theorem nextFormed_execPortFailure (port : BitVec 4) : NextFormed c (execPortFailure port s) :=
  nextFormed_next (formed_ite (formed_modStat _ hs) hs)

theorem nextFormed_execLinkDomainFormation (devnum : BitVec 8) (linkup : BitVec 16) (routes : List Route) :
    NextFormed c (execLinkDomainFormation devnum linkup routes s) :=
  nextFormed_next (formed_ite (formed_modStat _ (formed_mk.2 hs)) hs)

theorem nextFormed_execTimeSync (advance : BitVec 64) (ppm : Int) (synced : Bool) :
    NextFormed c (execTimeSync advance ppm synced s) :=
  nextFormed_next (formed_ite hs (formed_modStat _ (formed_fireDue (formed_mk.2 hs))))

theorem nextFormed_execDriveFailure (drive : BitVec 4) : NextFormed c (execDriveFailure drive s) :=
  nextFormed_next (formed_ite (formed_modStat _ hs) hs)

theorem nextFormed_execStopTemperature : NextFormed c (execStopTemperature s) :=
  nextFormed_next (formed_ite hs (formed_modHub _ (formed_failWith _ hs)))

/-! The host port. -/

theorem nextFormed_execHostMessage (off : BitVec 16) (data : List (BitVec 8)) :
    NextFormed c (execHostMessage off data s) :=
  nextFormed_next (formed_ite hs (formed_ite (formed_modStat _ hs) (formed_ite hs
    (formed_ite (formed_hmError hs) (formed_offer _ hs)))))

theorem nextFormed_execHostMessageTimeout (slot : BitVec 10) : NextFormed c (execHostMessageTimeout slot s) := by
  refine nextFormed_next ?_
  split
  · exact formed_ite (formed_dropAssembly _ hs) hs
  · exact hs

theorem nextFormed_execRegisterWrite (off : BitVec 17) (data : List (BitVec 8)) :
    NextFormed c (execRegisterWrite off data s) :=
  nextFormed_next (formed_modStat _ hs)

theorem nextFormed_execGangArm (n : BitVec 3) : NextFormed c (execGangArm n s) :=
  nextFormed_next (formed_ite hs (formed_ite (formed_modHub _ hs) (formed_ite (formed_modHub _ hs)
    (formed_ite (formed_modHub _ hs) (formed_ite (formed_modHub _ hs) (formed_modHub _ hs))))))

theorem nextFormed_execGangCancel (n : BitVec 3) : NextFormed c (execGangCancel n s) :=
  nextFormed_next (formed_ite (formed_modHub _ hs) hs)

theorem nextFormed_execGangFire (n : BitVec 3) : NextFormed c (execGangFire n s) :=
  nextFormed_next (formed_ite (formed_fireGang _ hs) hs)

theorem nextFormed_execHostHdmAccess (off : BitVec 64) (len : Nat) (store : Option (List (BitVec 8))) :
    NextFormed c (execHostHdmAccess off len store s) := by
  unfold execHostHdmAccess
  extract_lets write n
  split
  · exact nextFormed_next (formed_hdmRefused _ hs)
  rename_i e _
  generalize s.forwarded off.toNat (e.phys off.toNat) = pa
  dsimp only
  generalize s.arrayCheck pa n (if write = true then .write else .read) = a
  cases a with
  | error x => exact nextFormed_next (formed_hdmRefused _ hs)
  | ok x =>
    dsimp only
    generalize home? pa = o
    cases o with
    | none => exact nextFormed_fault
    | some y =>
      cases store with
      | some bs => exact nextFormed_next (formed_hostTakes _ _ (formed_poke _ _ (formed_normalise _ _ hs)))
      | none =>
        exact nextFormed_next (formed_modHub _ (formed_hostTakes _ _ (formed_consumeOnce _ _ (formed_touch _ _ _ hs))))

theorem nextFormed_execHostSignal (vec : BitVec 4) : NextFormed c (execHostSignal vec s) :=
  nextFormed_next (formed_ite (formed_raise _ hs) hs)

/-! Regions. -/

theorem nextFormed_execRegionLoad (req : LoadRequest) : NextFormed c (execRegionLoad req s) := by
  refine nextFormed_next ?_
  split
  · exact formed_loadAnswer _ (formed_loadRegion hs ‹_›)
  · exact formed_loadAnswer _ hs
  · exact formed_loadAnswer _ hs
  · exact formed_loadAnswer _ (formed_ite (formed_refuseGrow _ hs) (formed_refuseRun _ hs))
  · exact formed_loadAnswer _ (formed_modDie _ _ hs)

theorem nextFormed_execRegionUnload (region : BitVec 16) : NextFormed c (execRegionUnload region s) := by
  refine nextFormed_next ?_
  split
  · exact hs
  · exact formed_ite hs (formed_ite (formed_startUnload _ hs) (formed_ite (formed_dropRegion _ hs) hs))

theorem nextFormed_execRegionSwitchOut (region : BitVec 16) : NextFormed c (execRegionSwitchOut region s) := by
  refine nextFormed_next ?_
  split
  · exact hs
  · exact formed_ite (formed_foldl (formed_modRegion _ _ hs) fun s y h => formed_clearTile _ _ h) hs

theorem nextFormed_execRegionSwitchIn (region : BitVec 16) : NextFormed c (execRegionSwitchIn region s) := by
  refine nextFormed_next ?_
  split
  · exact hs
  split
  · exact hs
  · have h := fun l => formed_foldl (f := fun s v => s.restoreTile region v) (l := l) hs fun s v h =>
      formed_restoreTile _ _ h
    exact formed_ite (formed_thawWaiting _ (formed_readTable _ (formed_modRegion _ _ (h _)))) hs

/-! The scheduler. -/

theorem nextFormed_execThreadDispatch (tile : BitVec 10) : NextFormed c (execThreadDispatch tile s) := by
  have h := formed_dropStale tile hs
  refine nextFormed_next ?_
  split
  · split
    · exact formed_startMessage _ _ h
    · exact formed_startEntry _ _ h
  · exact h

theorem nextFormed_execQueueSpill (queue : QueueRef) : NextFormed c (execQueueSpill queue s) := by
  refine nextFormed_next ?_
  cases queue with
  | tile t => exact formed_ite (formed_spillTile _ hs) hs
  | cluster k => exact formed_ite (formed_spillCluster _ hs) hs

theorem nextFormed_execQueueRefill (queue : QueueRef) : NextFormed c (execQueueRefill queue s) := by
  refine nextFormed_next ?_
  cases queue with
  | tile t => exact formed_ite (formed_ite (formed_refillTile _ hs) (formed_refillBacklog _ hs)) hs
  | cluster k => exact formed_ite (formed_refillCluster _ hs) hs

theorem nextFormed_execSteal (tile : BitVec 10) : NextFormed c (execSteal tile s) := by
  refine nextFormed_next (formed_ite ?_ hs)
  split
  · exact formed_bringIn _ _ (formed_modTile _ _ hs)
  · split
    · exact formed_bringIn _ _ (formed_modDie _ _ hs)
    · exact formed_modTile _ _ hs

theorem nextFormed_execFibreReclaim (tile : BitVec 10) (slot : BitVec 12) :
    NextFormed c (execFibreReclaim tile slot s) := by
  refine nextFormed_next ?_
  split
  · exact hs
  · exact formed_ite hs (formed_reclaimFibre _ (formed_drainFibre _ (formed_mk.2 hs)))

theorem nextFormed_execRangeRelease (n : Nat) : NextFormed c (execRangeRelease n s) := by
  refine nextFormed_next ?_
  split
  · exact hs
  rename_i r _
  refine formed_ite hs (formed_tryFree _ ?_)
  split
  · exact formed_freeSlab _ _ (formed_mk.2 hs)
  · exact formed_foldl (formed_mk.2 hs) fun t l h => formed_releaseRange _ _ h

theorem nextFormed_execScopeDrain (region : BitVec 16) (sc : BitVec 4) : NextFormed c (execScopeDrain region sc s) :=
  nextFormed_next (formed_ite (formed_pokeNat _ _ _ (formed_setScopeCopy _ _ _ hs)) hs)

/-! Arrivals and errors. -/

theorem nextFormed_execMessageArrival (n : Nat) : NextFormed c (execMessageArrival n s) := by
  refine nextFormed_next ?_
  split
  · exact hs
  rename_i m _
  have h := formed_takeMessage n m hs
  refine formed_ite hs (formed_ite (formed_depart _ (formed_mk.2 hs)) ?_)
  split
  · exact formed_bury _ _ h
  · exact formed_ite hs (formed_ite
      (formed_ite (formed_sumInto _ h) (formed_ite hs (formed_holdSum _ h)))
      (formed_ite hs (formed_land _ h)))

theorem nextFormed_execDecrementArrival (n : Nat) : NextFormed c (execDecrementArrival n s) := by
  refine nextFormed_next ?_
  split
  · exact hs
  · exact formed_ite hs (formed_ite (formed_mk.2 (formed_received _ _ _ hs))
      (formed_decrement _ (formed_received _ _ _ (formed_mk.2 hs))))

theorem nextFormed_execAccessPerformedAtHome (n : Nat) : NextFormed c (execAccessPerformedAtHome n s) := by
  unfold execAccessPerformedAtHome
  split
  · exact nextFormed_next hs
  · exact nextFormed_ite (nextFormed_next hs) (nextFormed_ite (nextFormed_next (formed_mk.2 hs))
      (nextFormed_next (formed_performFlight _ (formed_mk.2 hs))))

theorem nextFormed_execFetchStop (cause : Cause) (addr : Word) (insn : BitVec 32) :
    NextFormed c (execFetchStop cause addr insn s) := by
  unfold execFetchStop
  have h := fetchFormed_fetch s.cur hs
  generalize s.fetch s.cur = f at h ⊢
  cases f with
  | word s' w => exact nextFormed_next hs
  | stop s' k a w =>
    exact nextFormed_ite (nextFormed_next (formed_stop _ (formed_setInsn _ h))) (nextFormed_next hs)
  | hole pa => exact nextFormed_next hs

theorem nextFormed_execNotAnInstruction (cause : Cause) (insn : BitVec 32) :
    NextFormed c (execNotAnInstruction cause insn s) := by
  unfold execNotAnInstruction
  have h := fetchFormed_fetch s.cur hs
  generalize s.fetch s.cur = f at h ⊢
  cases f with
  | word s' w =>
    dsimp only
    split
    · exact nextFormed_ite (nextFormed_next (formed_stop _ (formed_setInsn _ h))) (nextFormed_next hs)
    · exact nextFormed_next hs
  | stop s' k a w => exact nextFormed_next hs
  | hole pa => exact nextFormed_next hs

theorem nextFormed_execUncorrectableError (place : ErrorPlace) : NextFormed c (execUncorrectableError place s) := by
  cases place with
  | l1 t pa => exact nextFormed_next (formed_dropLine _ _ hs)
  | home pa =>
    unfold execUncorrectableError
    dsimp only
    split
    · exact nextFormed_next hs
    · exact nextFormed_next hs
    · exact nextFormed_next (formed_mark _ _ hs)

theorem nextFormed_execHostAccessTimeout (pa : BitVec 52) : NextFormed c (execHostAccessTimeout pa s) := by
  unfold execHostAccessTimeout
  extract_lets line lost
  split
  · exact nextFormed_next (formed_ite (formed_mk.2 hs) (formed_ite hs (formed_mk.2 (formed_mark _ _ hs))))
  · exact nextFormed_next hs

/-! Engines and tiers. -/

omit hs in
theorem nextFormed_finishWith {t : BitVec 10} {d : Cmd} {e : Effect}
    (he : Ends (EStopFormed c) (fun x => Formed c x.1) e) : NextFormed c (finishWith t d e) := by
  cases e with
  | ok x => exact nextFormed_next (formed_finishCmd _ _ _ he)
  | error e =>
    cases e with
    | cancel s => exact nextFormed_next (formed_cutCmd _ _ he)
    | fault k s => exact nextFormed_next (formed_finishCmd _ _ _ (formed_defer _ _ _ he))
    | wait s => exact nextFormed_next he
    | hole pa => exact nextFormed_fault

omit hs in
theorem nextFormed_exchanged {e : Except EStop State} (he : Ends (EStopFormed c) (Formed c) e) :
    NextFormed c (exchanged e) := by
  cases e with
  | ok s => exact nextFormed_next he
  | error e =>
    cases e with
    | cancel s => exact nextFormed_next he
    | fault k s => exact nextFormed_next he
    | wait s => exact nextFormed_next he
    | hole pa => exact nextFormed_fault

theorem nextFormed_finishRunning (t : BitVec 10) (d : Cmd) : NextFormed c (finishRunning t d s) := by
  unfold finishRunning
  split
  · exact nextFormed_next hs
  · exact nextFormed_next (formed_ite (formed_finishCmd _ _ _ hs) (formed_finishEvict _ _ hs))
  · exact nextFormed_ite (nextFormed_next (formed_finishCmd _ _ _ hs)) (nextFormed_exchanged (ends_finishColl hs))
  · refine nextFormed_ite (nextFormed_next (formed_finishCmd _ _ _ hs)) ?_
    have h := ends_finishRing (t := t) (c := d) hs
    split
    · rename_i s hr
      have hs : Formed c s := h.of_error hr
      exact nextFormed_next (formed_finishCmd _ _ _ hs)
    · exact nextFormed_exchanged h
  · exact nextFormed_ite (nextFormed_next (formed_finishCmd _ _ _ hs)) (nextFormed_finishWith (ends_runEffect hs))

theorem nextFormed_execEngineCommandFinish (tile : BitVec 10) (n : Nat) :
    NextFormed c (execEngineCommandFinish tile n s) := by
  unfold execEngineCommandFinish
  split
  · exact nextFormed_next hs
  · exact nextFormed_ite (nextFormed_settled (nextFormed_finishRunning (formed_asCommand _ hs) _ _))
      (nextFormed_next (formed_ite (formed_finishCmd _ _ _ hs) hs))

theorem nextFormed_execTableWalk (tile : BitVec 10) (region : BitVec 16) (va : BitVec 64) :
    NextFormed c (execTableWalk tile region va s) := by
  have h := ends_lookup (t := tile) (r := region) (va := va.toNat) hs
  refine nextFormed_next (formed_ite ?_ hs)
  split
  · exact h.of_ok ‹_›
  · exact h.of_error ‹_›

theorem nextFormed_execCompaction (die : BitVec 2) (k : BitVec 5) : NextFormed c (execCompaction die k s) := by
  refine nextFormed_next (formed_ite hs (formed_ite (formed_endCompaction _ hs) ?_))
  split
  · exact formed_endCompaction _ hs
  · exact formed_startMoves _ (formed_modDie _ _ hs)

theorem nextFormed_execBorrow (die : BitVec 2) : NextFormed c (execBorrow die s) :=
  nextFormed_next (formed_ite (formed_askBatch _ hs) hs)

end

end Sys2Proof.Machine
end

section
/-! SUPPORT. The instructions of memory, synchronisation and fibres keep the invariant. -/

namespace Sys2Proof.Machine

open Sys2Proof.Claims

section
variable {cy : Form} {s : State} (hs : Formed cy s)
include hs

/-! Register jumps. -/

theorem nextFormed_execJr (a : BitVec 5) : NextFormed cy (execJr a s) :=
  nextFormed_settle ((ends_checkTarget hs).bind fun _ _ => ends_ok.2 (formed_jump _ hs))

theorem nextFormed_execCallr (a : BitVec 5) : NextFormed cy (execCallr a s) :=
  nextFormed_settle ((ends_checkTarget hs).bind fun _ _ => ends_ok.2 (formed_jump _ (formed_setG _ _ hs)))

theorem nextFormed_execRet : NextFormed cy (execRet s) :=
  nextFormed_settle ((ends_checkTarget hs).bind fun _ _ => ends_ok.2 (formed_jump _ hs))

/-! Loads and stores. -/

theorem nextFormed_execLd (d b : BitVec 5) (z : BitVec 2) (o : BitVec 8) : NextFormed cy (execLd d b z o s) := by
  refine nextFormed_settle ?_
  refine (ends_checkAligned hs).bind fun _ _ => (ends_checkAccess hs).bind fun ⟨s, e, pa⟩ hs => ?_
  exact (ends_loadPlain hs).bind fun ⟨s, bs⟩ hs => ends_ok.2 (formed_putG _ _ hs)

theorem nextFormed_execSt (d b : BitVec 5) (z : BitVec 2) (o : BitVec 8) : NextFormed cy (execSt d b z o s) := by
  refine nextFormed_settle ?_
  refine (ends_checkAligned hs).bind fun _ _ => (ends_checkAccess hs).bind fun ⟨s, e, pa⟩ hs => ?_
  exact ends_ok.2 (formed_advance _ (formed_storePlain _ _ _ _ hs))

theorem nextFormed_execLdAcq (d b : BitVec 5) (z : BitVec 2) (c : BitVec 4) (o : BitVec 8) :
    NextFormed cy (execLdAcq d b z c o s) := by
  refine nextFormed_settle ((ends_useScopeAt hs).bind fun sets _ => ?_)
  refine (ends_checkAligned hs).bind fun _ _ => (ends_checkAccess hs).bind fun ⟨s, e, pa⟩ hs => ?_
  refine (ends_loadHome (formed_volPoint e hs)).bind fun ⟨s, bs⟩ hs => ?_
  exact ends_ok.2 (formed_putG _ _ (formed_acquire _ hs))

theorem nextFormed_execStRel (d b : BitVec 5) (z : BitVec 2) (c : BitVec 4) (o : BitVec 8) :
    NextFormed cy (execStRel d b z c o s) := by
  refine nextFormed_settle ((ends_useScopeAt hs).bind fun sets _ => ?_)
  refine (ends_checkAligned hs).bind fun _ _ => (ends_checkAccess hs).bind fun ⟨s, e, pa⟩ hs => ?_
  exact ends_ok.2 (formed_advance _ (formed_issueStore _ _ _ _ _ (formed_release _ hs)))

theorem nextFormed_execLdVol (d b : BitVec 5) (z : BitVec 2) (o : BitVec 8) :
    NextFormed cy (execLdVol d b z o s) := by
  refine nextFormed_settle ?_
  refine (ends_checkAligned hs).bind fun _ _ => (ends_checkAccess hs).bind fun ⟨s, e, pa⟩ hs => ?_
  exact (ends_loadHome (formed_drainVol hs)).bind fun ⟨s, bs⟩ hs => ends_ok.2 (formed_putG _ _ hs)

theorem nextFormed_execStVol (d b : BitVec 5) (z : BitVec 2) (o : BitVec 8) :
    NextFormed cy (execStVol d b z o s) := by
  refine nextFormed_settle ?_
  refine (ends_checkAligned hs).bind fun _ _ => (ends_checkAccess hs).bind fun ⟨s, e, pa⟩ hs => ?_
  exact ends_ok.2 (formed_advance _ (formed_issueStore _ _ _ _ _ hs))

/-! Atomics. -/

theorem nextFormed_execAmoW (d a b : BitVec 5) (c o : BitVec 4) : NextFormed cy (execAmoW d a b c o s) :=
  nextFormed_settle ((ends_atomicAct hs).bind fun ⟨_, _, _, _⟩ hs => ends_ok.2 (formed_putG _ _ (formed_acquire _ hs)))

theorem nextFormed_execAmoD (d a b : BitVec 5) (c o : BitVec 4) : NextFormed cy (execAmoD d a b c o s) :=
  nextFormed_settle ((ends_atomicAct hs).bind fun ⟨_, _, _, _⟩ hs => ends_ok.2 (formed_putG _ _ (formed_acquire _ hs)))

theorem nextFormed_execAmoFFp32 (d a b : BitVec 5) (c : BitVec 4) : NextFormed cy (execAmoFFp32 d a b c s) :=
  nextFormed_settle ((ends_atomicAct hs).bind fun ⟨_, _, _, _⟩ hs => ends_ok.2 (formed_putG _ _ (formed_acquire _ hs)))

theorem nextFormed_execAmoFBf16 (d a b : BitVec 5) (c : BitVec 4) : NextFormed cy (execAmoFBf16 d a b c s) :=
  nextFormed_settle ((ends_atomicAct hs).bind fun ⟨_, _, _, _⟩ hs => ends_ok.2 (formed_putG _ _ (formed_acquire _ hs)))

theorem nextFormed_execCas (d a b : BitVec 5) (c : BitVec 4) (z : BitVec 1) : NextFormed cy (execCas d a b c z s) :=
  nextFormed_settle ((ends_atomicAct hs).bind fun ⟨_, _, _, _⟩ hs =>
    ends_ok.2 (formed_putG _ _ (formed_setP _ _ (formed_acquire _ hs))))

/-! Synchronisation. -/

theorem nextFormed_execFence (c : BitVec 4) : NextFormed cy (execFence c s) :=
  nextFormed_settle ((ends_useScope hs).bind fun _ _ =>
    ends_ok.2 (formed_advance _ (formed_acquire _ (formed_release _ hs))))

theorem nextFormed_execBarInit (a b : BitVec 5) (c : BitVec 4) : NextFormed cy (execBarInit a b c s) := by
  refine nextFormed_settle (Ends.ite (ends_ok.2 (formed_putP _ _ hs)) ?_)
  refine (ends_useScopeAt hs).bind fun sets _ => (ends_checkAligned hs).bind fun _ _ => ?_
  refine (ends_checkAccess hs).bind fun ⟨s, e, pa⟩ hs => ends_ok.2 (formed_putP _ _ (formed_wakeBarrier _ ?_))
  exact formed_performStore _ _ _ _ _ (formed_dropBoth _ _ _ (formed_drainAt _ _ (formed_volPoint _
    (formed_release _ hs))))

theorem nextFormed_execBarArrive (a b : BitVec 5) (c : BitVec 4) : NextFormed cy (execBarArrive a b c s) :=
  nextFormed_settle ((ends_atomicAct hs).bind fun ⟨_, _, _, _⟩ hs =>
    Ends.ite (ends_ok.2 (formed_advance _ (formed_wakeBarrier _ hs))) (ends_error.2 hs))

theorem nextFormed_execBarWait (a b : BitVec 5) (c : BitVec 4) : NextFormed cy (execBarWait a b c s) := by
  refine nextFormed_settle ((ends_reclaimPoint hs).bind fun _ _ => (ends_flush hs).bind fun s hs => ?_)
  extract_lets wait
  have hwait : ∀ sets, Ends (StopFormed cy) (Formed cy) (wait sets) := fun sets => by
    refine (ends_checkAligned hs).bind fun _ _ => (ends_checkAccess hs).bind fun ⟨s, e, pa⟩ hs => ?_
    refine (ends_loadHome (formed_volPoint e hs)).bind fun ⟨s, bs⟩ hs => ?_
    exact Ends.ite (ends_error.2 (StopFormed_barrierWait _ _ hs)) (ends_ok.2 (formed_advance _ (formed_acquire _ hs)))
  split
  · exact hwait _
  · exact (ends_useScopeAt hs).bind fun sets _ => hwait sets

theorem nextFormed_execWfe : NextFormed cy (execWfe s) :=
  nextFormed_settle (Ends.ite (ends_ok.2 (formed_advance _ (formed_modSelf _ hs))) (ends_error.2 hs))

theorem nextFormed_execSev (c : BitVec 4) : NextFormed cy (execSev c s) :=
  nextFormed_settle ((ends_useScope hs).bind fun _ _ => (ends_checkHeld hs).bind fun _ _ =>
    ends_ok.2 (formed_advance _ (formed_setLatches _ _ (formed_release _ hs))))

theorem nextFormed_execTlwait (b : BitVec 5) (t : BitVec 2) : NextFormed cy (execTlwait b t s) := by
  refine nextFormed_settle ((ends_reclaimPoint hs).bind fun _ _ => (ends_flush hs).bind fun s hs => ?_)
  exact Ends.ite (ends_error.2 hs) ((ends_checkDeferred hs).bind fun _ _ => ends_ok.2 (formed_putP _ _ hs))

theorem nextFormed_execScopeSet (a : BitVec 5) (c : BitVec 4) : NextFormed cy (execScopeSet a c s) := by
  have hr := formed_release setsDevice hs
  refine nextFormed_settle ((ends_checkAligned hr).bind fun _ _ => (ends_checkAccess hr).bind fun ⟨s, e, _⟩ hs => ?_)
  refine (ends_loadSpan hs).bind fun ⟨s, bs⟩ hs => (ends_need hs).bind fun _ _ => ?_
  refine (ends_readBitmap hs).bind fun ⟨s, tiles⟩ hs => ?_
  refine Ends.ite_bind (ends_ok_fst hs) (ends_readBitmap hs) fun ⟨s, spads⟩ hs => ?_
  exact ends_ok.2 (formed_putP _ _ (formed_acquire _ (formed_ite (formed_scopeLive _ _ _ _ _ _ _ _ hs) hs)))

theorem nextFormed_execScopeGet (d : BitVec 5) (c : BitVec 4) : NextFormed cy (execScopeGet d c s) :=
  nextFormed_ite (nextFormed_next (formed_putG _ _ hs))
    (nextFormed_next (formed_putG _ _ (formed_watched _ _ _ _ (formed_dropLine _ _ (formed_drainHome _ hs)))))

theorem nextFormed_execScopeRetire (c : BitVec 4) : NextFormed cy (execScopeRetire c s) := by
  refine nextFormed_settle ((ends_checkHeld hs).bind fun _ _ => ends_ok.2 (formed_putP _ _ (formed_acquire _ ?_)))
  exact formed_ite (formed_pokeNat _ _ _ (formed_setScopeCopy _ _ _ (formed_release _ hs))) (formed_release _ hs)

/-! Fibres and futures. -/

theorem nextFormed_execFibNew (d a b : BitVec 5) : NextFormed cy (execFibNew d a b s) := by
  refine nextFormed_settle ((ends_need hs).bind fun _ _ => (ends_need hs).bind fun _ _ => ?_)
  refine Ends.ite (ends_ok.2 (formed_putG _ _ hs)) ((ends_needOwnBlock hs).bind fun s hs => ?_)
  generalize hp : s.placeFibre _ _ = p
  have hp : Formed cy p.2 := hp ▸ formed_placeFibre _ _ hs
  exact ends_ok.2 (formed_putG _ _ (formed_ite (formed_modFibre _ _ (formed_pokeNat _ _ _ hp))
    (formed_hold _ _ (formed_modFibre _ _ (formed_pokeNat _ _ _ hp)))))

theorem nextFormed_execSpawn (d a : BitVec 5) : NextFormed cy (execSpawn d a s) := by
  refine nextFormed_settle ((ends_need hs).bind fun _ _ => ?_)
  refine Ends.ite (ends_ok.2 (formed_putG _ _ hs)) ((ends_needOwnBlock hs).bind fun s hs => ?_)
  generalize hp : s.placeFibre _ _ = p
  have hp : Formed cy p.2 := hp ▸ formed_placeFibre _ _ hs
  exact ends_ok.2 (formed_putG _ _ (formed_makeReady _ _ (formed_ite hp (formed_hold _ _ hp))))

theorem nextFormed_execSpawnG (d a b : BitVec 5) (c : BitVec 4) : NextFormed cy (execSpawnG d a b c s) := by
  refine nextFormed_settle ((ends_need hs).bind fun _ _ => (ends_useScope hs).bind fun sets _ => ?_)
  refine (ends_need hs).bind fun _ _ => (ends_groupCounter hs).bind fun ⟨s, counter⟩ hs => ?_
  refine Ends.ite (ends_ok.2 (formed_putG _ _ hs)) ((ends_needOwnBlock hs).bind fun s hs => ?_)
  generalize hp : s.launch _ _ _ _ _ _ _ _ = p
  have hp : Formed cy p.2 := hp ▸ formed_launch _ _ _ _ _ _ _ _ hs
  exact ends_ok.2 (formed_putG _ _ hp)

theorem nextFormed_execFibDec (a b : BitVec 5) (c : BitVec 4) : NextFormed cy (execFibDec a b c s) := by
  refine nextFormed_settle ((ends_need hs).bind fun _ _ => (ends_need hs).bind fun _ _ => ?_)
  refine (ends_useScope hs).bind fun sets _ => (ends_checkHeld hs).bind fun _ _ => ?_
  exact (ends_buffer hs).bind fun s hs => ends_ok.2 (formed_advance _ hs)

theorem nextFormed_execFref (a b : BitVec 5) : NextFormed cy (execFref a b s) := by
  refine nextFormed_settle ((ends_needFuture hs).bind fun _ _ => (ends_need hs).bind fun _ _ => ?_)
  refine (ends_need hs).bind fun _ _ => (ends_checkHeld hs).bind fun _ _ => ?_
  generalize s.liveFuture (s.g a) = live
  generalize (if s.g b = 0 then s.me else s.g b) = holder
  refine Ends.ite_bind (ends_ok.2 hs) (ends_needBlock hs) fun s hs => ?_
  cases live
  · exact ends_stopWith (formed_unrecord _ (formed_record _ _ hs))
  · exact Ends.ite (ends_error.2 (formed_record _ _ hs)) (ends_ok.2 (formed_advance _ (formed_join _ _
      (formed_record _ _ hs))))

theorem nextFormed_execFdrop (a : BitVec 5) : NextFormed cy (execFdrop a s) :=
  nextFormed_settle ((ends_needFuture hs).bind fun _ _ => (ends_need hs).bind fun _ _ =>
    ends_ok.2 (formed_advance _ (formed_endRef _ _ (formed_modSelf _ hs))))

theorem nextFormed_execFconfirm (a : BitVec 5) : NextFormed cy (execFconfirm a s) :=
  nextFormed_settle ((ends_needFuture hs).bind fun _ _ => (ends_checkHeld hs).bind fun _ _ =>
    (ends_need hs).bind fun _ _ => ends_ok.2 (formed_advance _ (formed_confirm _ hs)))

theorem nextFormed_execFput (a b : BitVec 5) (c : BitVec 4) : NextFormed cy (execFput a b c s) := by
  refine nextFormed_settle ((ends_needFuture hs).bind fun _ _ => (ends_checkHeld hs).bind fun _ _ => ?_)
  refine (ends_need hs).bind fun _ _ => (ends_useScope hs).bind fun sets _ => ends_ok.2 (formed_putP _ _ ?_)
  exact formed_ite (formed_resolve _ _ (formed_release _ hs)) (formed_release _ hs)

theorem nextFormed_execFget (d a : BitVec 5) : NextFormed cy (execFget d a s) := by
  refine nextFormed_settle ((ends_reclaimPoint hs).bind fun _ _ => (ends_flush hs).bind fun s hs => ?_)
  refine (ends_needFuture hs).bind fun _ _ => Ends.ite (ends_ok.2 (formed_putP _ _ hs)) ?_
  split
  · exact ends_stopWith hs
  · exact Ends.ite (ends_ok.2 (formed_putG _ _ (formed_setP _ _ (formed_acquire _ hs)))) (ends_error.2 hs)

theorem nextFormed_execFon (a b : BitVec 5) : NextFormed cy (execFon a b s) := by
  refine nextFormed_settle ((ends_reclaimPoint hs).bind fun _ _ => (ends_flush hs).bind fun s hs => ?_)
  refine (ends_needFuture hs).bind fun _ _ => (ends_need hs).bind fun _ _ => ?_
  refine (ends_need hs).bind fun _ _ => (ends_need hs).bind fun _ _ =>
    ends_ok.2 (formed_advance _ (formed_modSelf _ ?_))
  exact formed_ite (formed_wakeWaiter _ _ (formed_modFibre _ _ hs)) (formed_modFuture _ _ (formed_modFibre _ _ hs))

theorem nextFormed_execDone : NextFormed cy (execDone s) := by
  refine nextFormed_settle ((ends_reclaimPoint hs).bind fun _ _ => (ends_checkDeferred hs).bind fun _ _ => ?_)
  exact (ends_flush hs).bind fun s hs => ends_ok.2 (formed_finish _ (formed_advance _ (formed_endRelease hs)))

end

end Sys2Proof.Machine
end

section
/-! SUPPORT. The vector, matrix and context instructions keep the invariant. -/

namespace Sys2Proof.Machine

open Sys2Proof.Claims

section
variable {cy : Form} {s : State} (hs : Formed cy s)
include hs

/-! Lane forms. -/

theorem formed_advance_setV (d : BitVec 5) (x : VWord) (tag : BitVec 4) (n : Nat) :
    Formed cy ((s.setV d x tag).advance n) :=
  formed_advance _ (formed_setV _ _ _ hs)

theorem nextFormed_execVsel (d a b : BitVec 5) (m : BitVec 3) : NextFormed cy (execVsel d a b m s) :=
  nextFormed_settle ((ends_needAgree hs).bind fun _ _ => ends_ok.2 (formed_advance_setV hs _ _ _ _))

theorem nextFormed_execVperm (d a b : BitVec 5) (m : BitVec 3) : NextFormed cy (execVperm d a b m s) :=
  nextFormed_settle ((ends_need hs).bind fun _ _ => ends_ok.2 (formed_advance_setV hs _ _ _ _))

theorem nextFormed_execVcmp (d : BitVec 3) (a b : BitVec 5) (m c : BitVec 3) : NextFormed cy (execVcmp d a b m c s) :=
  nextFormed_settle ((ends_needClass hs).bind fun _ _ => (ends_needAgree hs).bind fun _ _ =>
    ends_ok.2 (formed_advance _ (formed_setM _ _ hs)))

theorem nextFormed_execViota (d : BitVec 5) (f : BitVec 4) : NextFormed cy (execViota d f s) :=
  nextFormed_settle ((ends_need hs).bind fun _ _ => ends_ok.2 (formed_advance_setV hs _ _ _ _))

theorem nextFormed_execVlane (d a i : BitVec 5) (j : BitVec 4) : NextFormed cy (execVlane d a i j s) :=
  nextFormed_settle ((ends_need hs).bind fun _ _ => ends_ok.2 (formed_putG _ _ hs))

theorem nextFormed_execVins (d a i : BitVec 5) (j : BitVec 4) : NextFormed cy (execVins d a i j s) :=
  nextFormed_settle ((ends_need hs).bind fun _ _ => ends_ok.2 (formed_advance_setV hs _ _ _ _))

theorem nextFormed_execVscale (d a b : BitVec 5) (m : BitVec 3) : NextFormed cy (execVscale d a b m s) :=
  nextFormed_settle ((ends_needClass hs).bind fun _ _ => (ends_need hs).bind fun _ _ =>
    ends_ok.2 (formed_putV _ _ _ _ _ hs))

theorem nextFormed_execVrope (d a b : BitVec 5) (m : BitVec 3) : NextFormed cy (execVrope d a b m s) :=
  nextFormed_settle ((ends_need hs).bind fun _ _ => ends_ok.2 (formed_putV _ _ _ _ _ hs))

theorem nextFormed_execVcvt (d a : BitVec 5) (t : BitVec 4) (z : BitVec 2) (m : BitVec 3) (o : BitVec 1)
    (r : BitVec 5) : NextFormed cy (execVcvt d a t z m o r s) := by
  refine nextFormed_settle ((ends_need hs).bind fun _ _ => ?_)
  generalize mode? m.toNat = mode
  cases mode with
  | none => exact ends_stopWith hs
  | some mode =>
    exact (ends_need hs).bind fun _ _ => Ends.ite (ends_ok.2 (formed_advance_setV hs _ _ _ _))
      (ends_ok.2 (formed_advance_setV hs _ _ _ _))

/-! Vector memory. -/

theorem nextFormed_execVld (d a : BitVec 5) (f : BitVec 4) (m : BitVec 3) : NextFormed cy (execVld d a f m s) :=
  nextFormed_settle ((ends_checkAligned hs).bind fun _ _ => ends_vectorLoad hs)

theorem nextFormed_execVst (d a : BitVec 5) (m : BitVec 3) : NextFormed cy (execVst d a m s) :=
  nextFormed_settle ((ends_checkAligned hs).bind fun _ _ => (ends_judge hs).bind fun ⟨_, _⟩ hs =>
    ends_ok.2 (formed_advance _ (formed_foldl hs fun _ _ hs => formed_storeSpan _ _ _ hs)))

theorem nextFormed_execVlds (d a b : BitVec 5) (f : BitVec 4) (m : BitVec 3) :
    NextFormed cy (execVlds d a b f m s) :=
  nextFormed_settle ((ends_need hs).bind fun _ _ => ends_vectorLoad hs)

theorem nextFormed_execVgath (d a b : BitVec 5) (f : BitVec 4) (m : BitVec 3) :
    NextFormed cy (execVgath d a b f m s) :=
  nextFormed_settle ((ends_need hs).bind fun _ _ => ends_vectorLoad hs)

theorem nextFormed_execVscat (d a b : BitVec 5) (m : BitVec 3) : NextFormed cy (execVscat d a b m s) :=
  nextFormed_settle ((ends_need hs).bind fun _ _ => (ends_judge hs).bind fun ⟨_, _⟩ hs =>
    ends_ok.2 (formed_advance _ (formed_storeUnits _ _ hs)))

theorem nextFormed_execVldt (d a b : BitVec 5) (f : BitVec 4) (m : BitVec 3) :
    NextFormed cy (execVldt d a b f m s) := by
  refine nextFormed_settle (Ends.ite_bind ends_ok_unit (ends_stopAt hs) fun _ _ => ?_)
  refine (ends_judge hs).bind fun ⟨s, l⟩ hs => (ends_loadUnits hs).bind fun ⟨s, bs, k⟩ hs => ?_
  exact ends_ok.2 (formed_putV _ _ _ _ _ (formed_consumeUnits _ hs))

/-! Tile registers and accumulators. -/

theorem formed_advance_enterCmd (d : Cmd) : Formed cy ((s.enterCmd d).advance 4) :=
  formed_advance _ (formed_enterCmd _ hs)

theorem nextFormed_execTst (d : BitVec 4) (a : BitVec 5) : NextFormed cy (execTst d a s) := by
  refine nextFormed_settle ((ends_needTreg hs).bind fun _ _ => (ends_commandPoint hs).bind fun _ _ => ?_)
  refine (ends_checkAligned hs).bind fun _ _ => (ends_matrixOperand hs).bind fun ⟨s, x⟩ hs => ?_
  exact (ends_checkWrites hs).bind fun _ _ => ends_ok.2 (formed_advance_enterCmd hs _)

theorem nextFormed_execAzero (d : BitVec 2) : NextFormed cy (execAzero d s) :=
  nextFormed_settle ((ends_needAcc hs).bind fun _ _ => (ends_commandPoint hs).bind fun _ _ =>
    ends_ok.2 (formed_advance_enterCmd hs _))

theorem nextFormed_execAld (d : BitVec 2) (a : BitVec 5) : NextFormed cy (execAld d a s) := by
  refine nextFormed_settle ((ends_needAcc hs).bind fun _ _ => (ends_commandPoint hs).bind fun _ _ => ?_)
  refine (ends_checkAligned hs).bind fun _ _ => (ends_matrixOperand hs).bind fun ⟨s, x⟩ hs => ?_
  exact ends_ok.2 (formed_advance_enterCmd hs _)

theorem nextFormed_execAst (d : BitVec 2) (a : BitVec 5) : NextFormed cy (execAst d a s) := by
  refine nextFormed_settle ((ends_needAcc hs).bind fun _ _ => (ends_commandPoint hs).bind fun _ _ => ?_)
  refine (ends_checkAligned hs).bind fun _ _ => (ends_matrixOperand hs).bind fun ⟨s, x⟩ hs => ?_
  exact (ends_checkWrites hs).bind fun _ _ => ends_ok.2 (formed_advance_enterCmd hs _)

theorem nextFormed_execArow (d : BitVec 5) (a : BitVec 2) (b : BitVec 5) : NextFormed cy (execArow d a b s) :=
  nextFormed_settle ((ends_needAcc hs).bind fun _ _ => (ends_commandPoint hs).bind fun _ _ =>
    (ends_need hs).bind fun _ _ => ends_ok.2 (formed_advance_enterCmd hs _))

/-! Contexts and frames. -/

theorem nextFormed_execCtxBind (a : BitVec 5) : NextFormed cy (execCtxBind a s) := by
  refine nextFormed_settle (Ends.ite (ends_ok.2 (formed_advance _ (formed_acqrel14 hs fun s hs =>
    formed_unbind _ hs))) ?_)
  refine (ends_needCtxForm hs).bind fun _ _ => (ends_openCtx hs).bind fun ⟨s, c⟩ hs => ?_
  refine (ends_checkSlab hs).bind fun _ _ => Ends.ite_bind (ends_needBlock hs) (ends_ok.2 hs) fun s hs => ?_
  exact ends_ok.2 (formed_advance _ (formed_acqrel14 hs fun s hs => formed_ite hs (formed_bindTo _ _ hs)))

theorem nextFormed_execFpush (a : BitVec 5) : NextFormed cy (execFpush a s) := by
  refine nextFormed_settle ((ends_needCtxForm hs).bind fun _ _ => (ends_openCtx hs).bind fun ⟨s, c⟩ hs => ?_)
  refine (ends_checkSlab hs).bind fun _ _ => Ends.ite (ends_parkCtx hs) ((ends_need hs).bind fun _ _ => ?_)
  exact Ends.ite (ends_error.2 (formed_release _ hs)) (ends_ok.2 (formed_advance _ (formed_acqrel14 hs fun s hs =>
    formed_pushFrame _ hs)))

theorem nextFormed_execFarg (a b : BitVec 5) : NextFormed cy (execFarg a b s) := by
  refine nextFormed_settle ((ends_needCtxForm hs).bind fun _ _ => (ends_openCtx hs).bind fun ⟨s, c⟩ hs => ?_)
  refine (ends_checkSlab hs).bind fun _ _ => (ends_need hs).bind fun _ _ => (ends_need hs).bind fun _ _ => ?_
  exact ends_ok.2 (formed_advance _ (formed_acqrel14 hs fun s hs => formed_setCx _ _ _ _ _ (formed_pokeNat _ _ _ hs)))

theorem nextFormed_execFpro (a : BitVec 5) : NextFormed cy (execFpro a s) := by
  refine nextFormed_settle ((ends_needCtxForm hs).bind fun _ _ => (ends_openCtx hs).bind fun ⟨s, c⟩ hs => ?_)
  refine (ends_checkSlab hs).bind fun _ _ => (ends_need hs).bind fun _ _ => (ends_need hs).bind fun _ _ => ?_
  exact ends_ok.2 (formed_advance _ (formed_acqrel14 hs fun s hs => formed_setCx _ _ _ _ _ (formed_setCx _ _ _ _ _ hs)))

theorem nextFormed_execFpop (a b : BitVec 5) : NextFormed cy (execFpop a b s) := by
  refine nextFormed_settle ((ends_needCtxForm hs).bind fun _ _ => (ends_openCtx hs).bind fun ⟨s, c⟩ hs => ?_)
  refine (ends_checkSlab hs).bind fun _ _ => Ends.ite (ends_parkCtx hs) ((ends_need hs).bind fun _ _ => ?_)
  refine (ends_need hs).bind fun _ _ => (ends_need hs).bind fun _ _ => ?_
  refine Ends.ite (ends_error.2 (formed_release _ hs)) ((ends_needSlab hs).bind fun s hs => ?_)
  exact (ends_needSlab hs).bind fun s hs => ends_ok.2 (formed_advance _ (formed_acqrel14 hs fun s hs =>
    formed_publishPop _ _ _ (formed_moveTokens _ _ _ _ _ hs)))

theorem nextFormed_execFfork (d a : BitVec 5) : NextFormed cy (execFfork d a s) := by
  refine nextFormed_settle ((ends_needCtxForm hs).bind fun _ _ => (ends_openCtx hs).bind fun ⟨s, c⟩ hs => ?_)
  refine (ends_checkSlab hs).bind fun _ _ => (ends_need hs).bind fun _ _ => Ends.ite (ends_parkCtx hs) ?_
  refine Ends.ite (ends_error.2 (formed_release _ hs)) ?_
  have h := fun ph => ends_forkCtx (p := c) (ph := ph) (formed_sealFrames c (formed_release setsDevice hs))
  split
  · exact (h _).of_error ‹_›
  · rename_i ch s hr
    have hs : Formed cy s := (h _).of_ok hr
    exact ends_ok.2 (formed_putG _ _ (formed_acquire _ hs))

theorem nextFormed_execFinfo (d a : BitVec 5) (sel : BitVec 4) : NextFormed cy (execFinfo d a sel s) := by
  refine nextFormed_settle ((ends_need hs).bind fun _ _ =>
    Ends.ite ?_ (ends_ok.2 (formed_putG _ _ (formed_acquire _ hs))))
  refine (ends_needCtxForm hs).bind fun _ _ => (ends_openCtx hs).bind fun ⟨s, c⟩ hs => ?_
  exact ends_ok.2 (formed_putG _ _ (formed_acquire _ hs))

/-! Appends and attention. -/

theorem nextFormed_execKvapp (d a b : BitVec 5) (sc : BitVec 4) : NextFormed cy (execKvapp d a b sc s) := by
  refine nextFormed_settle ((ends_needCtxForm hs).bind fun _ _ => ?_)
  extract_lets l p app
  have happ : ∀ sets, Ends (StopFormed cy) (Formed cy) (app sets) := fun sets => by
    refine (ends_openCtx hs).bind fun ⟨s, c⟩ hs => (ends_need hs).bind fun _ _ => ?_
    refine (ends_loadChecked hs).bind fun ⟨s1, key⟩ h1 => (ends_loadChecked h1).bind fun ⟨s2, val⟩ h2 => ?_
    refine (ends_checkSlab hs).bind fun _ _ => (ends_judgeAppend hs).bind fun _ _ => ?_
    refine (ends_appendReady hs).bind fun _ _ => ?_
    exact (ends_appendReady h2).bind fun ⟨s', x⟩ hs => ends_ok.2 (formed_advance _ (formed_append _ _ _ _ _ _ _ hs))
  split
  · exact happ _
  · exact (ends_useScope hs).bind fun sets _ => happ sets

theorem nextFormed_execAttn (a b : BitVec 5) (sc : BitVec 4) : NextFormed cy (execAttn a b sc s) := by
  refine nextFormed_settle ((ends_commandPoint hs).bind fun _ _ => (ends_needCtxForm hs).bind fun _ _ => ?_)
  refine (ends_useScope hs).bind fun sets _ => (ends_openCtx hs).bind fun ⟨s, c⟩ hs => ?_
  refine (ends_readDesc hs).bind fun ⟨s, desc⟩ hs => (ends_need hs).bind fun _ _ => (ends_need hs).bind fun _ _ => ?_
  refine (ends_checkAligned hs).bind fun _ _ => (ends_checkAligned hs).bind fun _ _ => ?_
  refine (ends_matrixOperand hs).bind fun ⟨s, q⟩ hs => (ends_matrixOperand hs).bind fun ⟨s, x⟩ hs => ?_
  refine Ends.ite_bind (ends_ok_fst hs) (ends_matrixOperand hs) fun ⟨s, _⟩ hs => ?_
  refine (ends_checkWrites hs).bind fun _ _ => (ends_need hs).bind fun _ _ => ?_
  exact ends_ok.2 (formed_advance_enterCmd (formed_joinEpoch _ (formed_acquire _ hs)) _)

theorem nextFormed_execAttnFin (d a : BitVec 5) : NextFormed cy (execAttnFin d a s) := by
  refine nextFormed_settle ((ends_commandPoint hs).bind fun _ _ => (ends_checkAligned hs).bind fun _ _ => ?_)
  refine (ends_checkAligned hs).bind fun _ _ => (ends_matrixOperand hs).bind fun ⟨s, x⟩ hs => ?_
  refine (ends_matrixOperand hs).bind fun ⟨s, y⟩ hs => (ends_checkWrites hs).bind fun _ _ => ?_
  exact ends_ok.2 (formed_advance_enterCmd hs _)

end

end Sys2Proof.Machine
end

section
/-! SUPPORT. The copies, the exchanges, the range and system forms and the mailbox keep the invariant. -/

namespace Sys2Proof.Machine

open Sys2Proof.Claims

section
variable {cy : Form} {s : State} (hs : Formed cy s)
include hs

/-! Copies and exchanges. -/

theorem nextFormed_execRoute (d a : BitVec 5) (c : BitVec 4) : NextFormed cy (execRoute d a c s) := by
  refine nextFormed_settle ((ends_commandPoint hs).bind fun _ _ => (ends_useScope hs).bind fun sets _ => ?_)
  refine (ends_readDesc hs).bind fun ⟨s, desc⟩ hs => (ends_need hs).bind fun _ _ => (ends_need hs).bind fun _ _ => ?_
  refine (ends_readAreas hs).bind fun ⟨s, src⟩ hs => (ends_localOperand hs).bind fun ⟨s, dst⟩ hs => ?_
  exact (ends_checkHeld hs).bind fun _ _ => ends_ok.2 (formed_advance_enterCmd hs _)

theorem nextFormed_execCpy (d a b : BitVec 5) : NextFormed cy (execCpy d a b s) := by
  refine nextFormed_settle ((ends_commandPoint hs).bind fun _ _ => (ends_needLength hs).bind fun _ _ => ?_)
  refine (ends_operand hs).bind fun ⟨s, src⟩ hs => (ends_operand hs).bind fun ⟨s, dst⟩ hs => ?_
  exact (ends_checkWrites hs).bind fun _ _ => ends_ok.2 (formed_advance_enterCmd hs _)

theorem nextFormed_execCpyT (d a b : BitVec 5) : NextFormed cy (execCpyT d a b s) := by
  refine nextFormed_settle ((ends_commandPoint hs).bind fun _ _ => (ends_needLength hs).bind fun _ _ => ?_)
  refine (ends_need hs).bind fun _ _ => (ends_operand hs).bind fun ⟨s, src⟩ hs => ?_
  refine (ends_operand hs).bind fun ⟨s, dst⟩ hs => (ends_checkWrites hs).bind fun _ _ => ?_
  exact ends_ok.2 (formed_advance_enterCmd hs _)

theorem nextFormed_execCpyMc (d a b : BitVec 5) (c : BitVec 4) : NextFormed cy (execCpyMc d a b c s) := by
  refine nextFormed_settle ((ends_commandPoint hs).bind fun _ _ => (ends_useScope hs).bind fun sets _ => ?_)
  refine (ends_needLength hs).bind fun _ _ => (ends_operand hs).bind fun ⟨s, src⟩ hs => ?_
  refine (ends_localOperand hs).bind fun ⟨s, dst⟩ hs => (ends_checkHeld hs).bind fun _ _ => ?_
  exact ends_ok.2 (formed_advance_enterCmd hs _)

theorem nextFormed_execColl (a : BitVec 5) (c : BitVec 4) : NextFormed cy (execColl a c s) := by
  refine nextFormed_settle ((ends_commandPoint hs).bind fun _ _ => (ends_useScope hs).bind fun sets _ => ?_)
  refine (ends_readDesc hs).bind fun ⟨s, desc⟩ hs => (ends_need hs).bind fun _ _ => (ends_need hs).bind fun _ _ => ?_
  refine (ends_localOperand hs).bind fun ⟨s, src⟩ hs => (ends_localOperand hs).bind fun ⟨s, dst⟩ hs => ?_
  refine (ends_checkHeld hs).bind fun _ _ => ends_ok.2 (formed_advance _ ?_)
  exact formed_ite (formed_enterCancelled _ hs) (formed_enterCmd _ hs)

theorem nextFormed_execRing (a : BitVec 5) (c : BitVec 4) : NextFormed cy (execRing a c s) := by
  refine nextFormed_settle ((ends_commandPoint hs).bind fun _ _ => (ends_useScope hs).bind fun sets _ => ?_)
  refine (ends_readDesc hs).bind fun ⟨s, desc⟩ hs => (ends_need hs).bind fun _ _ => ?_
  refine (ends_localOperand hs).bind fun ⟨s, held⟩ hs => (ends_localOperand hs).bind fun ⟨s, _⟩ hs => ?_
  refine (ends_localOperand hs).bind fun ⟨s, fwd⟩ hs => (ends_localOperand hs).bind fun ⟨s, rcv⟩ hs => ?_
  refine (ends_localOperand hs).bind fun ⟨s, _⟩ hs => (ends_checkHeld hs).bind fun _ _ => ?_
  exact ends_ok.2 (formed_advance_enterCmd hs _)

theorem nextFormed_execPromo (d a b : BitVec 5) (k : BitVec 2) : NextFormed cy (execPromo d a b k s) := by
  refine nextFormed_settle ((ends_commandPoint hs).bind fun _ _ => (ends_need hs).bind fun _ _ => ?_)
  refine (ends_needLength hs).bind fun _ _ => (ends_operand hs).bind fun ⟨s, src⟩ hs => ?_
  refine (ends_operand hs).bind fun ⟨s, dst⟩ hs => Ends.ite_bind ends_ok_unit (ends_stopAt hs) fun _ _ => ?_
  exact (ends_checkHeld hs).bind fun _ _ => ends_ok.2 (formed_advance_enterCmd hs _)

theorem nextFormed_execEvict (a b : BitVec 5) : NextFormed cy (execEvict a b s) := by
  refine nextFormed_settle ((ends_commandPoint hs).bind fun _ _ => (ends_needLength hs).bind fun _ _ => ?_)
  refine (ends_operand hs).bind fun ⟨s, _⟩ hs => (ends_checkHeld hs).bind fun _ _ => ?_
  exact ends_ok.2 (formed_advance_enterCmd hs _)

/-! Ranges. -/

theorem nextFormed_execRprobe (d a : BitVec 5) : NextFormed cy (execRprobe d a s) := by
  refine nextFormed_ite (nextFormed_next (formed_putG _ _ (formed_setP _ _ hs))) ?_
  have h := ends_lookup (t := s.cur.tile) (r := s.self.region) (va := (s.g a).toNat) hs
  split
  · rename_i s e hr
    have hs : Formed cy s := h.of_ok hr
    exact nextFormed_next (formed_putG _ _ (formed_setP _ _ hs))
  · rename_i s hr
    have hs : Formed cy s := h.of_error hr
    exact nextFormed_next (formed_putG _ _ (formed_setP _ _ hs))

theorem nextFormed_execRinv (a : BitVec 5) (c : BitVec 4) : NextFormed cy (execRinv a c s) := by
  refine nextFormed_settle ?_
  extract_lets q va inv
  have hinv : ∀ sets, Ends (StopFormed cy) (Formed cy) (inv sets) := fun sets => by
    refine (ends_checkHeld hs).bind fun _ _ => Ends.ite (ends_error.2 ?_) (ends_ok.2 (formed_advance _ ?_))
    · exact formed_modSelf _ (formed_dropThose _ _ _ _ (formed_release _ hs))
    · exact formed_acquire _ (formed_dropThose _ _ _ _ (formed_release _ hs))
  split
  · exact hinv _
  · exact (ends_useScope hs).bind fun sets _ => hinv sets

theorem nextFormed_execRset (a : BitVec 5) : NextFormed cy (execRset a s) := by
  refine nextFormed_settle ((ends_checkHeld hs).bind fun _ _ => ?_)
  refine (ends_loadChecked (formed_release _ hs)).bind fun ⟨s, bs⟩ hs => ?_
  dsimp only
  generalize entryOfBytes bs = e
  generalize (rsetForm bs && e.allowed) = ok
  generalize (!s.overlapsOther _ e) = apart
  generalize hact : s.rsetAct _ e = act
  exact (ends_need hs).bind fun _ _ => (ends_need hs).bind fun _ _ => ends_treeEnd hs (ends_rsetAct hs hact)

theorem nextFormed_execRmove (a b : BitVec 5) (c : BitVec 4) : NextFormed cy (execRmove a b c s) := by
  refine nextFormed_settle ((ends_commandPoint hs).bind fun _ _ => (ends_useScope hs).bind fun sets _ => ?_)
  dsimp only
  generalize (if (s.g a).toNat < 2 ^ 56 then s.leafAt s.self.region (s.g a).toNat else none) = leaf
  cases leaf with
  | none => exact ends_stopAt hs
  | some l =>
    refine (ends_need hs).bind fun _ _ => (ends_causeAt (ends_moveAccess hs)).bind fun _ _ => ?_
    refine (ends_checkHeld hs).bind fun _ _ => Ends.ite (ends_ok.2 (formed_putP _ _ hs)) ?_
    exact ends_ok.2 (formed_putP _ _ (formed_enterCmd _ hs))

theorem nextFormed_execRcompact (a b : BitVec 5) : NextFormed cy (execRcompact a b s) :=
  nextFormed_settle ((ends_needPrivilege hs).bind fun _ _ => (ends_checkHeld hs).bind fun _ _ =>
    (ends_need hs).bind fun _ _ => ends_ok.2 (formed_putP _ _ (formed_ite (formed_modDie _ _ hs) hs)))

/-! System forms. -/

theorem nextFormed_execEret (a b : BitVec 5) : NextFormed cy (execEret a b s) := by
  refine nextFormed_settle ((ends_needPrivilege hs).bind fun _ _ => (ends_need hs).bind fun _ _ => ?_)
  have h := fun x => formed_putP (s := s) 7 x hs
  exact ends_ok.2 (formed_ite (h _) (formed_ite (formed_dispose _ _ (formed_drainFibre _ (h _)))
    (formed_dispose _ _ (h _))))

theorem nextFormed_execSysr (d n m : BitVec 5) : NextFormed cy (execSysr d n m s) := by
  refine nextFormed_settle ((ends_needPrivilege hs).bind fun _ _ => ?_)
  generalize s.sysreg (sysregNumber n m) = x
  cases x with
  | none => exact ends_stopWith hs
  | some x => exact ends_ok.2 (formed_putG _ _ hs)

theorem nextFormed_execSysw (d n m : BitVec 5) : NextFormed cy (execSysw d n m s) := by
  refine nextFormed_settle ((ends_needPrivilege hs).bind fun _ _ => ?_)
  refine Ends.ite ((ends_need hs).bind fun _ _ => ends_ok.2 (formed_advance _ (formed_modDie _ _ hs))) ?_
  refine Ends.ite ((ends_need hs).bind fun _ _ => ends_ok.2 (formed_advance _ (formed_raise _ hs))) ?_
  refine Ends.ite ((ends_need hs).bind fun _ _ => ends_ok.2 ?_) (ends_stopWith hs)
  have h := fun x => formed_advance (s := s.setP 7 x) 4 (formed_setP _ _ hs)
  exact formed_ite (formed_rgnctlFreeze _ _ (h _)) (formed_rgnctlThaw _ _ (h _))

theorem nextFormed_execHalt : NextFormed cy (execHalt s) :=
  nextFormed_settle ((ends_needPrivilege hs).bind fun _ _ =>
    ends_ok.2 (formed_askFreeze _ (formed_modSelf _ (formed_advance _ hs))))

theorem nextFormed_execCarve (a : BitVec 5) : NextFormed cy (execCarve a s) :=
  nextFormed_settle ((ends_needPrivilege hs).bind fun _ _ => (ends_need hs).bind fun _ _ =>
    (ends_need hs).bind fun _ _ => ends_ok.2 (formed_advance _ (formed_writeCarve _ _ _ _ hs)))

theorem nextFormed_execWpset (a b : BitVec 5) : NextFormed cy (execWpset a b s) := by
  refine nextFormed_settle ((ends_needPrivilege hs).bind fun _ _ => (ends_loadChecked hs).bind fun ⟨s, bs⟩ hs => ?_)
  exact (ends_need hs).bind fun _ _ => ends_ok.2 (formed_advance _ (formed_setPairs _ _ hs))

theorem nextFormed_execSstep (a : BitVec 5) : NextFormed cy (execSstep a s) := by
  refine nextFormed_settle ((ends_needPrivilege hs).bind fun _ _ => (ends_need hs).bind fun _ _ => ?_)
  exact Ends.ite (ends_ok.2 (formed_mk.2 (formed_modSelf _ (formed_putP _ _ hs)))) (ends_ok.2 (formed_putP _ _ hs))

/-! The mailbox. -/

theorem formed_command {code : Nat} {early : Bool} {fits : Nat → Bool} {f : State → State}
    (hf : Formed cy (f s)) : Formed cy (s.command code early fits f) :=
  formed_ite hs (formed_ite (formed_answer _ _ hs) (formed_ite hf (formed_answer _ _ hs)))

theorem nextFormed_execIdent : NextFormed cy (execIdent s) :=
  nextFormed_next (formed_command hs (formed_answer _ _ hs))

theorem nextFormed_execAttest : NextFormed cy (execAttest s) :=
  nextFormed_next (formed_command hs (formed_answer _ _ hs))

theorem nextFormed_execReadback : NextFormed cy (execReadback s) := by
  refine nextFormed_next (formed_command hs ?_)
  extract_lets a
  split
  · exact formed_answer _ _ hs
  · exact formed_answer _ _ hs

theorem nextFormed_execFreeze : NextFormed cy (execFreeze s) := by
  refine nextFormed_next (formed_command hs ?_)
  split
  · exact formed_answer _ _ hs
  · exact formed_ite (formed_answer _ _ hs) (formed_waitFor _ _ (formed_askFreeze _ hs))

theorem nextFormed_execThaw : NextFormed cy (execThaw s) := by
  refine nextFormed_next (formed_command hs ?_)
  split
  · exact formed_answer _ _ hs
  split
  · exact formed_answer _ _ hs
  · exact formed_ite (formed_waitFor _ _ hs) (formed_ite (formed_waitFor _ _ (formed_modRegion _ _ hs))
      (formed_ite (formed_answer _ _ (formed_thaw _ hs)) (formed_ite (formed_waitFor _ _ (formed_thaw _ hs))
        (formed_answer _ _ hs))))

theorem nextFormed_execFwstage : NextFormed cy (execFwstage s) :=
  nextFormed_next (formed_command hs (formed_answer _ _ (formed_modHub _ hs)))

theorem nextFormed_execFwcommit : NextFormed cy (execFwcommit s) :=
  nextFormed_next (formed_command hs (formed_ite (formed_answer _ _ hs)
    (formed_ite (formed_answer _ _ (formed_modHub _ hs)) (formed_answer _ _ hs))))

theorem nextFormed_execLinks : NextFormed cy (execLinks s) :=
  nextFormed_next (formed_command hs (formed_answer _ _ hs))

theorem nextFormed_execMailboxBadcmd : NextFormed cy (execMailboxBadcmd s) :=
  nextFormed_next (formed_ite hs (formed_ite (formed_answer _ _ hs) (formed_answer _ _ hs)))

end

/-- The mailbox's reset restarts the module, and its memory is what it was. -/
theorem nextFormed_execReset {s : State} (hs : Formed canonicalForm s) : NextFormed canonicalForm (execReset s) :=
  nextFormed_next (formed_command hs (formed_restart hs))

end Sys2Proof.Machine
end

section
/-! SUPPORT. Every step keeps the memory and the cellar in canonical form: the instructions, the choice of one, and the
agenda. -/

namespace Sys2Proof.Machine

open Sys2Proof.Claims

/-- An instruction or an event leaves a state in canonical form, if it leaves one. -/
theorem nextFormed_exec (i : Instr) {s : State} (hs : Formed canonicalForm s) :
    NextFormed canonicalForm (exec i s) := by
  cases i
  case fuseLoad | clockCalibration | sramRepair | linkCalibration | hbmTraining =>
    exact nextFormed_next (formed_bringUp _ _ hs)
  case portEqualisation x y z => exact nextFormed_execPortEqualisation hs x y z
  case hbmZeroing x => exact nextFormed_execHbmZeroing hs x
  case sramZeroing x => exact nextFormed_execSramZeroing hs x
  case portFailure x => exact nextFormed_execPortFailure hs x
  case linkDomainFormation x y z => exact nextFormed_execLinkDomainFormation hs x y z
  case timeSync x y z => exact nextFormed_execTimeSync hs x y z
  case driveFailure x => exact nextFormed_execDriveFailure hs x
  case hostMessage x y => exact nextFormed_execHostMessage hs x y
  case hostMessageTimeout x => exact nextFormed_execHostMessageTimeout hs x
  case hostHdmAccess x y z => exact nextFormed_execHostHdmAccess hs x y z
  case registerWrite x y => exact nextFormed_execRegisterWrite hs x y
  case gangArm x => exact nextFormed_execGangArm hs x
  case gangCancel x => exact nextFormed_execGangCancel hs x
  case gangFire x => exact nextFormed_execGangFire hs x
  case regionLoad x => exact nextFormed_execRegionLoad hs x
  case regionUnload x => exact nextFormed_execRegionUnload hs x
  case regionSwitchOut x => exact nextFormed_execRegionSwitchOut hs x
  case regionSwitchIn x => exact nextFormed_execRegionSwitchIn hs x
  case threadDispatch x => exact nextFormed_execThreadDispatch hs x
  case queueSpill x => exact nextFormed_execQueueSpill hs x
  case queueRefill x => exact nextFormed_execQueueRefill hs x
  case steal x => exact nextFormed_execSteal hs x
  case watchdog => exact nextFormed_next (formed_watchdog _ hs)
  case messageArrival x => exact nextFormed_execMessageArrival hs x
  case decrementArrival x => exact nextFormed_execDecrementArrival hs x
  case fibreReclaim x y => exact nextFormed_execFibreReclaim hs x y
  case engineCommandStart => exact nextFormed_next (formed_startCommand _ _ hs)
  case engineCommandFinish x y => exact nextFormed_execEngineCommandFinish hs x y
  case tableWalk x y z => exact nextFormed_execTableWalk hs x y z
  case blockFetchComplete => exact nextFormed_next (formed_fetchComplete _ _ _ hs)
  case writeBackComplete => exact nextFormed_next (formed_writeBackComplete _ _ hs)
  case moveStep => exact nextFormed_next (formed_moveStep _ hs)
  case forwardRecordRemoval => exact nextFormed_next (formed_removeRecords _ hs)
  case compaction x y => exact nextFormed_execCompaction hs x y
  case borrow x => exact nextFormed_execBorrow hs x
  case batchReturn => exact nextFormed_next (formed_batchReturn _ _ hs)
  case rangeRelease x => exact nextFormed_execRangeRelease hs x
  case scopeDrain x y => exact nextFormed_execScopeDrain hs x y
  case barrierWake | pauseExpiry => exact nextFormed_next (formed_modThread _ _ hs)
  case tileStop => exact nextFormed_next (formed_tileStop _ _ hs)
  case cutClose => exact nextFormed_next (formed_cutClose _ hs)
  case rgnctlFreeze => exact nextFormed_next (formed_rgnctlFreeze _ _ hs)
  case rgnctlThaw => exact nextFormed_next (formed_rgnctlThaw _ _ hs)
  case hostSignal x => exact nextFormed_execHostSignal hs x
  case add | sub | and | or | xor | shl | shr | sra | mul | mulh | mulhu | div | divu | rem | remu | min | max |
    minu | maxu | clz | ctz | pop | ext | ins | sel | addi | andi | ori | xori | shli | shri | srai | li | lih |
    addpc | tlread | wptr =>
    exact nextFormed_next (formed_putG _ _ hs)
  case cmp | cmpi | pand | por | pxor | pnot => exact nextFormed_next (formed_putP _ _ hs)
  case b | bz | bnz => exact nextFormed_next (formed_branch _ _ hs)
  case j => exact nextFormed_next (formed_jump _ hs)
  case call => exact nextFormed_next (formed_jump _ (formed_setG _ _ hs))
  case jr x => exact nextFormed_execJr hs x
  case callr x => exact nextFormed_execCallr hs x
  case loop => exact nextFormed_next (formed_branch _ _ (formed_setG _ _ hs))
  case ld x y z w => exact nextFormed_execLd hs x y z w
  case st x y z w => exact nextFormed_execSt hs x y z w
  case ldAcq x y z w u => exact nextFormed_execLdAcq hs x y z w u
  case stRel x y z w u => exact nextFormed_execStRel hs x y z w u
  case ldVol x y z w => exact nextFormed_execLdVol hs x y z w
  case stVol x y z w => exact nextFormed_execStVol hs x y z w
  case pref => exact nextFormed_next (formed_advance _ (formed_prefetch _ hs))
  case amoW x y z w u => exact nextFormed_execAmoW hs x y z w u
  case amoD x y z w u => exact nextFormed_execAmoD hs x y z w u
  case amoFFp32 x y z w => exact nextFormed_execAmoFFp32 hs x y z w
  case amoFBf16 x y z w => exact nextFormed_execAmoFBf16 hs x y z w
  case cas x y z w u => exact nextFormed_execCas hs x y z w u
  case fence x => exact nextFormed_execFence hs x
  case barInit x y z => exact nextFormed_execBarInit hs x y z
  case barArrive x y z => exact nextFormed_execBarArrive hs x y z
  case barWait x y z => exact nextFormed_execBarWait hs x y z
  case sev x => exact nextFormed_execSev hs x
  case tlwait x y => exact nextFormed_execTlwait hs x y
  case scopeSet x y => exact nextFormed_execScopeSet hs x y
  case scopeGet x y => exact nextFormed_execScopeGet hs x y
  case scopeRetire x => exact nextFormed_execScopeRetire hs x
  case pause => exact nextFormed_next (formed_ite (formed_advance _ hs) (formed_modSelf _ (formed_advance _ hs)))
  case send | sendT => exact nextFormed_settle (ends_sendBody hs)
  case fibNew x y z => exact nextFormed_execFibNew hs x y z
  case spawn x y => exact nextFormed_execSpawn hs x y
  case spawnG x y z w => exact nextFormed_execSpawnG hs x y z w
  case fibDec x y z => exact nextFormed_execFibDec hs x y z
  case fref x y => exact nextFormed_execFref hs x y
  case fdrop x => exact nextFormed_execFdrop hs x
  case fconfirm x => exact nextFormed_execFconfirm hs x
  case fput x y z => exact nextFormed_execFput hs x y z
  case fget x y => exact nextFormed_execFget hs x y
  case fon x y => exact nextFormed_execFon hs x y
  case vadd | vsub | vmul | vmax | vmin | vfma | vadd16 | vsub16 | vmul16 | vmax16 | vmin16 =>
    exact nextFormed_settle (ends_laneBody hs)
  case vand | vor | vxor | vand16 | vor16 | vxor16 => exact nextFormed_settle (ends_bitBody hs)
  case vshl | vshr | vshl16 | vshr16 => exact nextFormed_settle (ends_shiftBody hs)
  case vsel x y z w => exact nextFormed_execVsel hs x y z w
  case vperm x y z w => exact nextFormed_execVperm hs x y z w
  case vabs | vneg | vabs16 | vneg16 => exact nextFormed_settle (ends_oneBody hs)
  case vexp2 | vlog2 | vrcp | vrsqrt | vexp216 | vrcp16 | vrsqrt16 => exact nextFormed_settle (ends_funBody hs)
  case vmov | vmov16 => exact nextFormed_settle (ends_movBody hs)
  case vcmp x y z w u => exact nextFormed_execVcmp hs x y z w u
  case vredAdd | vredMax | vredMin => exact nextFormed_settle (ends_reduceBody hs)
  case vbcast => exact nextFormed_next (formed_advance_setV hs _ _ _ _)
  case viota x y => exact nextFormed_execViota hs x y
  case vlane x y z w => exact nextFormed_execVlane hs x y z w
  case vins x y z w => exact nextFormed_execVins hs x y z w
  case vscale x y z w => exact nextFormed_execVscale hs x y z w
  case vrope x y z w => exact nextFormed_execVrope hs x y z w
  case vrng => exact nextFormed_next (formed_advance_setV hs _ _ _ _)
  case vcvt x y z w u v t => exact nextFormed_execVcvt hs x y z w u v t
  case vld x y z w => exact nextFormed_execVld hs x y z w
  case vst x y z => exact nextFormed_execVst hs x y z
  case vlds x y z w u => exact nextFormed_execVlds hs x y z w u
  case vgath x y z w u => exact nextFormed_execVgath hs x y z w u
  case vscat x y z w => exact nextFormed_execVscat hs x y z w
  case vldt x y z w u => exact nextFormed_execVldt hs x y z w u
  case tld | tldT => exact nextFormed_settle (ends_issueTld hs)
  case tst x y => exact nextFormed_execTst hs x y
  case mma | mmaS => exact nextFormed_settle (ends_issueMma hs)
  case azero x => exact nextFormed_execAzero hs x
  case ald x y => exact nextFormed_execAld hs x y
  case ast x y => exact nextFormed_execAst hs x y
  case arow x y z => exact nextFormed_execArow hs x y z
  case ctxBind x => exact nextFormed_execCtxBind hs x
  case fpush x => exact nextFormed_execFpush hs x
  case farg x y => exact nextFormed_execFarg hs x y
  case fpro x => exact nextFormed_execFpro hs x
  case fpop x y => exact nextFormed_execFpop hs x y
  case ffork x y => exact nextFormed_execFfork hs x y
  case finfo x y z => exact nextFormed_execFinfo hs x y z
  case kvapp x y z w => exact nextFormed_execKvapp hs x y z w
  case attn x y z => exact nextFormed_execAttn hs x y z
  case attnFin x y => exact nextFormed_execAttnFin hs x y
  case rng | topk | gmask | draw | drawv | accept => exact nextFormed_settle (ends_issueDraw hs)
  case route x y z => exact nextFormed_execRoute hs x y z
  case cpy x y z => exact nextFormed_execCpy hs x y z
  case cpyT x y z => exact nextFormed_execCpyT hs x y z
  case cpyMc x y z w => exact nextFormed_execCpyMc hs x y z w
  case gath | scat => exact nextFormed_settle (ends_issueGs hs)
  case coll x y => exact nextFormed_execColl hs x y
  case ring x y => exact nextFormed_execRing hs x y
  case promo x y z w => exact nextFormed_execPromo hs x y z w
  case evict x y => exact nextFormed_execEvict hs x y
  case pin | unpin => exact nextFormed_settle (ends_pinBody hs)
  case rprobe x y => exact nextFormed_execRprobe hs x y
  case rsplit => exact nextFormed_settle (ends_treeForm hs fun _ hs _ hact => ends_splitRange hs hact)
  case rmerge => exact nextFormed_settle (ends_treeForm hs fun _ hs _ hact => ends_mergeRanges hs hact)
  case rinv x y => exact nextFormed_execRinv hs x y
  case rset x => exact nextFormed_execRset hs x
  case rmove x y z => exact nextFormed_execRmove hs x y z
  case rcompact x y => exact nextFormed_execRcompact hs x y
  case eret x y => exact nextFormed_execEret hs x y
  case sysr x y z => exact nextFormed_execSysr hs x y z
  case sysw x y z => exact nextFormed_execSysw hs x y z
  case carve x => exact nextFormed_execCarve hs x
  case wpset x y => exact nextFormed_execWpset hs x y
  case sstep x => exact nextFormed_execSstep hs x
  case accessPerformedAtHome x => exact nextFormed_execAccessPerformedAtHome hs x
  case fetchStop x y z => exact nextFormed_execFetchStop hs x y z
  case notAnInstruction x y => exact nextFormed_execNotAnInstruction hs x y
  case uncorrectableError x => exact nextFormed_execUncorrectableError hs x
  case hostAccessTimeout x => exact nextFormed_execHostAccessTimeout hs x
  case powerOn | pcieConventionalReset | functionLevelReset => exact nextFormed_next (formed_restart hs)
  case atticKernelVerify => exact nextFormed_execAtticKernelVerify hs
  case bootImageLoad => exact nextFormed_execBootImageLoad hs
  case linkLost => exact nextFormed_execLinkLost hs
  case thermalThrottle | thermalRecovery => exact nextFormed_next (formed_mk.2 hs)
  case stopTemperature => exact nextFormed_execStopTemperature hs
  case ident => exact nextFormed_execIdent hs
  case attest => exact nextFormed_execAttest hs
  case readback => exact nextFormed_execReadback hs
  case freeze => exact nextFormed_execFreeze hs
  case thaw => exact nextFormed_execThaw hs
  case fwstage => exact nextFormed_execFwstage hs
  case fwcommit => exact nextFormed_execFwcommit hs
  case reset => exact nextFormed_execReset hs
  case links => exact nextFormed_execLinks hs
  case mailboxBadcmd => exact nextFormed_execMailboxBadcmd hs
  case ret => exact nextFormed_execRet hs
  case nop => exact nextFormed_next (formed_advance _ hs)
  case wfe => exact nextFormed_execWfe hs
  case done => exact nextFormed_execDone hs
  case keep => exact nextFormed_next (formed_advance _ (formed_modSelf _ hs))
  case trap | bkpt => exact nextFormed_settle (ends_stopWith hs)
  case halt => exact nextFormed_execHalt hs

section
variable {s : State} (hs : Formed canonicalForm s)
include hs

theorem nextFormed_run (x : ThreadId) (i : Instr) : NextFormed canonicalForm (s.run x i) :=
  nextFormed_exec i (formed_mk.2 hs)

theorem nextFormed_takeNext (x : ThreadId) : NextFormed canonicalForm (s.takeNext x) := by
  unfold State.takeNext
  have h := fetchFormed_fetch x hs
  generalize s.fetch x = f at h ⊢
  cases f with
  | hole pa => exact nextFormed_fault
  | stop s' k a w => exact nextFormed_run (formed_serve _ _ hs) _ _
  | word s' w =>
    dsimp only
    have hserved : Formed canonicalForm (if (s.thread x).counted then s' else s'.serve x (vectorWord w)) :=
      formed_ite h (formed_serve _ _ h)
    generalize (if (s.thread x).counted then s' else s'.serve x (vectorWord w)) = u at hserved ⊢
    cases decodeWord w with
    | error e => exact nextFormed_run hserved _ _
    | ok i =>
      refine nextFormed_ite (nextFormed_next hs) ?_
      cases u.vStop x i with
      | none => exact nextFormed_run (formed_count _ _ hserved) _ _
      | some d => exact nextFormed_next (formed_stop _ (formed_mk.2 (formed_count _ _ hserved)))

theorem nextFormed_issueNow (x : ThreadId) : NextFormed canonicalForm (s.issueNow x) :=
  nextFormed_andThen (nextFormed_takeNext (formed_actsFor _ hs) x) fun _ hs => formed_actsFor _ hs

theorem nextFormed_issue (x : ThreadId) : NextFormed canonicalForm (s.issue x) :=
  nextFormed_ite (nextFormed_issueNow hs x) (nextFormed_next hs)

theorem nextFormed_singleStep (x : ThreadId) : NextFormed canonicalForm (s.singleStep x) :=
  nextFormed_ite (nextFormed_andThen (nextFormed_issueNow (formed_modThread _ _ hs) x) fun _ hs =>
    formed_modThread _ _ hs) (nextFormed_next hs)

theorem nextFormed_perform (a : Act) : NextFormed canonicalForm (perform a s) := by
  refine nextFormed_ite (nextFormed_next hs) ?_
  cases a with
  | issue t h => exact nextFormed_issue hs _
  | event e => exact nextFormed_ite (nextFormed_exec e hs) nextFormed_refused
  | step t h =>
    exact nextFormed_ite (nextFormed_next (formed_mk.2 hs))
      (nextFormed_andThen (nextFormed_singleStep hs _) fun _ hs => formed_mk.2 hs)
  | stepDone t h => exact nextFormed_ite (nextFormed_next (formed_mk.2 hs)) (nextFormed_next (formed_stepEnds _ hs))
  | tick => exact nextFormed_next (formed_tick hs)

theorem nextFormed_step : NextFormed canonicalForm (step s) := by
  unfold step
  split
  · exact nextFormed_perform (formed_mk.2 hs) _
  · split
    · exact nextFormed_perform (formed_mk.2 hs) _
    · exact nextFormed_next (formed_tick hs)

end

theorem formed_canonicalForm_iff {s : State} : Formed canonicalForm s ↔ MemOk s :=
  ⟨fun h => ⟨h.mem trivial, h.cellar trivial⟩, fun ⟨hmem, hcellar⟩ => ⟨trivial, fun _ => hmem, fun _ => hcellar⟩⟩

/-- Settles O5: by the rule of the instruction, event or choice that the step takes from the agenda; memory and cellar
change through the byte operations alone, each of which keeps the canonical form. -/
theorem stepKeepsInvariant : Obligations.StepKeepsInvariant := fun _ t hs ht =>
  formed_canonicalForm_iff.1 (nextFormed_step (formed_canonicalForm_iff.2 hs) t ht)

end Sys2Proof.Machine
end

section
/-! SUPPORT. The bytes that a running command reads and writes (R20, R131, R140, R376, R425). -/

namespace Sys2Proof.Machine

open Sys2Proof.Claims

theorem Except.bind_of_ok {ε α β : Type} {r : Except ε α} {a : α} (h : r = .ok a) (f : α → Except ε β) :
    (r >>= f) = f a := by
  rw [h]
  rfl

/-! Bytes with their marks. -/

@[simp] theorem State.length_peekE (s : State) (pa n : Nat) : (s.peekE pa n).length = n := by
  simp [State.peekE, State.peek, readBytes]

theorem State.getElem_peekE (s : State) (pa n k : Nat) (h : k < (s.peekE pa n).length) :
    (s.peekE pa n)[k] = (readByte s.mem (pa + k), poisoned s.poison (pa + k) 1) := by
  simp [State.peekE, State.peek, readBytes]

theorem State.getElem?_peekE (s : State) (pa : Nat) {n k : Nat} (h : k < n) :
    (s.peekE pa n)[k]? = some (readByte s.mem (pa + k), poisoned s.poison (pa + k) 1) := by
  rw [List.getElem?_eq_getElem (by simpa using h), State.getElem_peekE]

theorem State.pokeE_mem (s : State) (pa : Nat) (bs : List EByte) :
    (s.pokeE pa bs).mem = writeBytes s.mem pa (bs.map (·.1)) := by
  have hmark (q : State) (x : EByte × Nat) : KeepsStores q (if x.1.2 then q.mark (pa + x.2) 1 else q) := by
    split
    · exact ⟨rfl, rfl, rfl⟩
    · exact .refl q
  exact (KeepsStores.foldl hmark bs.zipIdx (s.poke pa (bs.map (·.1)))).mem

theorem State.pokeAfter_mem (s : State) (pa : Nat) (old : List Bool) (bs : List EByte) :
    (s.pokeAfter pa old bs).mem = writeBytes s.mem pa (bs.map (·.1)) := s.pokeE_mem pa bs

theorem readByte_marked {m : List Host.Cell} (pa : Nat) (bs : List EByte) {k : Nat} (h : k < bs.length) :
    readByte (writeBytes m pa (bs.map (·.1))) (pa + k) = bs[k].1 := by
  rw [readByte_writeBytes_in _ _ _ _ (by simpa using h), List.getElem_map]

/-- A state whose memory is that of another with bytes written differs from it in those bytes alone. -/
theorem sameOutside_of_writeBytes {s t : State} {pa : Nat} {bs : List EByte}
    (h : t.mem = writeBytes s.mem pa (bs.map (·.1))) : SameOutside s t pa bs.length := by
  intro a ha
  rw [h, readByte_writeBytes_out _ _ _ _ (by simpa using ha)]

/-! The operand in one piece. -/

theorem readSome_one {s u : State} {t : BitVec 10} {c : Cmd} {va : Word} {n : Nat} {x : Span}
    (hspan : s.cmdSpan t c va.toNat n .read = .ok (u, x)) (hlen : x.len = n) (hn : 0 < n)
    (hhome : (home? ((u.drainStep t x.pa x.len).spanAt x)).isSome = true) :
    ∃ v, readSome t c va n s =
      .ok (v, (u.drainStep t x.pa x.len).peekE ((u.drainStep t x.pa x.len).spanAt x) n, true) := by
  obtain ⟨m, rfl⟩ : ∃ m, n = m + 1 := ⟨n - 1, by omega⟩
  have hrest (q : State) (a : Nat) : readPieces t c m q a 0 = .ok (q, [], true) := by cases m <;> rfl
  rw [readSome, readPieces, if_neg (Nat.succ_ne_zero m), hspan]
  dsimp only
  rw [if_neg (by simp [Option.isSome_iff_ne_none.1 hhome]), hlen, Nat.sub_self, hrest, Except.bind_of_ok rfl,
    List.append_nil]
  exact ⟨_, rfl⟩

theorem writeAll_one {s u : State} {t : BitVec 10} {c : Cmd} {va : Word} {bs : List EByte} {x : Span}
    (hspan : s.cmdSpan t c va.toNat bs.length .write = .ok (u, x)) (hlen : x.len = bs.length) (hne : bs ≠ [])
    (hwrites : u.cmdWrites c x.entry = true) (hhome : (home? (u.spanAt x)).isSome = true) :
    writeAll t c va bs s = .ok (u.writeSpan t c x bs) := by
  obtain ⟨m, hm⟩ : ∃ m, bs.length = m + 1 := ⟨bs.length - 1, by have := List.length_pos_iff.mpr hne; omega⟩
  have hrest (q : State) (a : Nat) : writePieces t c m q a [] = .ok q := by cases m <;> rfl
  rw [writeAll, hm, writePieces, if_neg (by simpa using hne), hspan]
  dsimp only
  rw [if_neg (by simp [hwrites]), if_neg (by simp [Option.isSome_iff_ne_none.1 hhome]), hlen, List.take_length,
    List.drop_length, hrest]

theorem State.writeSpan_mem (s : State) (t : BitVec 10) (c : Cmd) (x : Span) (bs : List EByte) :
    (s.writeSpan t c x bs).mem =
      writeBytes (s.drainStep t x.pa x.len).mem ((s.drainStep t x.pa x.len).spanAt x) (bs.map (·.1)) := by
  show (State.watched _ _ _ _ _).mem = _
  rw [(keepsStores_watched _ _ _ _ _).mem]
  simp only [State.dropLines, State.modTile_mem, State.pokeAfter_mem, (keepsStores_normalise _ _ _).mem]

theorem operandBytes : Claims.OperandBytes := by
  intro s u t c va n x bs q pa
  refine ⟨fun hspan hlen hn hhome => ?_, fun hspan hlen hne hwrites hhome => ?_, fun k h => ?_,
    sameOutside_of_writeBytes (s.pokeE_mem _ bs), fun m k h => s.getElem?_peekE _ h⟩
  · obtain ⟨v, hread⟩ := readSome_one hspan hlen hn hhome
    exact ⟨v, _, Except.bind_of_ok hread _, by simp, fun k h => State.getElem_peekE _ _ _ _ h⟩
  · refine ⟨_, writeAll_one hspan hlen hne hwrites hhome, fun k h => ?_,
      sameOutside_of_writeBytes (u.writeSpan_mem t c x bs)⟩
    rw [State.writeSpan_mem]
    exact readByte_marked _ bs h
  · show readByte (State.pokeE _ _ _).mem _ = _
    rw [State.pokeE_mem]
    exact readByte_marked _ bs h

end Sys2Proof.Machine
end

section
/-! SUPPORT. What the commands on tile registers and accumulators write, attention included (R359 to R363, R371 to
R373). -/

namespace Sys2Proof.Machine

open Sys2Proof.Claims

theorem Except.bind_ok_eq_map {ε α β : Type} (r : Except ε α) (f : α → β) : (r >>= fun x => .ok (f x)) = r.map f := by
  cases r <;> rfl

/-! Whole registers. -/

section
variable {s a u : State} {t : BitVec 10} {c : Cmd} {bs : List EByte} {all : Bool}

theorem runTld_read {d : BitVec 4} (hready : ready t c .read c.opa 16384 s = .ok a)
    (hread : readSome t c c.opa 16384 a = .ok (u, bs, all)) :
    runTld t c d s = .ok (u.setRegBytes t ((u.tile t).tregOff c.thr d.toNat) bs, all) :=
  (Except.bind_of_ok hready _).trans (Except.bind_of_ok hread _)

theorem runTldT_read {d f : BitVec 4} (htags : c.tags = [f]) (hready : ready t c .read c.opa 16384 s = .ok a)
    (hread : readSome t c c.opa 16384 a = .ok (u, bs, all)) :
    runTldT t c d s = .ok (u.setRegBytes t ((u.tile t).tregOff c.thr d.toNat)
      (eJoin (tileWidth f) (transposed (tileWidth f) (eElems (tileWidth f) bs)
        (eElems (tileWidth f) (u.regBytes t ((u.tile t).tregOff c.thr d.toNat) 16384)))), all) := by
  rw [runTldT, htags]
  exact (Except.bind_of_ok hready _).trans (Except.bind_of_ok hread _)

theorem runTst_ready {d : BitVec 4} (hready : ready t c .write c.opa 16384 s = .ok a) :
    runTst t c d s = (writeAll t c c.opa (a.regBytes t ((a.tile t).tregOff c.thr d.toNat) 16384) a).map
      fun q => (q, true) :=
  (Except.bind_of_ok hready _).trans (Except.bind_ok_eq_map _ _)

theorem runAld_read {d : BitVec 2} (hready : ready t c .read c.opa 98304 s = .ok a)
    (hread : readSome t c c.opa 98304 a = .ok (u, bs, all)) :
    runAld t c d s = .ok (u.setRegBytes t ((u.tile t).accOff c.thr d.toNat) bs, all) :=
  (Except.bind_of_ok hready _).trans (Except.bind_of_ok hread _)

theorem runAst_ready {d : BitVec 2} (hready : ready t c .write c.opa 98304 s = .ok a) :
    runAst t c d s = (writeAll t c c.opa (a.regBytes t ((a.tile t).accOff c.thr d.toNat) 98304) a).map
      fun q => (q, true) :=
  (Except.bind_of_ok hready _).trans (Except.bind_ok_eq_map _ _)

end

/-- Element k of row r of a transposed load is element r of memory row k. -/
theorem getElem?_transposed {w r k : Nat} {new old : List EElem} (hnew : new.length = 128 * (1024 / w))
    (hold : old.length = new.length) (hr : r < 128) (hk : k < 1024 / w) :
    (transposed w new old)[r * (1024 / w) + k]? = new[k * 128 + r]? := by
  have hin : r * (1024 / w) + k < old.length := by
    rw [hold, hnew]
    calc r * (1024 / w) + k < (r + 1) * (1024 / w) := by rw [Nat.succ_mul]; omega
      _ ≤ 128 * (1024 / w) := Nat.mul_le_mul_right _ hr
  have hout : k * 128 + r < new.length := by omega
  have hmod : (r * (1024 / w) + k) % (1024 / w) = k := by rw [Nat.mul_add_mod_self_right, Nat.mod_eq_of_lt hk]
  have hdiv : (r * (1024 / w) + k) / (1024 / w) = r := by
    rw [Nat.mul_comm, Nat.mul_add_div (Nat.zero_lt_of_lt hk), Nat.div_eq_of_lt hk, Nat.add_zero]
  rw [transposed, List.getElem?_map, List.getElem?_zipIdx, List.getElem?_eq_getElem hin]
  simp [hmod, hdiv, List.getElem?_eq_getElem hout]

/-! Attention. -/

section
variable {s a u : State} {t : BitVec 10} {c : Cmd}

theorem attnRows_succ {dim n i : Nat} {toks : List Token} {q old : List EByte}
    (hread : readAll t c (atQaddr c.desc + BitVec.ofNat 64 (4 * dim * i)) (4 * dim) s = .ok (a, q))
    (hold : (atInit c.desc = true ∧ u = a ∧ old = []) ∨ (atInit c.desc = false ∧
      readAll t c (atSaddr c.desc + BitVec.ofNat 64 (rowSize dim * i)) (rowSize dim) a = .ok (u, old) ∧
        rowD old = dim)) :
    attnRows t c dim toks (n + 1) i s =
      (writeAll t c (atSaddr c.desc + BitVec.ofNat 64 (rowSize dim * i))
        ((visit ((eWords q).map fun x => f32 x.1) (atQpos c.desc + i) (atTau c.desc) toks
          (if atInit c.desc = true then Row.empty dim else rowOf old)).bytes dim (q.any (·.2) || old.any (·.2))) u).bind
        fun w => attnRows t c dim toks n (i + 1) w := by
  rw [attnRows]
  refine (Except.bind_of_ok hread _).trans ?_
  obtain ⟨hinit, rfl, rfl⟩ | ⟨hinit, hstate, hdim⟩ := hold
  · simp only [hinit, if_true]
    rfl
  · simp only [hinit, Bool.false_eq_true, if_false]
    refine (Except.bind_of_ok hstate _).trans ?_
    simp only [hdim, Bool.not_false, ne_eq, not_true, decide_false, Bool.and_false, Bool.false_eq_true, if_false]
    rfl

theorem runAttn_ready {x : Snapshot} {q w : State} {n : Nat} {toks : List Token} {bad : Bool}
    (hsnap : c.snapshot = some x)
    (hq : ready t c .read (atQaddr c.desc) (atRows c.desc * 4 * s.cdim c.opb1.toNat) s = .ok a)
    (hs : ready t c .write (atSaddr c.desc) (atRows c.desc * rowSize (s.cdim c.opb1.toNat)) a = .ok q)
    (hrows : (atInit c.desc = true ∧ u = q ∧ n = atRows c.desc) ∨ (atInit c.desc = false ∧
      rowsPerformed t c (s.cdim c.opb1.toNat) (atRows c.desc) 0 q = .ok (u, n)))
    (htoks : slabTokens t c c.opb1.toNat x
      ((if n = 0 then 0 else min (min (atHi c.desc) x.valid) (atQpos c.desc + n)) - atLo c.desc) (atLo c.desc) u =
        .ok (w, toks, bad)) :
    runAttn t c s =
      attnRows t c (s.cdim c.opb1.toNat) toks (atRows c.desc) 0 (w.metPoison t c c.opb1.toNat toks bad) := by
  rw [runAttn, hsnap]
  refine (Except.bind_of_ok hq _).trans ((Except.bind_of_ok hs _).trans ?_)
  obtain ⟨hinit, rfl, rfl⟩ | ⟨hinit, hperformed⟩ := hrows
  · simp only [hinit, if_true]
    exact (Except.bind_of_ok rfl _).trans (Except.bind_of_ok htoks _)
  · simp only [hinit, Bool.false_eq_true, if_false]
    exact (Except.bind_of_ok hperformed _).trans (Except.bind_of_ok htoks _)

theorem runAttnFin_row {v q w z : State} {head rest : List EByte}
    (h16 : ready t c .read c.opa 16 s = .ok a) (hhead : readAll t c c.opa 16 a = .ok (u, head))
    (hclean : ((head.drop 8).take 4).any (·.2) = false) (hlo : 16 ≤ rowD head) (hhi : rowD head ≤ 256)
    (hmult : rowD head % 16 = 0) (hrow : ready t c .read c.opa (16 + 4 * rowD head) u = .ok v)
    (hout : ready t c .write c.opd (4 * rowD head) v = .ok q)
    (hlocal : localPart t c .read (c.opa + 16) (4 * rowD head) q = (w, 4 * rowD head))
    (hrest : readAll t c (c.opa + 16) (4 * rowD head) w = .ok (z, rest)) (howned : c.owned = true) :
    runAttnFin t c s =
      (writeLocal t c (((rowOf (head ++ rest)).finish.zip (eWords rest)).flatMap fun p =>
        eBytes 4 (p.1, (head.take 8).any (·.2) || p.2.2)) z).map fun y =>
          (y.modThread ⟨t, c.thr⟩ fun p =>
            p.wp 7 (!(head.take 8).any (·.2) && !(rowOf (head ++ rest)).emptySum), true) := by
  rw [runAttnFin]
  refine (Except.bind_of_ok h16 _).trans ((Except.bind_of_ok hhead _).trans ?_)
  dsimp only
  rw [if_neg (by simp [hclean, Nat.not_lt.2 hlo, Nat.not_lt.2 hhi, hmult])]
  refine (Except.bind_of_ok hrow _).trans ((Except.bind_of_ok hout _).trans ?_)
  rw [hlocal]
  dsimp only
  rw [if_neg (Nat.lt_irrefl _)]
  refine (Except.bind_of_ok hrest _).trans ?_
  simp only [howned, if_true]
  exact Except.bind_ok_eq_map _ _

end

end Sys2Proof.Machine
end

section
/-! SUPPORT. Bytes in groups, and what `mma`, `mma.s`, `arow` and `azero` write (R242, R361 to R363, R425). -/

namespace Sys2Proof.Machine

open Sys2Proof.Claims

/-! Groups of bytes. -/

theorem getElem?_groupsOf {α : Type} {n : Nat} (hn : 0 < n) {f : Nat} {l : List α} (hf : l.length ≤ f) (i : Nat) :
    (groupsOf n f l)[i]? = if n * i < l.length then some ((l.drop (n * i)).take n) else none := by
  induction f generalizing l i with
  | zero => simp [groupsOf, List.length_eq_zero_iff.1 (Nat.le_zero.1 hf)]
  | succ f ih =>
    rw [groupsOf]
    split
    · next h => simp [List.isEmpty_iff.1 h]
    · next h =>
      have hpos : 0 < l.length := List.length_pos_iff.mpr (by simpa using h)
      cases i with
      | zero => simp [hpos]
      | succ i =>
        have hiff : n * i < l.length - n ↔ n * (i + 1) < l.length := by rw [Nat.mul_succ]; omega
        rw [List.getElem?_cons_succ, ih (by rw [List.length_drop]; omega), List.length_drop, List.drop_drop,
          ite_of_iff hiff, Nat.mul_succ, Nat.add_comm n]

/-- A list of m groups of n, in groups. -/
theorem chunks_eq_map {α : Type} {n m : Nat} (hn : 0 < n) {l : List α} (hl : l.length = n * m) :
    chunks n l = (List.range m).map fun i => (l.drop (n * i)).take n := by
  refine List.ext_getElem? fun i => ?_
  rw [chunks, getElem?_groupsOf hn (Nat.le_refl _), List.getElem?_map, hl]
  by_cases h : i < m
  · rw [if_pos (Nat.mul_lt_mul_of_pos_left h hn), List.getElem?_range h, Option.map_some]
  · rw [if_neg (by simpa [hn] using h), List.getElem?_eq_none (by simpa using h), Option.map_none]

theorem any_groupsOf {α : Type} {n : Nat} (hn : 0 < n) (p : α → Bool) {f : Nat} {l : List α} (hf : l.length ≤ f) :
    (groupsOf n f l).any (fun x => x.any p) = l.any p := by
  induction f generalizing l with
  | zero => simp [groupsOf, List.length_eq_zero_iff.1 (Nat.le_zero.1 hf)]
  | succ f ih =>
    rw [groupsOf]
    split
    · next h => simp [List.isEmpty_iff.1 h]
    · next h =>
      have hpos : 0 < l.length := List.length_pos_iff.mpr (by simpa using h)
      rw [List.any_cons, ih (by rw [List.length_drop]; omega), ← List.any_append, List.take_append_drop]

theorem any_chunks {α : Type} {n : Nat} (hn : 0 < n) (p : α → Bool) (l : List α) :
    (chunks n l).any (fun x => x.any p) = l.any p := any_groupsOf hn p (Nat.le_refl _)

/-- Element j of block i of a concatenation of blocks of one length. -/
theorem getElem?_flatMap_block {α β : Type} {f : α → List β} {n : Nat} {l : List α} (hlen : ∀ x ∈ l, (f x).length = n)
    {i j : Nat} (hj : j < n) : (l.flatMap f)[n * i + j]? = l[i]?.bind fun x => (f x)[j]? := by
  induction l generalizing i with
  | nil => simp
  | cons x l ih =>
    have hx := hlen x List.mem_cons_self
    cases i with
    | zero => simp [List.flatMap_cons, List.getElem?_append_left (show j < (f x).length by omega)]
    | succ i =>
      rw [List.flatMap_cons, List.getElem?_append_right (by rw [hx, Nat.mul_succ]; omega),
        show n * (i + 1) + j - (f x).length = n * i + j by rw [hx, Nat.mul_succ]; omega,
        ih fun y hy => hlen y (List.mem_cons_of_mem x hy), List.getElem?_cons_succ]

theorem length_flatMap_block {α β : Type} {f : α → List β} {n : Nat} {l : List α} (hlen : ∀ x ∈ l, (f x).length = n) :
    (l.flatMap f).length = n * l.length := by
  induction l with
  | nil => simp
  | cons x l ih =>
    rw [List.flatMap_cons, List.length_append, hlen x List.mem_cons_self,
      ih fun y hy => hlen y (List.mem_cons_of_mem x hy),
      List.length_cons, Nat.mul_succ, Nat.add_comm]

/-- A part of the bytes at an address. -/
theorem State.take_drop_peekE (s : State) (pa : Nat) {n a m : Nat} (h : a + m ≤ n) :
    ((s.peekE pa n).drop a).take m = s.peekE (pa + a) m := by
  refine List.ext_getElem (by rw [List.length_take, List.length_drop, length_peekE, length_peekE]; omega)
    fun k h1 h2 => ?_
  rw [List.getElem_take, List.getElem_drop, State.getElem_peekE, State.getElem_peekE, Nat.add_assoc]

theorem State.chunks_peekE (s : State) (pa : Nat) {n m : Nat} (hn : 0 < n) :
    chunks n (s.peekE pa (n * m)) = (List.range m).map fun i => s.peekE (pa + n * i) n := by
  rw [chunks_eq_map hn (s.length_peekE pa _)]
  refine List.map_congr_left fun i hi => s.take_drop_peekE pa ?_
  rw [← Nat.mul_succ]
  exact Nat.mul_le_mul_left n (List.mem_range.1 hi)

theorem State.map_fst_peekE (s : State) (pa n : Nat) : (s.peekE pa n).map (·.1) = readBytes s.mem pa n := by
  refine List.ext_getElem (by rw [List.length_map, length_peekE]; simp [readBytes]) fun k h1 h2 => ?_
  rw [List.getElem_map, getElem_peekE]
  simp [readBytes]

theorem State.eNat_peekE (s : State) (pa n : Nat) : (eNat (s.peekE pa n)).1 = readNat s.mem pa n :=
  congrArg leNat (s.map_fst_peekE pa n)

theorem unitSize_pos (u : Nat) : 0 < unitSize u := by
  unfold unitSize
  split <;> decide

/-- A unit meets an interval if and only if it meets one of its bytes. -/
theorem State.any_peekE (s : State) (pa : Nat) {n : Nat} (hn : 0 < n) :
    (s.peekE pa n).any (·.2) = poisoned s.poison pa n := by
  rw [Bool.eq_iff_iff, List.any_eq_true]
  constructor
  · rintro ⟨x, hx, hbad⟩
    obtain ⟨k, hk, rfl⟩ := List.getElem_of_mem hx
    rw [State.getElem_peekE] at hbad
    simp only [poisoned, List.any_eq_true, Bool.and_eq_true, decide_eq_true_eq] at hbad ⊢
    obtain ⟨u, hu, hlo, hhi⟩ := hbad
    rw [State.length_peekE] at hk
    exact ⟨u, hu, by omega, by omega⟩
  · intro h
    simp only [poisoned, List.any_eq_true, Bool.and_eq_true, decide_eq_true_eq] at h
    obtain ⟨u, hu, hlo, hhi⟩ := h
    have hk : u - pa < (s.peekE pa n).length := by rw [State.length_peekE]; omega
    refine ⟨(s.peekE pa n)[u - pa], List.getElem_mem hk, ?_⟩
    rw [State.getElem_peekE]
    simp only [poisoned, List.any_eq_true, Bool.and_eq_true, decide_eq_true_eq]
    exact ⟨u, hu, by omega, by have := unitSize_pos u; omega⟩

theorem leNat_lt (l : List Byte) : leNat l < 2 ^ (8 * l.length) := by
  induction l with
  | nil => simp [leNat]
  | cons b l ih =>
    rw [leNat, List.length_cons, Nat.mul_succ, Nat.pow_add]
    have := b.isLt
    omega

/-! `arow` and `azero`. -/

/-- The first byte of the elements that an `arow` reads. -/
def arowAt (s : State) (t : BitVec 10) (c : Cmd) (g : BitVec 2) : Nat :=
  tileBase t.toNat + (s.tile t).accOff c.thr g.toNat + 6 * (128 * (c.opb.toNat % 128) + 32 * (c.opb.toNat / 128 % 4))

theorem arow_elements (s : State) (t : BitVec 10) (c : Cmd) (g : BitVec 2) :
    chunks 6 (s.regBytes t ((s.tile t).accOff c.thr g.toNat + 6 * (128 * bits c.opb 6 0 + 32 * bits c.opb 8 7)) 192) =
      chunks 6 (s.peekE (arowAt s t c g) 192) := by
  have hrow : bits c.opb 6 0 = c.opb.toNat % 128 := by simp [bits]
  have hpart : bits c.opb 8 7 = c.opb.toNat / 128 % 4 := by simp [bits]
  rw [hrow, hpart, State.regBytes, ← Nat.add_assoc, arowAt]

theorem runArow_clean {s : State} {t : BitVec 10} {c : Cmd} (d : BitVec 5) {g : BitVec 2}
    (hclean : poisoned s.poison (arowAt s t c g) 192 = false) (howned : c.owned = true) :
    ∃ x, runArow t c d g s = .ok (s.modThread ⟨t, c.thr⟩ fun y => y.wv d x tagAcc48, true) ∧
      ∀ e, e < 32 → elem 64 x e = readNat s.mem (arowAt s t c g + 6 * e) 6 := by
  have hbad : ((chunks 6 (s.peekE (arowAt s t c g) 192)).map eNat).any (·.2) = false := by
    rw [List.any_map]
    exact (any_chunks (by decide) _ _).trans ((s.any_peekE _ (by decide)).trans hclean)
  rw [runArow]
  simp only [arow_elements, hbad, howned, Bool.false_eq_true, if_false, if_true]
  refine ⟨_, rfl, fun e he => ?_⟩
  rw [show 192 = 6 * 32 from rfl, State.chunks_peekE _ _ (by decide), List.map_map, List.map_map,
    elem_ofElems (by simp) (by simpa using he), List.getElem_map, List.getElem_range]
  refine (Nat.mod_eq_of_lt ?_).trans (s.eNat_peekE _ 6)
  refine Nat.lt_of_lt_of_le (leNat_lt _) ?_
  simp

theorem runArow_poisoned {s : State} {t : BitVec 10} {c : Cmd} (d : BitVec 5) {g : BitVec 2}
    (hbad : poisoned s.poison (arowAt s t c g) 192 = true) :
    ∃ q, runArow t c d g s = .ok (q, false) ∧ q.mem = s.mem := by
  have hany : ((chunks 6 (s.peekE (arowAt s t c g) 192)).map eNat).any (·.2) = true := by
    rw [List.any_map]
    exact (any_chunks (by decide) _ _).trans ((s.any_peekE _ (by decide)).trans hbad)
  rw [runArow]
  simp only [arow_elements, hany, if_true]
  refine ⟨_, rfl, ?_⟩
  unfold State.defer
  split <;> rfl

theorem runAzero_zero (s : State) (t : BitVec 10) (c : Cmd) (d : BitVec 2) :
    ∃ q, runAzero t c d s = .ok (q, true) ∧
      (∀ k, k < 98304 → readByte q.mem (tileBase t.toNat + (s.tile t).accOff c.thr d.toNat + k) = 0) ∧
      SameOutside s q (tileBase t.toNat + (s.tile t).accOff c.thr d.toNat) 98304 := by
  refine ⟨_, rfl, fun k hk => ?_, fun a ha => ?_⟩
  · show readByte (zeroBytes _ _ _) _ = _
    rw [readByte_zeroBytes, if_pos ⟨Nat.le_add_right _ _, Nat.add_lt_add_left hk _⟩]
  · show readByte (zeroBytes _ _ _) _ = _
    rw [readByte_zeroBytes, if_neg (by omega)]

end Sys2Proof.Machine
end

section
/-! SUPPORT. What `mma` and `mma.s` write (R242, R361, R425), and the clauses of the tile commands together. -/

namespace Sys2Proof.Machine

open Sys2Proof.Claims

theorem zipIdx_map_range {α : Type} (f : Nat → α) (m : Nat) :
    ((List.range m).map f).zipIdx = (List.range m).map fun i => (f i, i) := by
  refine List.ext_getElem (by simp) fun k h1 h2 => ?_
  simp

/-- Row i of a tile register whose bytes start at an address. -/
def mmaRowAt (s : State) (tag : BitVec 4) (pa : Nat) (scales : List EByte) (at' i : Nat) : MmaRow :=
  { groups := chunks (groupSize tag) ((eElems (tagWidth tag) (s.peekE (pa + 128 * i) 128)).map fun x => mmaVal tag x.1)
    bad := (s.peekE (pa + 128 * i) 128).any (·.2)
    scales := ((scales.drop (at' + i * (1024 / tagWidth tag / 32))).take (1024 / tagWidth tag / 32)).map fun b =>
      (b.1.toNat, b.2) }

theorem mmaRows_peekE (s : State) (tag : BitVec 4) (pa : Nat) (scales : List EByte) (at' : Nat) :
    mmaRows tag (s.peekE pa 16384) scales at' = (List.range 128).map (mmaRowAt s tag pa scales at') := by
  rw [mmaRows, show 16384 = 128 * 128 from rfl, State.chunks_peekE _ _ (by decide), zipIdx_map_range, List.map_map]
  rfl

/-- Element (i, j) of a matrix of k columns of 6-byte elements that is written row by row, each from its row, its column
and the old element. -/
theorem getElem?_matrix {R : Type} {f : R → R → List EByte → List EByte} (hf : ∀ a b x, (f a b x).length = 6)
    (s : State) (pa : Nat) (row col : Nat → R) {m k : Nat} (hk : 0 < k) :
    let new := (((List.range m).map row).zip (chunks (6 * k) (s.peekE pa (6 * k * m)))).flatMap fun p =>
      (((List.range k).map col).zip (chunks 6 p.2)).flatMap fun q => f p.1 q.1 q.2
    new.length = 6 * k * m ∧ ∀ i j e, i < m → j < k → e < 6 →
      new[6 * (k * i + j) + e]? = (f (row i) (col j) (s.peekE (pa + 6 * (k * i + j)) 6))[e]? := by
  intro new
  have hnew : new = (List.range m).flatMap fun i => (List.range k).flatMap fun j =>
      f (row i) (col j) (s.peekE (pa + 6 * k * i + 6 * j) 6) := by
    show List.flatMap _ _ = _
    rw [State.chunks_peekE _ _ (by omega), List.zip_map', List.flatMap_map]
    refine congrArg (fun g => (List.range m).flatMap g) (funext fun i => ?_)
    rw [State.chunks_peekE _ _ (by decide), List.zip_map', List.flatMap_map]
  have hinner (i : Nat) : ∀ j ∈ List.range k, (f (row i) (col j) (s.peekE (pa + 6 * k * i + 6 * j) 6)).length = 6 :=
    fun j _ => hf _ _ _
  have houter : ∀ i ∈ List.range m, ((List.range k).flatMap fun j =>
      f (row i) (col j) (s.peekE (pa + 6 * k * i + 6 * j) 6)).length = 6 * k := fun i _ => by
    rw [length_flatMap_block (hinner i), List.length_range]
  refine ⟨by rw [hnew, length_flatMap_block houter, List.length_range], fun i j e hi hj he => ?_⟩
  have hplace : 6 * (k * i + j) + e = 6 * k * i + (6 * j + e) := by rw [Nat.mul_add, Nat.mul_assoc, Nat.add_assoc]
  have haddr : pa + 6 * k * i + 6 * j = pa + 6 * (k * i + j) := by rw [Nat.mul_add, Nat.mul_assoc, Nat.add_assoc]
  rw [hnew, hplace, getElem?_flatMap_block houter (show 6 * j + e < 6 * k by omega), List.getElem?_range hi,
    Option.bind_some, getElem?_flatMap_block (hinner i) he, List.getElem?_range hj, Option.bind_some, haddr]

theorem getElem?_eBytes (n : Nat) (x : EElem) (e : Nat) : ((eBytes n x)[e]?).map (·.1) = (leBytes n x.1)[e]? := by
  rw [eBytes, List.getElem?_map, Option.map_map]
  exact congrFun Option.map_id _

theorem length_leBytes (n w : Nat) : (leBytes n w).length = n := by
  rw [leBytes_eq_map, List.length_map, List.length_range]

/-- The scales of a row and of a column, pair by pair. -/
theorem zipWith_scales (s : State) (a b m n : Nat) :
    List.zipWith (fun u v => (u.1, v.1)) ((s.peekE a m).map fun x => (x.1.toNat, x.2))
        ((s.peekE b n).map fun x => (x.1.toNat, x.2)) =
      (List.range (min m n)).map fun g => ((readByte s.mem (a + g)).toNat, (readByte s.mem (b + g)).toNat) := by
  refine List.ext_getElem (by simp) fun k h1 h2 => ?_
  simp [State.getElem_peekE]

/-- The 6 bytes that an element of an accumulator becomes, from a row, a column and the old bytes. -/
def mmaOut (ta : BitVec 4) (x y : MmaRow) (old : List EByte) : List EByte :=
  eBytes 6 (mmaElem (ta = 8 || ta = 9) (eNat old).1 x.groups y.groups
      (List.zipWith (fun u v => (u.1, v.1)) x.scales y.scales),
    x.bad || y.bad || (eNat old).2 || x.scales.any (·.2) || y.scales.any (·.2))

/-- The scales that a multiplication reads: none, or those of a register. -/
def mmaScales (s : State) (t : BitVec 10) (thr : BitVec 3) (k : Option (BitVec 4)) : List EByte :=
  match k with
  | some y => s.peekE (tileBase t.toNat + (s.tile t).tregOff thr y.toNat) 16384
  | none => []

theorem runMma_elements {s : State} {t : BitVec 10} {c : Cmd} {ta tb : BitVec 4} (htags : c.tags = [ta, tb])
    (d : BitVec 2) (ra rb : BitVec 4) (k : Option (BitVec 4)) :
    let at' (r : BitVec 4) : Nat := tileBase t.toNat + (s.tile t).tregOff c.thr r.toNat
    let pa := tileBase t.toNat + (s.tile t).accOff c.thr d.toNat
    let row (i : Nat) := mmaRowAt s ta (at' ra) (mmaScales s t c.thr k) 0 i
    let col (j : Nat) := mmaRowAt s tb (at' rb) (mmaScales s t c.thr k) 1024 j
    ∃ new, runMma t c d ra rb k s = .ok (s.setRegBytes t ((s.tile t).accOff c.thr d.toNat) new, true) ∧
      new.length = 98304 ∧ ∀ i j e, i < 128 → j < 128 → e < 6 →
        new[6 * (128 * i + j) + e]? = (mmaOut ta (row i) (col j) (s.peekE (pa + 6 * (128 * i + j)) 6))[e]? := by
  intro at' pa row col
  obtain ⟨hlen, helem⟩ := getElem?_matrix (f := mmaOut ta)
    (fun a b x => by rw [mmaOut, eBytes, List.length_map, length_leBytes]) s pa row col
    (m := 128) (k := 128) (by decide)
  refine ⟨_, ?_, hlen, helem⟩
  unfold runMma
  rw [htags]
  dsimp only
  simp only [State.regBytes, mmaRows_peekE]
  rfl

theorem mmaRowAt_groups (s : State) (t : BitVec 10) (tag : BitVec 4) (off : Nat) (scales : List EByte) (at' i : Nat) :
    (mmaRowAt s tag (tileBase t.toNat + off) scales at' i).groups =
      chunks (groupSize tag)
        ((eElems (tagWidth tag) (s.regBytes t (off + 128 * i) 128)).map fun x => mmaVal tag x.1) := by
  rw [mmaRowAt, State.regBytes, Nat.add_assoc]

theorem mmaRowAt_scales (s : State) (tag : BitVec 4) (pa src : Nat) {at' i : Nat} (hat : at' ≤ 1024) (hi : i < 128) :
    (mmaRowAt s tag pa (s.peekE src 16384) at' i).scales =
      (s.peekE (src + (at' + i * (1024 / tagWidth tag / 32))) (1024 / tagWidth tag / 32)).map fun b =>
        (b.1.toNat, b.2) := by
  have hnb : 1024 / tagWidth tag / 32 ≤ 32 := by
    rw [Nat.div_div_eq_div_mul, Nat.mul_comm, ← Nat.div_div_eq_div_mul]
    exact Nat.div_le_self _ _
  have hprod : i * (1024 / tagWidth tag / 32) ≤ 127 * 32 := Nat.mul_le_mul (by omega) hnb
  exact congrArg _ (s.take_drop_peekE src (by omega))

theorem mmaRowAt_scales_nil (s : State) (tag : BitVec 4) (pa at' i : Nat) :
    (mmaRowAt s tag pa [] at' i).scales = [] := by
  simp [mmaRowAt]

theorem mma_scales_some (s : State) {ta tb : BitVec 4} (pa pb src : Nat) {i j : Nat} (hi : i < 128) (hj : j < 128) :
    List.zipWith (fun u v => (u.1, v.1)) (mmaRowAt s ta pa (s.peekE src 16384) 0 i).scales
        (mmaRowAt s tb pb (s.peekE src 16384) 1024 j).scales =
      (List.range (min (1024 / tagWidth ta / 32) (1024 / tagWidth tb / 32))).map fun g =>
        ((readByte s.mem (src + (i * (1024 / tagWidth ta / 32) + g))).toNat,
          (readByte s.mem (src + (1024 + j * (1024 / tagWidth tb / 32) + g))).toNat) := by
  rw [mmaRowAt_scales s ta pa src (by omega) hi, mmaRowAt_scales s tb pb src (Nat.le_refl _) hj, zipWith_scales]
  simp only [Nat.zero_add, Nat.add_assoc]

theorem mmaOut_bytes (s : State) (ta : BitVec 4) (x y : MmaRow) (pa e : Nat) :
    ((mmaOut ta x y (s.peekE pa 6))[e]?).map (·.1) =
      (leBytes 6 (mmaElem (ta = 8 || ta = 9) (readNat s.mem pa 6) x.groups y.groups
        (List.zipWith (fun u v => (u.1, v.1)) x.scales y.scales)))[e]? := by
  rw [mmaOut, getElem?_eBytes, State.eNat_peekE]

theorem tileBytes : Claims.TileBytes := by
  intro s a u v t c bs all treg acc
  refine ⟨fun hready hread => ⟨fun d g f hc => ?_, fun d g f hc htags => ?_⟩,
    fun w r k new old hnew hold hr hk => getElem?_transposed hnew hold hr hk, fun d g hc hready => ?_,
    fun d g hc hready hread => ?_, fun d g hc hready => ?_, fun d ra rb k ta tb htags hc => ?_, fun d g b hc => ?_,
    fun dim n i toks q old hread hold => attnRows_succ hread hold,
    fun g b sc x q w n toks bad hc hsnap hq hs hrows htoks => ?_,
    fun d g q w z head rest hc h16 hhead hclean hlo hhi hmult hrow hout hlocal hrest howned => ?_⟩
  · rw [runEffect, hc]
    exact runTld_read hready hread
  · rw [runEffect, hc]
    exact runTldT_read htags hready hread
  · rw [runEffect, hc]
    exact runTst_ready hready
  · rw [runEffect, hc]
    exact runAld_read hready hread
  · rw [runEffect, hc]
    exact runAst_ready hready
  · intro groups scale scales
    have heffect : runEffect t c s = runMma t c d ra rb k s := by
      obtain ⟨rfl, h⟩ | ⟨y, rfl, h⟩ := hc <;> rw [runEffect, h]
    obtain ⟨new, hrun, hlen, helem⟩ := runMma_elements htags d ra rb k
    refine ⟨new, heffect.trans hrun, hlen, fun i j e hi hj he => ?_⟩
    rw [helem i j e hi hj he, mmaOut_bytes]
    dsimp only
    rw [mmaRowAt_groups, mmaRowAt_groups]
    cases k with
    | none =>
      rw [mmaScales, mmaRowAt_scales_nil]
      rfl
    | some y =>
      rw [mmaScales, mma_scales_some s _ _ _ hi hj]
  · rw [runEffect, hc]
    exact ⟨fun hclean howned => runArow_clean d hclean howned, fun hbad => runArow_poisoned d hbad⟩
  · rw [runEffect, hc]
    exact runAttn_ready hsnap hq hs hrows htoks
  · rw [runEffect, hc]
    exact runAttnFin_row h16 hhead hclean hlo hhi hmult hrow hout hlocal hrest howned

end Sys2Proof.Machine
end

section
/-! SUPPORT. What the copy commands write (R119, R387 to R391, R395, R425). -/

namespace Sys2Proof.Machine

open Sys2Proof.Claims

/-! Beats. -/

section
variable {s a b u v : State} {t : BitVec 10} {c : Cmd} {bs : List EByte} {p n : Nat}

theorem copyBeat_read (hsrc : ready t c .read (c.opa + BitVec.ofNat 64 p) n s = .ok a)
    (hdst : ready t c .write (c.opd + BitVec.ofNat 64 p) n a = .ok b)
    (hread : readAll t c (c.opa + BitVec.ofNat 64 p) n b = .ok (u, bs)) :
    copyBeat t c p n s = (writeAll t c (c.opd + BitVec.ofNat 64 p) bs u).map fun q => q.reached t c (p + n) :=
  (Except.bind_of_ok hsrc _).trans <| (Except.bind_of_ok hdst _).trans <| (Except.bind_of_ok hread _).trans <|
    Except.bind_ok_eq_map _ _

theorem multicastBeat_all {l : List Span} (hsrc : ready t c .read (c.opa + BitVec.ofNat 64 p) n s = .ok a)
    (hread : readAll t c (c.opa + BitVec.ofNat 64 p) n a = .ok (u, bs))
    (hpieces : cmdPieces t c .write n u (c.opd + BitVec.ofNat 64 p).toNat n = (v, l, true)) :
    multicastBeat t c p n s =
      .ok (((((v.targets t c).foldl
        (fun q i => q.deliver t c i (windowOffset t c.opd + p) ((v.cmdNow t c).trailAt (windowOffset t c.opd + p)) bs)
        v).setTrail t c (windowOffset t c.opd + p + n)
          ((v.cmdNow t c).trailAt (windowOffset t c.opd + p) ++ bs.map (·.2))).reached t c (p + n))) := by
  refine (Except.bind_of_ok hsrc _).trans ((Except.bind_of_ok hread _).trans ?_)
  simp only [wd, hpieces, Bool.not_true, Bool.false_eq_true, if_false]

theorem multicastBeat_cancel {l : List Span} (hsrc : ready t c .read (c.opa + BitVec.ofNat 64 p) n s = .ok a)
    (hread : readAll t c (c.opa + BitVec.ofNat 64 p) n a = .ok (u, bs))
    (hpieces : cmdPieces t c .write n u (c.opd + BitVec.ofNat 64 p).toNat n = (v, l, false)) :
    multicastBeat t c p n s = .error (.cancel v) := by
  refine (Except.bind_of_ok hsrc _).trans ((Except.bind_of_ok hread _).trans ?_)
  simp only [wd, hpieces, Bool.not_false, if_true]

theorem decodedBeat_ready {out : List EByte} (hdst : ready t c .write (c.opd + BitVec.ofNat 64 p) n s = .ok a) :
    decodedBeat t c out p n s =
      (writeAll t c (c.opd + BitVec.ofNat 64 p) ((out.drop p).take n) a).map fun q => q.reached t c (p + n) :=
  (Except.bind_of_ok hdst _).trans (Except.bind_ok_eq_map _ _)

theorem promoBeat_ready {out : List EByte} (hdst : ready t c .write (c.opd + BitVec.ofNat 64 p) n s = .ok a) :
    promoBeat t c out p n s = (oncePieces t c n a (c.opd + BitVec.ofNat 64 p).toNat ((out.drop p).take n)).map
      fun q => q.reached t c (p + n) :=
  (Except.bind_of_ok hdst _).trans (Except.bind_ok_eq_map _ _)

end

theorem State.deliver_mem (s : State) (t : BitVec 10) (c : Cmd) (i : BitVec 10) (off : Nat) (old : List Bool)
    (bs : List EByte) :
    (s.deliver t c i off old bs).mem = writeBytes s.mem (tileBase i.toNat + off) (bs.map (·.1)) := by
  show (State.watched _ _ _ _ _).mem = _
  rw [(keepsStores_watched _ _ _ _ _).mem]
  simp only [State.dropLines, State.modTile_mem, State.pokeAfter_mem]

theorem beats_stop (f : Nat → Nat → State → Except EStop State) {stop p : Nat} (h : stop ≤ p) (k : Nat) (s : State) :
    beats f stop k p s = .ok s := by
  cases k with
  | zero => rfl
  | succ k => rw [beats, if_pos h]

theorem beats_next {f : Nat → Nat → State → Except EStop State} {stop p : Nat} {s a : State} (hp : p < stop)
    (hf : f p (min 64 (stop - p)) s = .ok a) (k : Nat) :
    beats f stop (k + 1) p s = beats f stop k (p + min 64 (stop - p)) a := by
  rw [beats, if_neg (Nat.not_le.2 hp)]
  exact Except.bind_of_ok hf _

/-! The commands. -/

section
variable {s b : State} {t : BitVec 10} {c : Cmd}

theorem stopPoint_of_live (hlive : c.cancelled = false) (p n : Nat) : stopPoint c p n = n := by
  rw [stopPoint, hlive, if_neg Bool.false_ne_true]

/-- A stream that is not cancelled goes to its end. -/
theorem streamRest_of_live (hlive : c.cancelled = false) (f : Nat → Nat → State → Except EStop State) (n : Nat) :
    streamRest f t c n s = (beats f n (n / 64 + 2) c.progress s).map fun q => (q.reached t c n, true) := by
  rw [streamRest, stopPoint_of_live hlive]
  simp only [Nat.lt_irrefl, if_false]
  exact Except.bind_ok_eq_map _ _

theorem runCpyMc_of_live (hlive : c.cancelled = false) {x : Sets} (hsets : c.sets = some x) :
    runCpyMc t c s =
      (beats (multicastBeat t c) c.opb.toNat (c.opb.toNat / 64 + 2) c.progress s).map fun q =>
        (q.reached t c c.opb.toNat, decide (c.opb.toNat = 0 ∨
          ((q.reached t c c.opb.toNat).targets t c).length = x.tileList.length)) := by
  have hzero : decide (c.opb = 0) = decide (c.opb.toNat = 0) := decide_eq_decide.2 BitVec.toNat_inj.symm
  rw [runCpyMc, streamRest_of_live hlive, hsets]
  cases beats (multicastBeat t c) c.opb.toNat (c.opb.toNat / 64 + 2) c.progress s with
  | error e => rfl
  | ok q =>
    simp only [Except.map, Bool.decide_or, ← hzero]
    rfl

theorem runCpyT_of_live (hlive : c.cancelled = false) {out : List EByte} {why : Nat} {all : Bool}
    (hdec : decoded t c s = .ok (b, out, why, all)) :
    runCpyT t c s = (beats (decodedBeat t c out) out.length (out.length / 64 + 2) c.progress b).bind fun q =>
      decodedEnd t c why all (q.reached t c out.length) := by
  rw [runCpyT]
  refine (Except.bind_of_ok hdec _).trans ?_
  dsimp only
  rw [streamRest_of_live hlive]
  cases beats (decodedBeat t c out) out.length (out.length / 64 + 2) c.progress b <;> rfl

theorem runPromo_of_live (hlive : c.cancelled = false) (hform : c.opb1 ≠ 0) {out : List EByte} {why : Nat} {all : Bool}
    (hdec : decoded t c s = .ok (b, out, why, all)) :
    runPromo t c s = (promoBeats t c out out.length (out.length / 128 + 2) c.progress b).bind fun q =>
      decodedEnd t c why all q := by
  rw [runPromo, if_neg (by simp [hlive]), if_neg hform]
  refine (Except.bind_of_ok hdec _).trans ?_
  dsimp only
  rw [stopPoint_of_live hlive]
  simp only [Nat.lt_irrefl, if_false]
  rfl

theorem decoded_first {a u : State} {bs : List EByte} {all : Bool} (hnone : (s.cmdNow t c).output = none)
    (hready : ready t c .read c.opa c.opb.toNat s = .ok a)
    (hread : readSome t c c.opa c.opb.toNat a = .ok (u, bs, all)) :
    ∃ q, decoded t c s = .ok (q, (transform c.opb1 bs).1, (transform c.opb1 bs).2, all) ∧ q.mem = u.mem := by
  rw [decoded, hnone]
  exact ⟨_, (Except.bind_of_ok hready _).trans (Except.bind_of_ok hread _), rfl⟩

end

/-! Elements that are gathered and scattered. -/

section
variable {s a u : State} {t : BitVec 10} {c : Cmd} {e : GsElem} {bs : List EByte}

theorem gathOne_performs (hperforms : gsPerforms t c .read e s = (a, true))
    (hread : readAll t c e.addr (gsElem c.desc) a = .ok (u, bs)) :
    gathOne t c e s = (writeAll t c (c.opd + BitVec.ofNat 64 (e.index * gsElem c.desc))
      (if e.bad = true then bs.map fun x => (x.1, true) else bs) u).map fun q => (q, true) := by
  simp only [gathOne, hperforms, if_true]
  exact (Except.bind_of_ok hread _).trans (Except.bind_ok_eq_map _ _)

theorem gathOne_skips (hperforms : gsPerforms t c .read e s = (a, false)) : gathOne t c e s = .ok (a, false) := by
  simp only [gathOne, hperforms, Bool.false_eq_true, if_false]

theorem scatOne_performs (hperforms : gsPerforms t c .write e s = (a, true)) (hgood : e.bad = false)
    (hread : readAll t c (c.opd + BitVec.ofNat 64 (e.index * gsElem c.desc)) (gsElem c.desc) a = .ok (u, bs)) :
    scatOne t c e s = (writeAll t c e.addr bs u).map fun q => (q, true) := by
  simp only [scatOne, hperforms, hgood, Bool.not_false, Bool.and_self, if_true]
  exact (Except.bind_of_ok hread _).trans (Except.bind_ok_eq_map _ _)

theorem scatOne_skips {ok : Bool} (hperforms : gsPerforms t c .write e s = (a, ok)) (h : ok = false ∨ e.bad = true) :
    scatOne t c e s = .ok (a, false) := by
  have hskip : (ok && !e.bad) = false := by obtain rfl | h := h <;> simp [*]
  simp only [scatOne, hperforms, hskip, Bool.false_eq_true, if_false]

end

theorem copyBytes : Claims.CopyBytes := by
  intro s a b u v t c bs p n
  refine ⟨fun hsrc => ⟨copyBeat_read hsrc, fun hread => ⟨fun l => multicastBeat_all hsrc hread,
      fun l => multicastBeat_cancel hsrc hread⟩⟩,
    fun i off old => ⟨fun k h => ?_, sameOutside_of_writeBytes (s.deliver_mem t c i off old bs)⟩,
    fun out hdst => ⟨decodedBeat_ready hdst, promoBeat_ready hdst⟩,
    fun f stop k => ⟨fun h => beats_stop f h k s, fun hp hf => beats_next hp hf k⟩, fun hlive => ?_,
    fun all hnone hready hread => decoded_first hnone hready hread,
    fun e => ⟨gathOne_performs, gathOne_skips, scatOne_performs, fun ok => scatOne_skips⟩, fun hread => ?_⟩
  · rw [State.deliver_mem]
    exact readByte_marked _ bs h
  · refine ⟨fun d g e hc => ?_, fun d g e z x hc hsets => ?_, fun d g e out why all hc hdec => ?_,
      fun d g e k out why all hc hform hdec => ?_⟩ <;> rw [runEffect, hc]
    · exact streamRest_of_live hlive _ _
    · exact runCpyMc_of_live hlive hsets
    · exact runCpyT_of_live hlive hdec
    · exact runPromo_of_live hlive hform hdec
  · refine ⟨fun d g hc hready => ?_, fun d g hc hready => ?_⟩ <;> rw [runEffect, hc] <;>
      exact (Except.bind_of_ok hread _).trans (Except.bind_of_ok hready _)

end Sys2Proof.Machine
end

section
/-! SUPPORT. What the draw commands and `route` write (R252, R378 to R386). -/

namespace Sys2Proof.Machine

open Sys2Proof.Claims

/-! Outputs that are drawn. -/

section
variable {r q : Reader} {t : BitVec 10} {c : Cmd} {cs : List Cand}

theorem runDrawn_eq_bind (t : BitVec 10) (c : Cmd) (f : Reader → Drawn) (s : State) :
    runDrawn t c f s = (f ⟨s, false⟩).bind fun x =>
      (writeAll t c c.opd (x.2.map fun b => (b, x.1.bad)) x.1.s).map fun v => (v, true) := by
  rw [runDrawn, writeDrawn]
  cases f ⟨s, false⟩ with
  | error e => rfl
  | ok x => exact Except.bind_ok_eq_map _ _

/-- A draw's status word, where it neither accepts nor resamples. -/
theorem status_drawn (token n : Nat) (last : Bool) :
    status token false false false last n =
      leBytes 8 (token % 2 ^ 32 + (if last = true then 2 ^ 35 else 0) + min n 4095 * 2 ^ 36) := by
  cases last <;> simp [status, nb]

theorem topkOut_empty (hflat : r.flat t c (dwLaddr c.desc) = .ok (q, cs)) (hempty : dwFilter c.desc cs = []) :
    topkOut t c r = .error (.fault .drawEmptySet q.s) := by
  refine (Except.bind_of_ok hflat _).trans ?_
  simp only [hempty, List.isEmpty_nil, if_true]
  rfl

theorem topkOut_drawn (hflat : r.flat t c (dwLaddr c.desc) = .ok (q, cs)) (hsome : dwFilter c.desc cs ≠ []) :
    topkOut t c r = .ok (q, leBytes 4 (dwFilter c.desc cs).length ++
      leBytes 4 (sum32 ((weights (dwFilter c.desc cs)).map (·.2))) ++
        (dwFilter c.desc cs).flatMap fun x => leBytes 4 x.index ++ leBytes 4 x.weight) := by
  refine (Except.bind_of_ok hflat _).trans ?_
  simp only [List.isEmpty_iff, hsome, if_false]

theorem drawOut_empty (hflat : r.flat t c (dwLaddr c.desc) = .ok (q, cs)) (hempty : dwFilter c.desc cs = []) :
    drawOut t c r = .error (.fault .drawEmptySet q.s) := by
  refine (Except.bind_of_ok hflat _).trans ?_
  simp only [hempty, List.isEmpty_nil, if_true]
  rfl

theorem drawOut_drawn (hflat : r.flat t c (dwLaddr c.desc) = .ok (q, cs)) (hsome : dwFilter c.desc cs ≠ []) :
    drawOut t c r = .ok (q, leBytes 8 ((drawFrom (weights (dwFilter c.desc cs)) (dwGen c.desc 0)).1 % 2 ^ 32 +
      (if (drawFrom (weights (dwFilter c.desc cs)) (dwGen c.desc 0)).2 = true then 2 ^ 35 else 0) +
        min (dwFilter c.desc cs).length 4095 * 2 ^ 36)) := by
  refine (Except.bind_of_ok hflat _).trans ?_
  simp only [List.isEmpty_iff, hsome, if_false, status_drawn]

theorem drawTwo_noCluster {k : Block2} {h : List Val} {ks : List Cluster} {bonus : Bool} :
    drawTwo t c k h ks [] bonus r = .error (.fault .drawEmptySet r.s) := rfl

section
variable {k : Block2} {h : List Val} {ks : List Cluster} {cset ms : List Member} {bonus : Bool}

theorem drawTwo_noToken (hcset : cset ≠ [])
    (hset : tokenSet t c k h (ks[(drawFrom (weights cset) (dwGen c.desc 0)).1]?.getD ⟨0, 0, 0⟩) r = .ok (q, ms))
    (hempty : ms = []) : drawTwo t c k h ks cset bonus r = .error (.fault .drawEmptySet q.s) := by
  rw [drawTwo, if_neg (by simpa using hcset)]
  refine (Except.bind_of_ok hset _).trans ?_
  simp only [hempty, List.isEmpty_nil, if_true]
  rfl

theorem drawTwo_drawn (hcset : cset ≠ [])
    (hset : tokenSet t c k h (ks[(drawFrom (weights cset) (dwGen c.desc 0)).1]?.getD ⟨0, 0, 0⟩) r = .ok (q, ms))
    (hsome : ms ≠ []) :
    drawTwo t c k h ks cset bonus r =
      .ok (q, status ((ks[(drawFrom (weights cset) (dwGen c.desc 0)).1]?.getD ⟨0, 0, 0⟩).first +
        (drawFrom (weights ms) (dwGen c.desc 1)).1) false false bonus (drawFrom (weights ms) (dwGen c.desc 1)).2
          ms.length ++ leBytes 8 ((drawFrom (weights cset) (dwGen c.desc 0)).1 % 2 ^ 20)) := by
  rw [drawTwo, if_neg (by simpa using hcset)]
  refine (Except.bind_of_ok hset _).trans ?_
  simp only [List.isEmpty_iff, hsome, if_false]
  rfl

end

end

/-! `gmask` and `route`. -/

/-- A logit as `gmask` writes it, with the mask byte that holds its bit. -/
def maskedLogit (c : Cmd) (mask : List EByte) (ninf : Nat) (x : List EByte × Nat) : List EByte :=
  let m := mask[x.2 / 8]?.getD (0, false)
  let on : Bool := dwMaddr c.desc = 0 || m.1.getLsbD (x.2 % 8)
  (leBytes (tagWidth (dwTag c.desc) / 8) (if on = true then leNat (x.1.map (·.1)) else ninf)).map fun z =>
    (z, x.1.any (·.2) || (decide (dwMaddr c.desc ≠ 0) && m.2))

theorem testBit_ones (k : Nat) : Nat.testBit 255 (k % 8) = true := by
  have h : k % 8 < 8 := Nat.mod_lt _ (by decide)
  generalize k % 8 = j at h
  revert j
  decide

theorem maskedLogit_unmasked {c : Cmd} (hm : dwMaddr c.desc = 0) (mask : List EByte) (ninf : Nat)
    (x : List EByte × Nat) :
    maskedLogit c mask ninf x = eBytes (tagWidth (dwTag c.desc) / 8)
      (if (255 : Nat).testBit (x.2 % 8) = true then (eNat x.1).1 else ninf, (eNat x.1).2 || false) := by
  simp [maskedLogit, hm, eBytes, eNat, testBit_ones]

theorem maskedLogit_masked {c : Cmd} (hm : dwMaddr c.desc ≠ 0) (mask : List EByte) (ninf : Nat) (x : List EByte × Nat) :
    maskedLogit c mask ninf x = eBytes (tagWidth (dwTag c.desc) / 8)
      (if (mask[x.2 / 8]?.getD (0, false)).1.toNat.testBit (x.2 % 8) = true then (eNat x.1).1 else ninf,
        (eNat x.1).2 || (mask[x.2 / 8]?.getD (0, false)).2) := by
  have hm' : ¬ dwMaddr c.desc = 0#64 := hm
  simp [maskedLogit, hm', eBytes, eNat]
  rfl

section
variable {s a b u x : State} {t : BitVec 10} {c : Cmd} {bs mask : List EByte} {f : Fmt}

theorem runGmask_masked (hsrc : ready t c .read (dwLaddr c.desc) (dwN c.desc * (tagWidth (dwTag c.desc) / 8)) s = .ok a)
    (hmask : (dwMaddr c.desc = 0 ∧ b = a) ∨
      (dwMaddr c.desc ≠ 0 ∧ ready t c .read (dwMaddr c.desc) ((dwN c.desc + 7) / 8) a = .ok b))
    (hread : readAll t c (dwLaddr c.desc) (dwN c.desc * (tagWidth (dwTag c.desc) / 8)) b = .ok (u, bs))
    (hbits : (dwMaddr c.desc = 0 ∧ x = u ∧ mask = []) ∨
      (dwMaddr c.desc ≠ 0 ∧ readAll t c (dwMaddr c.desc) ((dwN c.desc + 7) / 8) u = .ok (x, mask)))
    (hfmt : tagFmt (dwTag c.desc) = some f) :
    runGmask t c s = (writeAll t c c.opd ((chunks (tagWidth (dwTag c.desc) / 8) bs).zipIdx.flatMap
      (maskedLogit c mask (f.pack .rne (.inf true)))) x).map fun v => (v, true) := by
  rw [runGmask]
  refine (Except.bind_of_ok hsrc _).trans ?_
  obtain ⟨hm, rfl⟩ | ⟨hm, hmask⟩ := hmask
  · obtain ⟨-, rfl, rfl⟩ | ⟨hne, -⟩ := hbits
    · simp only [hm, if_true]
      refine (Except.bind_of_ok rfl _).trans ((Except.bind_of_ok hread _).trans ((Except.bind_of_ok rfl _).trans ?_))
      simp only [hfmt]
      refine (Except.bind_ok_eq_map _ _).trans ?_
      rw [funext (maskedLogit_unmasked hm [] (f.pack .rne (.inf true)))]
      rfl
    · exact absurd hm hne
  · obtain ⟨he, -, -⟩ | ⟨-, hbits⟩ := hbits
    · exact absurd he hm
    · simp only [hm, if_false]
      refine (Except.bind_of_ok hmask _).trans <| (Except.bind_of_ok hread _).trans <|
        (Except.bind_of_ok hbits _).trans ?_
      simp only [hfmt]
      refine (Except.bind_ok_eq_map _ _).trans ?_
      rw [funext (maskedLogit_masked hm mask (f.pack .rne (.inf true)))]

end

theorem drawBytes : Claims.DrawBytes := by
  intro s a b u t c d put drawn
  have hdrawn (f : Reader → Drawn) (h : runEffect t c s = runDrawn t c f s) : drawn f :=
    h.trans (runDrawn_eq_bind t c f s)
  refine ⟨fun g e hc => ?_, fun g e hc => hdrawn _ ?_, fun g e hc => hdrawn _ ?_, fun g e hc => hdrawn _ ?_,
    fun g e hc => ⟨fun hmode => hdrawn _ ?_, fun hmode => hdrawn _ ?_, fun hmode => hdrawn _ ?_⟩,
    fun r q cs hflat => ⟨fun h => ⟨topkOut_empty hflat h, drawOut_empty hflat h⟩,
      fun h => ⟨topkOut_drawn hflat h, drawOut_drawn hflat h⟩⟩,
    fun k h ks cset ms bonus r q => ⟨?_, fun hcset hset => ⟨drawTwo_noToken hcset hset, drawTwo_drawn hcset hset⟩⟩,
    fun g e bs mask ninf hc hsrc hmask hread x hbits hfmt => ?_,
    fun g e z q w x ls xs ds hc hl hx hd hls hxs hds => ?_⟩
  · rw [runEffect, hc]
    exact Except.bind_ok_eq_map _ _
  · rw [runEffect, hc]
    rfl
  · rw [runEffect, hc]
    rfl
  · rw [runEffect, hc]
    rfl
  · rw [runEffect, hc]
    simp [runAccept, show dwMode c.desc = 0 from hmode]
  · rw [runEffect, hc]
    exact if_pos hmode
  · rw [runEffect, hc]
    simp [runAccept, show dwMode c.desc = 2 from hmode]
  · rintro rfl
    exact drawTwo_noCluster
  · obtain ⟨f, hf, rfl⟩ := hfmt
    rw [runEffect, hc]
    exact runGmask_masked hsrc hmask hread hbits hf
  · rw [runEffect, hc]
    refine (Except.bind_of_ok hl _).trans <| (Except.bind_of_ok hx _).trans <| (Except.bind_of_ok hd _).trans <|
      (Except.bind_of_ok hls _).trans <| (Except.bind_of_ok hxs _).trans <| (Except.bind_of_ok hds _).trans <|
        Except.bind_ok_eq_map _ _

end Sys2Proof.Machine
end

section
/-! SUPPORT. What `coll` and `ring` write (R208, R209, R392, R393). -/

namespace Sys2Proof.Machine

open Sys2Proof.Claims

section
variable {s a u : State} {t : BitVec 10} {c : Cmd}

theorem finishColl_agrees {parts : List (BitVec 10 × Cmd)} {xs : List (List EByte)}
    (hmember : c.members.contains t = true) (hfirst : s.firstColl t c = true)
    (hparts : s.collParts c c.members = some parts)
    (hgo : (∀ i ∈ c.members, (s.cut i c.region).stopped = false) ∨ ∃ p ∈ parts, s.inStep p.1 p.2 = true)
    (hagrees : collAgrees c c.members parts = true) (hread : collRead parts s = .ok (a, xs)) :
    finishColl t c s = collWrite
      (collResult c.desc ((rankOf c.members (BitVec.ofNat 10 (collRoot c.desc))).getD 0) xs) parts
        (a.countAll c.region c.members) := by
  have hstands : s.collStands c parts = false := by
    rw [State.collStands, Bool.and_eq_false_iff]
    exact hgo.imp (fun h => by simpa using h) fun h => by simpa using h
  rw [finishColl]
  simp only [hmember, hfirst, hparts, hstands, hagrees, Bool.not_true, Bool.or_self, Bool.false_eq_true, if_false]
  exact Except.bind_of_ok hread _

theorem collWrite_cons {i : BitVec 10} {e : Cmd} (r : List (BitVec 10 × Cmd)) {out : List EByte}
    (h : writeAll i e (collDst e.desc) out s = .ok u) :
    collWrite out ((i, e) :: r) s = collWrite out r (u.finishCmd i e true) := by
  rw [collWrite, h]

theorem collResult_gather {d : List Byte} (hop : collOp d = 3) (root : Nat) (xs : List (List EByte)) :
    collResult d root xs = xs.flatten := by
  rw [collResult]
  exact if_pos hop

theorem collResult_broadcast {d : List Byte} (hop : collOp d = 4) (root : Nat) (xs : List (List EByte)) :
    collResult d root xs = xs[root]?.getD [] := by
  rw [collResult]
  exact (if_neg (by rw [hop]; decide)).trans (if_pos hop)

theorem collResult_fold {d : List Byte} (hop : collOp d < 3) (root : Nat) (x : List EByte) (r : List (List EByte)) :
    collResult d root (x :: r) = eJoin (tagWidth (collTag d))
      (r.foldl (fun p y => collFold d p (eElems (tagWidth (collTag d)) y)) (eElems (tagWidth (collTag d)) x)) := by
  rw [collResult]
  refine (if_neg (by omega)).trans ((if_neg (by omega)).trans ?_)
  rw [List.map_cons]
  dsimp only
  rw [List.foldl_map]

theorem ringSend_next {members : List (BitVec 10)} {i : BitVec 10} {e : Cmd} {bs : List EByte}
    (hnext : nextMember members t = some i) (hpart : s.ringPart c i = some e)
    (hread : readAll t c (ringFwd c.desc) (ringBytes c.desc) s = .ok (a, bs))
    (hwrite : writeAll i e (ringRcv e.desc) (smearRows (ringDim c.desc) bs)
      ((a.countTransfer c.region t i).modCmd t c fun x => { x with emitted := true }) = .ok u) :
    ringSend t c members s = .ok ((u.dropWritten t i e (ringRcv e.desc) (ringBytes c.desc)).modCmd i e
      fun x => { x with progress := 1 }) := by
  rw [ringSend, hnext]
  dsimp only
  rw [hpart]
  refine (Except.bind_of_ok hread _).trans ?_
  dsimp only
  rw [hwrite]

theorem ringMerge_held {rcv held : List EByte} (hrcv : readAll t c (ringRcv c.desc) (ringBytes c.desc) s = .ok (a, rcv))
    (hheld : readAll t c (ringHeld c.desc) (ringBytes c.desc) a = .ok (u, held)) :
    ringMerge t c s = (writeAll t c (ringHeld c.desc) (List.zipWith (mergeBytes (ringDim c.desc))
      (chunks (rowSize (ringDim c.desc)) held) (chunks (rowSize (ringDim c.desc)) rcv)).flatten u).map
        fun v => v.modCmd t c fun x => { x with progress := 2 } :=
  (Except.bind_of_ok hrcv _).trans <| (Except.bind_of_ok hheld _).trans <| Except.bind_ok_eq_map _ _

end

theorem exchangeBytes : Claims.ExchangeBytes := by
  intro s a u t c
  refine ⟨fun parts xs => finishColl_agrees,
    fun i e r out h => collWrite_cons r h, fun d root xs x r => ⟨fun h => collResult_gather h root xs,
      fun h => collResult_broadcast h root xs, ?_⟩,
    fun members i e bs hnext hpart hread hwrite => ringSend_next hnext hpart hread hwrite,
    fun rcv held hrcv hheld => ringMerge_held hrcv hheld⟩
  rintro hop rfl
  exact collResult_fold hop root x r

end Sys2Proof.Machine
end

section
/-! SUPPORT. Commands that start and finish (R75, R114, R116, R117, R119). -/

namespace Sys2Proof.Machine

open Sys2Proof.Claims

theorem State.footprint_insn (s : State) (t : BitVec 10) (c : Cmd) : (s.footprint t c).insn = c.insn := by
  unfold State.footprint
  split <;> rfl

section
variable {s : State} {t : BitVec 10} {n : Nat} {c : Cmd} (hc : (s.tile t).cmds[n]? = some c)
include hc

theorem startCommand_runs
    (hstart : ((s.asCommand c).scoreboard t).startable n ((s.asCommand c).footprint t c) = true) :
    s.startCommand t n =
      let q := s.asCommand c
      let d := { q.footprint t c with running := true }
      let u := q.modCmd t d fun _ => d
      (startEffect t d (if usesChannel c.insn = true then
          u.modTile t fun x => x.setChannel (channelOf d.thr) ⟨d.opd.setWidth 56, d.thr, true, false, false, some d.thr⟩
        else u)).actsFor none := by
  rw [State.startCommand, hc]
  dsimp only
  rw [if_neg (by simp [hstart])]
  simp only [State.footprint_insn]

theorem finishes_running (hrun : c.running = true) {u : State} (h : finishRunning t c (s.asCommand c) = .next u) :
    Does (.engineCommandFinish t n) s (u.actsFor none) := by
  show execEngineCommandFinish t n s = _
  rw [execEngineCommandFinish, hc]
  exact (if_pos hrun).trans (by rw [h]; rfl)

theorem finishes_cancelled (hrun : c.running = false) (hcancelled : c.cancelled = true) :
    Does (.engineCommandFinish t n) s (s.finishCmd t c false) := by
  show execEngineCommandFinish t n s = _
  rw [execEngineCommandFinish, hc]
  dsimp only
  rw [if_neg (by simp [hrun]), if_pos hcancelled]

end

section
variable {s : State} {t : BitVec 10} {c : Cmd}

/-- A command that takes part in no exchange, and ends with no move and no block, ends with its own effect. -/
theorem finishRunning_alone (hlive : c.cancelled = false ∨ streams c.insn = true)
    (hmove : ∀ a b e, c.insn ≠ .rmove a b e)
    (hevict : ∀ a b, c.insn ≠ .evict a b) (hcoll : ∀ a e, c.insn ≠ .coll a e) (hring : ∀ a e, c.insn ≠ .ring a e) :
    finishRunning t c s = finishWith t c (runEffect t c s) := by
  unfold finishRunning
  split
  · exact absurd ‹c.insn = _› (hmove _ _ _)
  · exact absurd ‹c.insn = _› (hevict _ _)
  · exact absurd ‹c.insn = _› (hcoll _ _)
  · exact absurd ‹c.insn = _› (hring _ _)
  · exact if_neg (by obtain h | h := hlive <;> simp [h])

theorem finishRunning_cancelled (hcancelled : c.cancelled = true) (hstreams : streams c.insn = false)
    (hmove : ∀ a b e, c.insn ≠ .rmove a b e) : finishRunning t c s = .next (s.finishCmd t c false) := by
  unfold finishRunning
  split
  · exact absurd ‹c.insn = _› (hmove _ _ _)
  · rw [if_pos hcancelled]
  · exact if_pos hcancelled
  · exact if_pos hcancelled
  · exact if_pos (by simp [hcancelled, hstreams])

theorem finishRunning_rmove {a b : BitVec 5} {e : BitVec 4} (h : c.insn = .rmove a b e) :
    finishRunning t c s = .next s := by
  rw [finishRunning, h]

theorem finishRunning_evict {a b : BitVec 5} (h : c.insn = .evict a b) (hlive : c.cancelled = false) :
    finishRunning t c s = .next (finishEvict t c s) := by
  rw [finishRunning, h]
  dsimp only
  rw [if_neg (by simp [hlive])]

theorem finishRunning_coll {a : BitVec 5} {e : BitVec 4} (h : c.insn = .coll a e) (hlive : c.cancelled = false) :
    finishRunning t c s = exchanged (finishColl t c s) := by
  rw [finishRunning, h]
  exact if_neg (by simp [hlive])

theorem finishRunning_ring {a : BitVec 5} {e : BitVec 4} (h : c.insn = .ring a e) (hlive : c.cancelled = false)
    {u : State}
    (hring : finishRing t c s = .ok u ∨ finishRing t c s = .error (.wait u)) : finishRunning t c s = .next u := by
  rw [finishRunning, h]
  refine (if_neg (by simp [hlive])).trans ?_
  obtain hring | hring := hring <;> rw [hring] <;> rfl

theorem finishRunning_ring_cancel {a : BitVec 5} {e : BitVec 4} (h : c.insn = .ring a e) (hlive : c.cancelled = false)
    {u : State}
    (hring : finishRing t c s = .error (.cancel u)) : finishRunning t c s = .next (u.finishCmd t c false) := by
  rw [finishRunning, h]
  refine (if_neg (by simp [hlive])).trans ?_
  rw [hring]

theorem finishEvict_empty (h : c.blocks = []) : finishEvict t c s = s.finishCmd t c (!c.skipped) := by
  rw [finishEvict, h]
  rfl

theorem finishEvict_waits (h : c.blocks ≠ []) : finishEvict t c s = s := if_neg (by simpa using h)

end

end Sys2Proof.Machine

namespace Sys2Proof.Claims

open Sys2Proof.Machine

theorem engineEvents : Claims.EngineEvents := by
  intro s t n c hc
  refine ⟨fun hstart huses => ?_, fun hstart huses => ?_, finishes_cancelled hc, fun q ok hrun hlive hinsn => ?_,
    fun hrun => ?_, fun d hd => ?_⟩
  · refine congrArg Host.Outcome.next ((startCommand_runs hc hstart).trans ?_)
    dsimp only
    rw [if_neg (by simp [huses])]
  · refine congrArg Host.Outcome.next ((startCommand_runs hc hstart).trans ?_)
    dsimp only
    rw [if_pos huses]
  · have halone : finishRunning t c (s.asCommand c) = finishWith t c (runEffect t c (s.asCommand c)) := by
      refine finishRunning_alone hlive ?_ ?_ ?_ ?_ <;> intros <;> intro h <;> rw [h] at hinsn <;> exact hinsn
    refine ⟨fun h => finishes_running hc hrun ?_, fun h => finishes_running hc hrun ?_,
      fun h => finishes_running hc hrun ?_⟩ <;> rw [halone, h] <;> rfl
  · refine ⟨fun a b e h => finishes_running hc hrun (finishRunning_rmove h), fun a b h hlive => ⟨fun hblocks => ?_,
      fun hblocks => ?_⟩, fun a e u h hlive hcoll => finishes_running hc hrun ?_,
      fun a e u h hlive => ⟨fun hring => finishes_running hc hrun (finishRunning_ring h hlive hring),
        fun hring => finishes_running hc hrun (finishRunning_ring_cancel h hlive hring)⟩,
      fun hcancelled hstreams hmove => finishes_running hc hrun (finishRunning_cancelled hcancelled hstreams hmove)⟩
    · exact finishes_running hc hrun ((finishRunning_evict h hlive).trans (by rw [finishEvict_empty hblocks]))
    · exact finishes_running hc hrun ((finishRunning_evict h hlive).trans (by rw [finishEvict_waits hblocks]))
    · rw [finishRunning_coll h hlive]
      obtain hcoll | hcoll := hcoll <;> rw [hcoll] <;> rfl
  · rw [runEffect, hd]
    exact runAzero_zero s t c d

end Sys2Proof.Claims
end

section
/-! SUPPORT. Walks, moves, compactions, batches and blocks (R128, R134, R139, R140, R143, R149, R153, R157, R158). -/

namespace Sys2Proof.Machine

open Sys2Proof.Claims

/-! A leaf in memory. -/

/-- A part of the bytes that were written, read back. -/
theorem readNat_writeBytes_part (m : List Host.Cell) (pa : Nat) {bs : List Byte} {a n : Nat} (h : a + n ≤ bs.length) :
    readNat (writeBytes m pa bs) (pa + a) n = leNat ((bs.drop a).take n) := by
  refine congrArg leNat (List.ext_getElem (by simp [readBytes]; omega) fun k h1 h2 => ?_)
  have hk : k < n := by simpa [readBytes] using h1
  rw [List.getElem_take, List.getElem_drop]
  simp only [readBytes, List.getElem_map, List.getElem_range]
  rw [Nat.add_assoc, readByte_writeBytes_in _ _ _ _ (by omega)]

theorem RangeEntry.length_bytes (e : RangeEntry) : e.bytes.length = 64 := by
  simp [RangeEntry.bytes, length_leBytes]

theorem RangeEntry.bytes_word3 (e : RangeEntry) : (e.bytes.drop 24).take 8 = leBytes 8 e.word3 := by
  rw [RangeEntry.bytes, List.append_assoc (_ ++ leBytes 8 e.word3), List.append_assoc (_ ++ leBytes 8 e.word3),
    List.append_assoc (_ ++ leBytes 8 e.word3), List.append_assoc _ (leBytes 8 e.word3),
    List.drop_left' (by simp [length_leBytes]),
    List.take_left' (length_leBytes 8 _)]

theorem RangeEntry.bytes_fbase (e : RangeEntry) : (e.bytes.drop 40).take 8 = leBytes 8 e.fbase := by
  rw [RangeEntry.bytes, List.append_assoc (_ ++ leBytes 8 e.fbase), List.append_assoc _ (leBytes 8 e.fbase),
    List.drop_left' (by simp [length_leBytes]), List.take_left' (length_leBytes 8 _)]

theorem RangeEntry.word3_gen (e : RangeEntry) : e.word3 % 2 ^ 64 / 2 ^ 16 % 2 ^ 24 = e.gen.toNat := by
  have hnb (b : Bool) : nb b ≤ 1 := by cases b <;> decide
  have := hnb e.permR; have := hnb e.permW; have := hnb e.permX; have := hnb e.priv; have := hnb e.shared
  have := hnb e.cow; have := hnb e.vol; have := hnb e.tiered; have := hnb e.forwarding
  have := e.gen.isLt; have := e.fscope.isLt; have := e.rtag.isLt
  rw [RangeEntry.word3]
  omega

section
variable {s : State} {n : Nat} {m : Move} {l : Leaf}

/-- A step that is not the last leaves the image of its leaf in memory. -/
theorem stepMove_mem (h : min (m.fbase + 65536) m.limit < m.limit) :
    (s.stepMove n m l).mem = writeBytes (((s.copyStep m m.fbase (min (m.fbase + 65536) m.limit)).modTile m.tile fun t =>
        t.setChannel m.channel { t.channel m.channel with
          wp := BitVec.ofNat 56 (min (m.fbase + 65536) m.limit) }).placeRecords
          m m.fbase (min (m.fbase + 65536) m.limit)).mem l.addr
      (RangeEntry.bytes
        { l.entry with fbase := min (m.fbase + 65536) m.limit, gen := l.entry.gen + 1, rtag := 0 }) := by
  rw [State.stepMove]
  dsimp only
  rw [if_pos h]
  rfl

theorem stepMove_fbase (h : min (m.fbase + 65536) m.limit < m.limit) (hlimit : m.limit ≤ 2 ^ 56) :
    readNat (s.stepMove n m l).mem (l.addr + 40) 8 = min (m.fbase + 65536) m.limit := by
  rw [stepMove_mem h, readNat_writeBytes_part _ _ (by rw [RangeEntry.length_bytes]; decide), RangeEntry.bytes_fbase,
    leNat_leBytes]
  exact Nat.mod_eq_of_lt (Nat.lt_of_lt_of_le h (Nat.le_trans hlimit (by decide)))

theorem stepMove_gen (h : min (m.fbase + 65536) m.limit < m.limit) :
    readNat (s.stepMove n m l).mem (l.addr + 24) 8 / 2 ^ 16 % 2 ^ 24 = (l.entry.gen.toNat + 1) % 2 ^ 24 := by
  rw [stepMove_mem h, readNat_writeBytes_part _ _ (by rw [RangeEntry.length_bytes]; decide), RangeEntry.bytes_word3,
    leNat_leBytes]
  exact (RangeEntry.word3_gen _).trans (BitVec.toNat_add _ _)

/-! The steps of a move. -/

section
variable (hm : s.moves[n]? = some m) (hl : s.moveLeaf m = some l) (hturn : s.moveTurn n m = true)
include hm hl hturn

theorem moveStep_begins (hstarted : m.started = false) : s.moveStep n = s.beginMove n m := by
  rw [State.moveStep, hm]
  dsimp only
  rw [hl]
  dsimp only
  rw [if_neg (by simp [hturn]), if_pos (by simp [hstarted])]

theorem moveStep_ends (hstarted : m.started = true) (hend : m.limit ≤ m.fbase) : s.moveStep n = s.tryFinish n m l := by
  rw [State.moveStep, hm]
  dsimp only
  rw [hl]
  dsimp only
  rw [if_neg (by simp [hturn]), if_neg (by simp [hstarted]), if_pos hend]

theorem moveStep_steps (hstarted : m.started = true) (hmore : m.fbase < m.limit)
    (hroom : ∀ c ∈ lineHomes (imageOf m.oldOff m.fbase) (min 65536 (m.limit - m.fbase)), (s.cmem c).forward.length < 64)
    (hready : s.stepReady m l (min 65536 (m.limit - m.fbase)) = .ok ()) : s.moveStep n = s.stepMove n m l := by
  rw [State.moveStep, hm]
  dsimp only
  rw [hl]
  dsimp only
  rw [if_neg (by simp [hturn]), if_neg (by simp [hstarted]), if_neg (Nat.not_le.2 hmore), hready]
  exact if_neg (by simpa using hroom)

theorem moveStep_waits (hstarted : m.started = true) (hmore : m.fbase < m.limit) {u : State} {bs : List Nat}
    (hready : s.stepReady m l (min 65536 (m.limit - m.fbase)) = .error (u, bs)) : s.moveStep n = u := by
  rw [State.moveStep, hm]
  dsimp only
  rw [hl]
  dsimp only
  rw [if_neg (by simp [hturn]), if_neg (by simp [hstarted]), if_neg (Nat.not_le.2 hmore), hready]

end

theorem stepReady_hard (h : m.hard = true) (k : Nat) : s.stepReady m l k = .ok () := if_pos h

theorem stepReady_soft (h : m.hard = false) (k : Nat) : s.stepReady m l k = s.residency m.region l.entry m.fbase k :=
  if_neg (by simp [h])

theorem removeRecords_done (hm : s.moves[n]? = some m) :
    s.removeRecords n = s.dropRecords fun f => s.recordDone m f := by
  rw [State.removeRecords, hm]

end

/-! Compactions and blocks. -/

section
variable {s : State} {d : BitVec 2} {k : BitVec 5}

theorem compaction_ends (hk : (s.die d).compact = some k) (hidle : s.compacting d = false)
    (h : (s.die d).hasRun k.toNat = true ∨ s.nextShift d = none) :
    Does (.compaction d k) s (s.endCompaction d) := by
  refine congrArg Host.Outcome.next ((if_neg (by simp [hk, hidle])).trans ?_)
  by_cases hrun : (s.die d).hasRun k.toNat = true
  · exact if_pos hrun
  · rw [if_neg hrun, h.resolve_left hrun]

theorem compaction_shifts (hk : (s.die d).compact = some k) (hidle : s.compacting d = false) {f new : Run}
    {l : List (Leaf × Move)} (hrun : (s.die d).hasRun k.toNat = false) (hshift : s.nextShift d = some (f, new, l)) :
    Does (.compaction d k) s ((s.modDie d fun x =>
      { x with freeRuns := removeFirst (fun y => decide (y = f)) x.freeRuns ++ splitRun f.first new.order f.order,
               allocated := x.allocated ++ [new] }).startMoves l) := by
  refine congrArg Host.Outcome.next ((if_neg (by simp [hk, hidle])).trans ?_)
  rw [if_neg (by simp [hrun]), hshift]

theorem batchReturn_returns {n : Nat} {b : Batch} (hb : (s.die d).borrowed[n]? = some b)
    (hfree : (s.die d).freeRuns.contains ⟨b.base, 6⟩ = true) (hroom : (s.die d).reserve.toNat + 64 ≤ (s.die d).free) :
    s.batchReturn d n = (s.modDie d fun y =>
      { y with borrowed := y.borrowed.eraseIdx n,
               freeRuns := removeFirst (fun z => decide (z = ⟨b.base, 6⟩)) y.freeRuns }).modDie b.peer fun y =>
        { y with lent := removeFirst (fun z => decide (z = ⟨d, b.base⟩)) y.lent,
                 freeRuns := mergeRun y.freeRuns 10 ⟨b.base, 6⟩ } := by
  rw [State.batchReturn]
  dsimp only
  rw [hb]
  dsimp only
  rw [if_pos (by rw [hfree, decide_eq_true hroom]; rfl)]

end

section
variable {s : State} {a : BitVec 52} {b : Block} (hb : mfind s.blocks a.toNat = some b)
include hb

theorem fetchComplete_resident (hfetching : b.state = .fetching) (hkeep : b.evictPending = false) (ok : Bool)
    (bad : List Nat) :
    s.fetchComplete a.toNat ok bad =
      (((s.badLines b ok bad).foldl (fun q i => q.mark (a.toNat + 128 * i) 128)
        ((if b.btier = 1 then s.answered (s.copyAt b) 65536 else s).poke a.toNat (s.backingBytes b))).putBlock a.toNat
          { b with state := .resident, dirty := false, evictPending := false }).unparkResident := by
  rw [State.fetchComplete, hb]
  dsimp only
  rw [if_neg (by simp [hfetching]), if_neg (by simp [hkeep])]

theorem writeBackComplete_leaves {ok : Bool} (hevicting : b.state = .evicting)
    (hok : ok = true ∧ (b.btier = 2 → s.hub.driveWorks b.backing = true)) :
    s.writeBackComplete a.toNat ok =
      ((s.writeBack a.toNat b).setBacking b (s.backingPoison a.toNat b)).reachNonres a.toNat b := by
  obtain ⟨rfl, hdrive⟩ := hok
  rw [State.writeBackComplete, hb]
  dsimp only
  rw [if_neg (by simp [hevicting]), if_pos ?_]
  by_cases h : b.btier = 2
  · simp [hdrive h]
  · simp [show ¬b.btier = 2#2 from h]

theorem writeBackComplete_fails {ok : Bool} (hevicting : b.state = .evicting)
    (hbad : ok = false ∨ b.btier = 2 ∧ s.hub.driveWorks b.backing = false) :
    s.writeBackComplete a.toNat ok = (s.setBacking b true).reachNonres a.toNat b := by
  rw [State.writeBackComplete, hb]
  dsimp only
  rw [if_neg (by simp [hevicting]), if_neg (by obtain h | ⟨h, hdrive⟩ := hbad <;> simp [*])]

end

end Sys2Proof.Machine

namespace Sys2Proof.Claims

open Sys2Proof.Machine

theorem memoryEvents : Claims.MemoryEvents := by
  intro s
  refine ⟨fun t r va q e hva => ⟨fun h => ?_, fun k h => ?_⟩, fun n m hm => ⟨fun l hl hturn =>
      ⟨fun hstarted => congrArg Host.Outcome.next (moveStep_begins hm hl hturn hstarted),
        fun hstarted hend => congrArg Host.Outcome.next (moveStep_ends hm hl hturn hstarted hend),
        fun hstarted hmore hroom hready => congrArg Host.Outcome.next
          (moveStep_steps hm hl hturn hstarted hmore hroom ?_),
        fun u bs hstarted hmore hsoft hready => congrArg Host.Outcome.next
          (moveStep_waits hm hl hturn hstarted hmore ((stepReady_soft hsoft _).trans hready)),
        fun h hlimit => ⟨stepMove_fbase h hlimit, stepMove_gen h⟩⟩, congrArg Host.Outcome.next (removeRecords_done hm)⟩,
    fun d k hk hidle => ⟨compaction_ends hk hidle, fun f new l hrun hshift => compaction_shifts hk hidle hrun hshift⟩,
    fun d h => congrArg Host.Outcome.next (if_pos h),
    fun d n b hb hfree hroom => congrArg Host.Outcome.next (batchReturn_returns hb hfree hroom),
    fun a b ok bad hb => ⟨fun hfetching hkeep => congrArg Host.Outcome.next
        (fetchComplete_resident hb hfetching hkeep ok bad), fun hevicting =>
      ⟨fun hok => congrArg Host.Outcome.next (writeBackComplete_leaves hb hevicting hok),
        fun hbad => congrArg Host.Outcome.next (writeBackComplete_fails hb hevicting hbad)⟩⟩⟩
  · refine congrArg Host.Outcome.next ((if_pos hva).trans ?_)
    rw [h]
  · refine congrArg Host.Outcome.next ((if_pos hva).trans ?_)
    rw [h]
  · exact hready.elim (fun h => stepReady_hard h _) fun h => by
      by_cases hhard : m.hard = true
      · exact stepReady_hard hhard _
      · exact (stepReady_soft (by simpa using hhard) _).trans h

/-- Settles O60: what the running commands write and read, how commands start and finish, and the events of memory,
each by the definition of the event. -/
theorem engineAndMemoryEvents : Obligations.EngineAndMemoryEvents :=
  ⟨operandBytes, tileBytes, copyBytes, drawBytes, exchangeBytes, engineEvents, memoryEvents⟩

end Sys2Proof.Claims
end
